-- ==== Sys2Proof/Word.lean ====
section
/-! DEFINITION. The plain word types of the model and the identifiers of the units of R5. -/
namespace Sys2Proof

/-- A 64-bit word: a BAR0 register, a payload word of a command packet (00 R9, 13 R311). -/
abbrev W64 := BitVec 64
abbrev W32 := BitVec 32
abbrev Byte := BitVec 8

/-- A sparse map: keys strictly rising, no entry equal to what an unlisted key reads as. -/
abbrev Tbl (α : Type) := List (Nat × α)

/-- Logical tiles T000 to T255 (R5). -/
abbrev TileId := Fin 256
/-- Physical tiles PT000 to PT271 (R5). -/
abbrev PTileId := Fin 272
/-- Links L00 to L23 (R5). -/
abbrev LinkId := Fin 24
/-- Clock zones Z00 to Z15 (R5). -/
abbrev ZoneId := Fin 16
/-- Gather engines G00 to G31 (R5). -/
abbrev EngId := Fin 32
/-- Contexts C0 to C7 (R5). -/
abbrev CtxId := Fin 8
/-- LPDDR channels: 128 of them (R81). -/
abbrev ChanId := Fin 128
/-- LPDDR controller groups MC0 to MC3 (R5). -/
abbrev GroupId := Fin 4
/-- Command windows: 0 to 7 are the Marver windows, 8 the sideband's (R311, R335). -/
abbrev WinId := Fin 9
/-- Cane instances CN00 to CN20 (R345). -/
abbrev CaneId := Fin 21
/-- Rails of PWR_RAIL (R355, R367). -/
abbrev RailId := Fin 27
/-- Idle units of PWR_IDLE: 0 to 15 zones, 16 to 39 links, 40 to 43 groups (R367). -/
abbrev UnitId := Fin 44

end Sys2Proof
end

