-- ==== Sys2Proof/Syntax.lean ====
section
/-! DEFINITION. The commands the block takes: one constructor of `Instr` per row of spec/opcode_table.json,
with the row's operands, and the types of those operands.
A tile slot command names the tile and carries its own slot's fields (log 2). A packet command carries the whole
command packet and the window or path it came from. A received bead carries its header word and payload. -/
namespace Sys2Proof

/-- Fields of a matrix slot after its opcode (R36). -/
structure MatSlot where
  fmt    : BitVec 4
  wb     : BitVec 1
  af     : BitVec 1
  rep    : BitVec 8
  accrow : BitVec 8
  accz   : BitVec 1
  ad     : BitVec 3
  off    : BitVec 19
  soff   : BitVec 13
  deriving DecidableEq, Repr

/-- Fields of a vector slot after its opcode (R37). -/
structure VecSlot where
  vd  : BitVec 5
  va  : BitVec 5
  vb  : BitVec 5
  vc  : BitVec 5
  ty  : BitVec 4
  rm  : BitVec 3
  msk : BitVec 3
  imm : BitVec 26
  deriving DecidableEq, Repr

/-- Fields of a memory slot after its opcode (R38). -/
structure MemSlot where
  vr     : BitVec 5
  ad     : BitVec 3
  off    : BitVec 19
  size   : BitVec 3
  ty     : BitVec 4
  stride : BitVec 9
  deriving DecidableEq, Repr

/-- Fields of a mesh slot after its opcode (R39). -/
structure MeshSlot where
  entry : BitVec 7
  ad    : BitVec 3
  off   : BitVec 19
  len   : BitVec 4
  chan  : BitVec 9
  rsv   : BitVec 2
  deriving DecidableEq, Repr

/-- What follows the header of a bead as it reaches a receiver through its lanes: the payload as the neighbour sent it, and the errors
the bead's 352 bytes arrive with, byte j in bits 8j+7 to 8j (R108, R143, R152; log 120). -/
structure BeadBody where
  pay : BitVec 2560
  err : BitVec 2816
  deriving DecidableEq, Repr

/-- A bead as it reaches a receiver: its header, its payload and its errors (R108, R152; log 120). -/
structure WireBead extends BeadBody where
  h : BitVec 64
  deriving DecidableEq, Repr

/-- What the receiver finds wrong with a bead (R110, R152, R153). -/
inductive BeadError where
  /-- RS(348,328) could not correct the bead. -/
  | uncorrectable
  /-- Correction changed `fixed` symbols and the CRC-32 then failed. -/
  | crc (fixed : Fin 11)
  /-- The header carries a reserved CLASS (R110). -/
  | reservedClass (fixed : Fin 11)
  deriving DecidableEq, Repr

/-- What a finished training state found: the physical lanes that passed it, the coefficients, the other end's identifier and serial
hash (R145), whether its training frames ask for EQUALISE (R149), and the logical transmit and receive lanes that precode (R143). -/
structure TrainResult where
  lanes    : BitVec 4
  coeff    : BitVec 64
  gid      : BitVec 20
  assigned : Bool
  hash     : BitVec 64
  equalise : Bool
  preTx    : BitVec 4
  preRx    : BitVec 4
  deriving DecidableEq, Repr

/-- What a boot or recovery phase reports when it completes (R294, R369). -/
structure PhaseResult where
  ms        : BitVec 32
  powerGood : BitVec 32
  tilesBad  : BitVec 272
  xing      : List (BitVec 21)
  chanBad   : BitVec 128
  chanFull  : BitVec 128
  width     : BitVec 5
  speed     : BitVec 4
  flit      : Bool
  deriving DecidableEq, Repr

/-- The eight engines that acknowledge a purge, in the bit order of PENDING (R287). -/
abbrev PurgeEngine := Fin 8

/-- Where a command packet came from: a window of the PF or of VF k, or the sideband (R302, R335). -/
inductive Src where
  | pf (c : CtxId)
  | vf (c : CtxId)
  | sideband
  deriving DecidableEq, Repr

/-- A command packet (R311): its header fields and its payload words P0, P1, ... -/
structure Packet where
  opcode  : BitVec 16
  flags   : BitVec 16
  context : BitVec 8
  gen     : BitVec 8
  length  : BitVec 16
  reply   : BitVec 64
  tag     : BitVec 32
  rsv     : BitVec 64
  seq     : BitVec 32
  payload : List (BitVec 64)
  deriving DecidableEq, Repr

/-- The path of a register access (R411); `gaffer` is the management complex's own (R207, R213). -/
inductive Path where
  | pfBar0
  | management
  | gaffer
  | sideband
  | vf (k : CtxId)
  deriving DecidableEq, Repr

/-- The blocks with staged fields and a COMMIT register (R11). -/
inductive Block where
  | fwd
  | lnk (l : LinkId)
  | tim
  | opn
  | clk
  | cane (i : CaneId)
  deriving DecidableEq, Repr

/-- The size and alignment of a BAR0 access (R304). -/
inductive AccSize where
  | aligned64
  | other
  deriving DecidableEq, Repr

/-- The resets a physical function can take (R306). -/
inductive PfReset where
  | flr
  | conventional
  | linkDown
  deriving DecidableEq, Repr

/-- Where an SPDM request arrived (R307). -/
inductive SpdmPort where
  | doe
  | mctp
  deriving DecidableEq, Repr

/-- One refresh of the sensors: PLDM sensor identifiers with their readings (R337, R363). -/
structure Readings where
  vals : List (Nat × Int)
  deriving DecidableEq, Repr

/-- An item offered to a Cane FIFO: 64 data bits, the end mark, and the poison the writer knows of (R339).
`flip` is what the storage does to the item's parity bit: true makes the read find a parity error (R341). -/
structure CaneItem where
  data   : BitVec 64
  last   : Bool
  poison : Bool
  flip   : Bool
  deriving DecidableEq, Repr

/-- The unit whose twin window closes (R270). -/
inductive TwinUnit where
  | tile (t : TileId)
  | link (l : LinkId)
  deriving DecidableEq, Repr

/-- A 16-byte twin item (R271). -/
structure TwinItem where
  kind   : BitVec 2
  unit   : BitVec 8
  window : BitVec 22
  step   : BitVec 32
  sig    : BitVec 64
  deriving DecidableEq, Repr

/-- A twin packet as the partner's unit takes it (R271). -/
structure TwinPacket where
  link   : LinkId
  magic  : BitVec 16
  stop   : Bool
  pnum   : BitVec 32
  digest : BitVec 64
  items  : List TwinItem
  deriving DecidableEq, Repr

/-- The commands, in the order of spec/opcode_table.json. -/
inductive Instr where
  /-- NOP (R40). -/
  | nop (t : TileId) (rsv : BitVec 26)
  /-- PINC (R53). -/
  | pinc (t : TileId) (sc : BitVec 2) (target : BitVec 16) (amount : BitVec 8)
  /-- PSET (R52). -/
  | pset (t : TileId) (sc : BitVec 2) (target : BitVec 16) (value : BitVec 8)
  /-- PWAIT (R54). -/
  | pwait (t : TileId) (chip : Bool) (counter : BitVec 12) (rsv : BitVec 3) (idx : BitVec 10)
  /-- TWAIT (R54). -/
  | twait (t : TileId) (rsv : BitVec 16) (idx : BitVec 10)
  /-- STEP (R54). -/
  | step (t : TileId) (rsv : BitVec 26)
  /-- LOOP (R34). -/
  | loop (t : TileId) (count : BitVec 14) (rsv : BitVec 1) (len : BitVec 11)
  /-- JMP (R34). -/
  | jmp (t : TileId) (rsv : BitVec 15) (target : BitVec 11)
  /-- BLOAD (R30). -/
  | bload (t : TileId) (block : BitVec 6) (rsv : BitVec 5) (addr : BitVec 15)
  /-- AADD (R35). -/
  | aadd (t : TileId) (ad : BitVec 3) (rsv : BitVec 3) (inc : BitVec 20)
  /-- ASET (R35). -/
  | aset (t : TileId) (ad : BitVec 3) (rsv : BitVec 3) (value : BitVec 20)
  /-- SEED (R72). -/
  | seed (t : TileId) (stream : BitVec 10) (rsv : BitVec 16)
  /-- HALT (R250). -/
  | halt (t : TileId) (rsv : BitVec 26)
  /-- MNOP (R40). -/
  | mnop (t : TileId)
  /-- MWL (R44). -/
  | mwl (t : TileId) (f : MatSlot)
  /-- MWLT (R44). -/
  | mwlt (t : TileId) (f : MatSlot)
  /-- MMA (R42). -/
  | mma (t : TileId) (f : MatSlot)
  /-- MDR (R44). -/
  | mdr (t : TileId) (f : MatSlot)
  /-- MDRC (R65). -/
  | mdrc (t : TileId) (f : MatSlot)
  /-- MDRV (R44). -/
  | mdrv (t : TileId) (f : MatSlot)
  /-- MCLR (R44). -/
  | mclr (t : TileId) (f : MatSlot)
  /-- VNOP (R40). -/
  | vnop (t : TileId)
  /-- VADD (R66). -/
  | vadd (t : TileId) (f : VecSlot)
  /-- VSUB (R66). -/
  | vsub (t : TileId) (f : VecSlot)
  /-- VMUL (R66). -/
  | vmul (t : TileId) (f : VecSlot)
  /-- VFMA (R66). -/
  | vfma (t : TileId) (f : VecSlot)
  /-- VMAX (R66). -/
  | vmax (t : TileId) (f : VecSlot)
  /-- VMIN (R66). -/
  | vmin (t : TileId) (f : VecSlot)
  /-- VCMP (R41). -/
  | vcmp (t : TileId) (f : VecSlot)
  /-- VSEL (R40). -/
  | vsel (t : TileId) (f : VecSlot)
  /-- VCVT (R68). -/
  | vcvt (t : TileId) (f : VecSlot)
  /-- VLOGIC (R40). -/
  | vlogic (t : TileId) (f : VecSlot)
  /-- VSHF (R41). -/
  | vshf (t : TileId) (f : VecSlot)
  /-- VRED (R41). -/
  | vred (t : TileId) (f : VecSlot)
  /-- VEXP2 (R69). -/
  | vexp2 (t : TileId) (f : VecSlot)
  /-- VLOG2 (R69). -/
  | vlog2 (t : TileId) (f : VecSlot)
  /-- VRCP (R69). -/
  | vrcp (t : TileId) (f : VecSlot)
  /-- VRSQRT (R69). -/
  | vrsqrt (t : TileId) (f : VecSlot)
  /-- VRNG (R72). -/
  | vrng (t : TileId) (f : VecSlot)
  /-- VAMX (R73). -/
  | vamx (t : TileId) (f : VecSlot)
  /-- VAENC (R75). -/
  | vaenc (t : TileId) (f : VecSlot)
  /-- VADEC (R77). -/
  | vadec (t : TileId) (f : VecSlot)
  /-- MEMNOP (R40). -/
  | memnop (t : TileId)
  /-- VLD (R38). -/
  | vld (t : TileId) (f : MemSlot)
  /-- VST (R38). -/
  | vst (t : TileId) (f : MemSlot)
  /-- VLDX (R68). -/
  | vldx (t : TileId) (f : MemSlot)
  /-- VSTX (R68). -/
  | vstx (t : TileId) (f : MemSlot)
  /-- VLDS (R40). -/
  | vlds (t : TileId) (f : MemSlot)
  /-- MCPY (R40). -/
  | mcpy (t : TileId) (f : MemSlot)
  /-- MZERO (R40). -/
  | mzero (t : TileId) (f : MemSlot)
  /-- XNOP (R40). -/
  | xnop (t : TileId)
  /-- XSEND (R50). -/
  | xsend (t : TileId) (f : MeshSlot)
  /-- XRECV (R50). -/
  | xrecv (t : TileId) (f : MeshSlot)
  /-- XDROP (R50). -/
  | xdrop (t : TileId) (f : MeshSlot)
  /-- WAIT_SATISFIED (R54). -/
  | waitSatisfied (t : TileId)
  /-- WAIT_BOUND_EXCEEDED (R54). -/
  | waitBoundExceeded (t : TileId)
  /-- SYNC_INCREMENT_APPLIED (R53). -/
  | syncIncrementApplied
  /-- MESH_WORD_DEPARTURE (R240). -/
  | meshWordDeparture (ep : BitVec 10) (chan : BitVec 9)
  /-- MESH_WORD_ARRIVAL (R240). -/
  | meshWordArrival (ep : BitVec 10) (chan : BitVec 9)
  /-- SLOT_DEPARTURE (R119). -/
  | slotDeparture (l : LinkId)
  /-- DUE_TICK_RELEASE (R119). -/
  | dueTickRelease (l : LinkId)
  /-- PLANNED_BEAD_ARRIVAL (R128). -/
  | plannedBeadArrival (l : LinkId) (h : BitVec 64) (pay : BitVec 2560) (err : BitVec 2816)
  /-- VOID_BEAD_ARRIVAL (R129). -/
  | voidBeadArrival (l : LinkId) (h : BitVec 64) (r : BeadBody)
  /-- BEAD_IN_ERROR (R155). -/
  | beadInError (l : LinkId) (b : WireBead)
  /-- NAK (R156). -/
  | nak (l : LinkId) (x : BitVec 12)
  /-- IMPLICIT_NAK (R157). -/
  | implicitNak (l : LinkId)
  /-- FLUX_BUDGET_EXHAUSTED (R134). -/
  | fluxBudgetExhausted (l : LinkId)
  /-- OPEN_BEAD (R161). -/
  | openBead (l : LinkId) (h : BitVec 64) (pay : BitVec 2560) (err : BitVec 2816)
  /-- CREDIT (R161). -/
  | credit (l : LinkId) (cum : BitVec 16)
  /-- CREDIT_RETURN (R161). -/
  | creditReturn (l : LinkId)
  /-- RT_REQ (R149). -/
  | rtReq (l : LinkId) (id : BitVec 8) (equalise : Bool) (width : BitVec 2) (forced : Bool)
  /-- RT_GO (R149). -/
  | rtGo (l : LinkId) (absorbed : BitVec 8) (width : BitVec 2) (forced : Bool) (start : BitVec 45)
  /-- RT_REFUSE (R150). -/
  | rtRefuse (l : LinkId) (id : BitVec 8) (reason : BitVec 8)
  /-- PEER_RESET (R163). -/
  | peerReset (l : LinkId) (kind : BitVec 8)
  /-- FENCE_WORD (R164). -/
  | fenceWord (l : LinkId) (on : Bool) (tag : BitVec 12)
  /-- SKIP (R156). -/
  | skip (l : LinkId) (x : BitVec 12)
  /-- MEASURE (R148). -/
  | measure (l : LinkId) (probe : BitVec 8) (reply : Bool) (turnaround : BitVec 32)
  /-- HELLO (R169). -/
  | hello (l : LinkId) (h : BitVec 64) (r : BeadBody)
  /-- HELLO_SEND (R168). -/
  | helloSend (l : LinkId)
  /-- SYNC_BEAD (R221). -/
  | syncBead (l : LinkId) (h : BitVec 64) (r : BeadBody) (rxCount : BitVec 64) (rxFrac : BitVec 32)
  /-- SYNC_SEND (R220). -/
  | syncSend (l : LinkId)
  /-- LOCK_LOSS (R165). -/
  | lockLoss (l : LinkId)
  /-- LINK_DOWN (R166). -/
  | linkDown (l : LinkId) (cause : BitVec 4)
  /-- AUTO_RETRY (R167). -/
  | autoRetry (l : LinkId)
  /-- TRAINING_STATE_COMPLETE (R146). -/
  | trainingStateComplete (l : LinkId) (r : TrainResult)
  /-- TRAINING_STATE_LIMIT (R146). -/
  | trainingStateLimit (l : LinkId) (lanes : BitVec 4)
  /-- RETRAIN_START (R151). -/
  | retrainStart (l : LinkId)
  /-- EPOCH_PULSE (R218): the pulse is sampled `sub` root edges after the last LCLK edge. -/
  | epochPulse (sub : BitVec 2)
  /-- EPOCH_PULSE_MISSING (R218). -/
  | epochPulseMissing
  /-- SERVO_UPDATE (R222). -/
  | servoUpdate
  /-- HOLDOVER (R222). -/
  | holdover
  /-- SYNC_LOST (R222). -/
  | syncLost
  /-- TAKEOVER (R224). -/
  | takeover
  /-- LAUNCH (R230). -/
  | launch (c : CtxId)
  /-- STEP_BOUNDARY (R250). -/
  | stepBoundary (c : CtxId)
  /-- TEMPER_DECISION (R208). -/
  | temperDecision (z : ZoneId)
  /-- ZONE_VOLTAGE_GOOD (R198). -/
  | zoneVoltageGood (z : ZoneId)
  /-- ZONE_STOP (R198). -/
  | zoneStop (z : ZoneId)
  /-- ZONE_DIVIDER_SWITCH (R198). -/
  | zoneDividerSwitch (z : ZoneId)
  /-- ZONE_RESTART (R198). -/
  | zoneRestart (z : ZoneId)
  /-- DROOP_STRETCH (R203). -/
  | droopStretch (z : ZoneId)
  /-- ZONE_WINDOW_CHECK (R206). -/
  | zoneWindowCheck (z : ZoneId)
  /-- FORCED_SHED (R210). -/
  | forcedShed (zones : BitVec 16)
  /-- DESCRIPTOR_START (R95). -/
  | descriptorStart (g : EngId)
  /-- BLOCK_ACCESS (R88). -/
  | blockAccess (g : EngId)
  /-- LINE_ENTERS_STAGING (R96). -/
  | lineEntersStaging (g : EngId)
  /-- DESCRIPTOR_FINISH (R95). -/
  | descriptorFinish (g : EngId)
  /-- REFRESH_WINDOW (R91). -/
  | refreshWindow (ch : ChanId) (gap : BitVec 16)
  /-- CONTROLLER_REFRESH (R93). -/
  | controllerRefresh (ch : ChanId) (gap : BitVec 16)
  /-- SRAM_SCRUB (R100). -/
  | sramScrub (t : TileId)
  /-- PATROL_SCRUB (R102). -/
  | patrolScrub (m : GroupId)
  /-- OPEN_SRAM_ACCESS (R48). -/
  | openSramAccess (t : TileId)
  /-- OPEN_LPDDR_ACCESS (R89). -/
  | openLpddrAccess (ch : ChanId)
  /-- REQUEST_ISSUE (R174). -/
  | requestIssue (c : CtxId)
  /-- PACKET_HEAD_ROUTE (R181). -/
  | packetHeadRoute (l : LinkId)
  /-- REQUEST_ARRIVAL (R185). -/
  | requestArrival (l : LinkId)
  /-- REQUEST_EXECUTE (R185). -/
  | requestExecute
  /-- RESPONSE_ARRIVAL (R186). -/
  | responseArrival (l : LinkId)
  /-- REQUEST_TIMEOUT (R186). -/
  | requestTimeout
  /-- RETRY_RESEND (R184). -/
  | retryResend
  /-- RANK_CACHE_MISS (R179). -/
  | rankCacheMiss (c : CtxId) (rank : BitVec 16)
  /-- ROUTE_CACHE_MISS (R180). -/
  | routeCacheMiss (v : Bool) (id : BitVec 20)
  /-- RATE_WINDOW (R189). -/
  | rateWindow
  /-- CONGESTION_WINDOW (R190). -/
  | congestionWindow
  /-- FAULT_STOP (R282). -/
  | faultStop (c : CtxId)
  /-- FAULT_RECORD_LOG (R283). -/
  | faultRecordLog
  /-- FAULT_SPILL (R284). -/
  | faultSpill
  /-- LINK_RECORD_CLOSE (R285). -/
  | linkRecordClose (i : BitVec 8)
  /-- PURGE_ACK (R286). -/
  | purgeAck (c : CtxId) (e : PurgeEngine)
  /-- PURGE_DEADLINE (R286). -/
  | purgeDeadline (c : CtxId)
  /-- GEN_GUARD_EXPIRY (R277). -/
  | genGuardExpiry (c : CtxId)
  /-- CLOSE_WIPE_COMPLETE (R288). -/
  | closeWipeComplete (c : CtxId)
  /-- HANG_SAMPLE (R290). -/
  | hangSample
  /-- HANG_REPLAY (R291). -/
  | hangReplay (c : CtxId)
  /-- WATCHDOG_EXPIRY (R293). -/
  | watchdogExpiry
  /-- DEVICE_RECOVERY (R293). -/
  | deviceRecovery (cause : BitVec 4)
  /-- RECOVERY_PHASE_COMPLETE (R294). -/
  | recoveryPhaseComplete (r : PhaseResult)
  /-- RECOVERY_FAILED (R295). -/
  | recoveryFailed
  /-- PACKET_TAKE (R314). -/
  | packetTake (w : WinId)
  /-- WINDOW_WRITE (R313). -/
  | windowWrite (src : Src) (off : BitVec 20) (wide : Bool) (data : BitVec 64)
  /-- NOP_COMMAND (R319). -/
  | nopCommand (src : Src) (p : Packet)
  /-- CTX_OPEN (R320). -/
  | ctxOpen (src : Src) (p : Packet)
  /-- CTX_CLOSE (R288). -/
  | ctxClose (src : Src) (p : Packet)
  /-- CTX_RESET (R286). -/
  | ctxReset (src : Src) (p : Packet)
  /-- PLAN_LOAD (R245). -/
  | planLoad (src : Src) (p : Packet)
  /-- PLAN_ARM (R229). -/
  | planArm (src : Src) (p : Packet)
  /-- PLAN_ABORT (R321). -/
  | planAbort (src : Src) (p : Packet)
  /-- PLAN_ABORT_IMMEDIATE (R321). -/
  | planAbortImmediate (src : Src) (p : Packet)
  /-- PLAN_STATUS (R322). -/
  | planStatus (src : Src) (p : Packet)
  /-- COPY_IN (R323). -/
  | copyIn (src : Src) (p : Packet)
  /-- COPY_OUT (R323). -/
  | copyOut (src : Src) (p : Packet)
  /-- FILL (R323). -/
  | fill (src : Src) (p : Packet)
  /-- WIPE (R323). -/
  | wipe (src : Src) (p : Packet)
  /-- FENCE (R324). -/
  | fence (src : Src) (p : Packet)
  /-- TIME_SET (R226). -/
  | timeSet (src : Src) (p : Packet)
  /-- TIME_ADJUST (R226). -/
  | timeAdjust (src : Src) (p : Packet)
  /-- TS_READ (R327). -/
  | tsRead (src : Src) (p : Packet)
  /-- TABLE_STAGE (R325). -/
  | tableStage (src : Src) (p : Packet)
  /-- TABLE_COMMIT (R325). -/
  | tableCommit (src : Src) (p : Packet)
  /-- TABLE_RETIRE (R187). -/
  | tableRetire (src : Src) (p : Packet)
  /-- LINK_CTL_RETRAIN (R326). -/
  | linkCtlRetrain (src : Src) (p : Packet)
  /-- LINK_CTL_ENABLE (R326). -/
  | linkCtlEnable (src : Src) (p : Packet)
  /-- LINK_CTL_DISABLE (R326). -/
  | linkCtlDisable (src : Src) (p : Packet)
  /-- LINK_CTL_FENCE_ON (R164). -/
  | linkCtlFenceOn (src : Src) (p : Packet)
  /-- LINK_CTL_FENCE_OFF (R164). -/
  | linkCtlFenceOff (src : Src) (p : Packet)
  /-- LINK_CTL_AUTO_RETRY (R326). -/
  | linkCtlAutoRetry (src : Src) (p : Packet)
  /-- LINK_CTL_LANE_MAP (R144). -/
  | linkCtlLaneMap (src : Src) (p : Packet)
  /-- LINK_STATUS (R326). -/
  | linkStatus (src : Src) (p : Packet)
  /-- DISCOVER (R326). -/
  | discover (src : Src) (p : Packet)
  /-- FAULT_READ (R328). -/
  | faultRead (src : Src) (p : Packet)
  /-- FAULT_CLEAR (R328). -/
  | faultClear (src : Src) (p : Packet)
  /-- TELEMETRY_READ (R329). -/
  | telemetryRead (src : Src) (p : Packet)
  /-- ATTEST (R380). -/
  | attest (src : Src) (p : Packet)
  /-- CERT_READ (R378). -/
  | certRead (src : Src) (p : Packet)
  /-- FW_STAGE (R374). -/
  | fwStage (src : Src) (p : Packet)
  /-- FW_COMMIT (R374). -/
  | fwCommit (src : Src) (p : Packet)
  /-- LIFECYCLE (R384). -/
  | lifecycle (src : Src) (p : Packet)
  /-- TWIN_SET (R269). -/
  | twinSet (src : Src) (p : Packet)
  /-- POWER_POLICY (R330). -/
  | powerPolicy (src : Src) (p : Packet)
  /-- FWD_COMMIT (R11). -/
  | fwdCommit (path : Path) (v : BitVec 64)
  /-- LNK_COMMIT (R144). -/
  | lnkCommit (path : Path) (l : LinkId) (v : BitVec 64)
  /-- TIM_COMMIT (R253). -/
  | timCommit (path : Path) (v : BitVec 64)
  /-- OPN_COMMIT (R187). -/
  | opnCommit (path : Path) (v : BitVec 64)
  /-- CLK_COMMIT (R207). -/
  | clkCommit (path : Path) (v : BitVec 64)
  /-- SBD_CANE_COMMIT (R343). -/
  | sbdCaneCommit (path : Path) (i : CaneId) (v : BitVec 64)
  /-- STAGED_APPLY (R11). -/
  | stagedApply (b : Block)
  /-- LNK_CTL_REQUEST (R149). -/
  | lnkCtlRequest (path : Path) (l : LinkId) (v : BitVec 64)
  /-- LNK_CTL_ENABLE_CLEAR (R165). -/
  | lnkCtlEnableClear (path : Path) (l : LinkId) (v : BitVec 64)
  /-- LNK_FENCE (R164). -/
  | lnkFence (path : Path) (l : LinkId) (v : BitVec 64)
  /-- TIM_SNAP (R233). -/
  | timSnap (path : Path) (v : BitVec 64)
  /-- TIM_TS_ARM (R228). -/
  | timTsArm (path : Path) (v : BitVec 64)
  /-- TIM_TS_DATA (R228). -/
  | timTsData (path : Path)
  /-- HST_EVENT (R310). -/
  | hstEvent (path : Path)
  /-- GAF_RECOVERY_START (R293). -/
  | gafRecoveryStart (path : Path) (v : BitVec 64)
  /-- GAF_LOCATION (R400). -/
  | gafLocation (path : Path) (v : BitVec 64)
  /-- DBG_CTL (R412). -/
  | dbgCtl (path : Path) (v : BitVec 64)
  /-- DBG_DATA (R415). -/
  | dbgData (path : Path)
  /-- DET_CTX_CTL (R264). -/
  | detCtxCtl (path : Path) (c : CtxId) (v : BitVec 64)
  /-- HST_APERTURE (R305). -/
  | hstAperture (fn : Fin 9) (v : BitVec 64)
  /-- REGISTER_WRITE (R9). -/
  | registerWrite (path : Path) (off : BitVec 26) (size : AccSize) (v : BitVec 64)
  /-- BAR4_READ (R305). -/
  | bar4Read (fn : Fin 9) (off : BitVec 36) (tag : BitVec 14)
  /-- BAR4_WRITE (R305). -/
  | bar4Write (fn : Fin 9) (off : BitVec 36) (data : BitVec 64)
  /-- VF_FLR (R306). -/
  | vfFlr (k : CtxId)
  /-- PF_FLR (R306). -/
  | pfFlr (kind : PfReset)
  /-- VF_ENABLE_CLEAR (R306). -/
  | vfEnableClear
  /-- IDE_KM (R308). -/
  | ideKm (stream : BitVec 4) (keySet : BitVec 1) (key : BitVec 256)
  /-- IDE_INTEGRITY_FAILURE (R308). -/
  | ideIntegrityFailure (stream : BitVec 4)
  /-- DOE_DISCOVERY (R307). -/
  | doeDiscovery (idx : BitVec 8)
  /-- GET_VERSION (R307). -/
  | getVersion (port : SpdmPort)
  /-- GET_CAPABILITIES (R307). -/
  | getCapabilities (port : SpdmPort) (req : List (BitVec 8))
  /-- NEGOTIATE_ALGORITHMS (R307). -/
  | negotiateAlgorithms (port : SpdmPort) (req : List (BitVec 8))
  /-- GET_DIGESTS (R307). -/
  | getDigests (port : SpdmPort) (req : List (BitVec 8))
  /-- GET_CERTIFICATE (R307). -/
  | getCertificate (port : SpdmPort) (req : List (BitVec 8)) (slot : BitVec 4) (off : BitVec 16) (len : BitVec 16)
  /-- CHALLENGE (R380). -/
  | challenge (port : SpdmPort) (req : List (BitVec 8)) (nonce : BitVec 256)
  /-- GET_MEASUREMENTS (R379). -/
  | getMeasurements (port : SpdmPort) (req : List (BitVec 8)) (index : BitVec 8) (sign : Bool)
  /-- KEY_EXCHANGE (R307). -/
  | keyExchange (port : SpdmPort) (req : List (BitVec 8))
  /-- FINISH (R307). -/
  | finish (port : SpdmPort) (req : List (BitVec 8))
  /-- SETDASA (R332). -/
  | setdasa (static : BitVec 7) (dyn : BitVec 7)
  /-- ENTDAA (R332). -/
  | entdaa (dyn : BitVec 7)
  /-- RSTDAA (R332). -/
  | rstdaa
  /-- SET_ENDPOINT_ID (R333). -/
  | setEndpointId (who : BitVec 8) (eid : BitVec 8)
  /-- MCTP_CONTROL (R333). -/
  | mctpControl (who : BitVec 8) (cmd : BitVec 8) (req : List (BitVec 8))
  /-- SIDEBAND_COMMAND (R335). -/
  | sidebandCommand (who : BitVec 8) (p : Packet)
  /-- JOB_NOTICE (R334). -/
  | jobNotice (who : BitVec 8) (tag : BitVec 12) (gid : BitVec 20) (cause : BitVec 8) (ref : BitVec 64)
  /-- MODULE_STATE (R334). -/
  | moduleState (who : BitVec 8)
  /-- REGISTER_ACCESS (R334). -/
  | registerAccess (who : BitVec 8) (write : Bool) (off2 : BitVec 25) (v : BitVec 64)
  /-- GET_TID (R337). -/
  | getTid (who : BitVec 8)
  /-- GET_PLDM_TYPES (R337). -/
  | getPldmTypes (who : BitVec 8)
  /-- GET_PLDM_COMMANDS (R337). -/
  | getPldmCommands (who : BitVec 8) (ptype : BitVec 8)
  /-- GET_PLDM_VERSION (R337). -/
  | getPldmVersion (who : BitVec 8) (ptype : BitVec 8)
  /-- GET_PDR_REPOSITORY_INFO (R337). -/
  | getPdrRepositoryInfo (who : BitVec 8)
  /-- GET_PDR (R337). -/
  | getPdr (who : BitVec 8) (handle : BitVec 32)
  /-- GET_SENSOR_READING (R337). -/
  | getSensorReading (who : BitVec 8) (sensor : BitVec 16)
  /-- GET_STATE_SENSOR_READINGS (R337). -/
  | getStateSensorReadings (who : BitVec 8) (sensor : BitVec 16)
  /-- SET_NUMERIC_SENSOR_ENABLE (R337). -/
  | setNumericSensorEnable (who : BitVec 8) (sensor : BitVec 16) (state : BitVec 8)
  /-- SET_EVENT_RECEIVER (R337). -/
  | setEventReceiver (who : BitVec 8) (mode : BitVec 8) (eid : BitVec 8)
  /-- PLATFORM_EVENT_MESSAGE (R337). -/
  | platformEventMessage (who : BitVec 8) (req : List (BitVec 8))
  /-- POLL_FOR_PLATFORM_EVENT_MESSAGE (R337). -/
  | pollForPlatformEventMessage (who : BitVec 8) (ack : BitVec 16)
  /-- SENSOR_REFRESH (R337). -/
  | sensorRefresh (r : Readings)
  /-- BYPASS (R338). -/
  | bypass (tdi : Bool)
  /-- IDCODE (R338). -/
  | idcode
  /-- SAMPLE_PRELOAD (R338). -/
  | samplePreload (cells : List Bool)
  /-- EXTEST (R338). -/
  | extest (pins : List Bool)
  /-- CLAMP (R338). -/
  | clamp
  /-- HIGHZ (R338). -/
  | highz
  /-- PRIVATE_INSTRUCTION (R338). -/
  | privateInstruction (write : Bool) (off : BitVec 5) (v : BitVec 64)
  /-- CANE_WRITE (R343). -/
  | caneWrite (i : CaneId) (item : CaneItem)
  /-- CANE_READ (R341). -/
  | caneRead (i : CaneId)
  /-- CANE_TIMEOUT (R342). -/
  | caneTimeout (i : CaneId)
  /-- TWIN_WINDOW_CLOSE (R270). -/
  | twinWindowClose (k : TwinUnit)
  /-- TWIN_PACKET_SEND (R271). -/
  | twinPacketSend
  /-- TWIN_PACKET_RECEIVE (R272). -/
  | twinPacketReceive (p : TwinPacket)
  /-- TWIN_ITEM_TIMEOUT (R272). -/
  | twinItemTimeout
  /-- POWER_ON (R369). -/
  | powerOn
  /-- BOOT_PHASE_COMPLETE (R369). -/
  | bootPhaseComplete (r : PhaseResult)
  /-- RECOVERY_BY_HOST_RESTART (R373). -/
  | recoveryByHostRestart
  /-- INPUT_SAG (R348). -/
  | inputSag (mv : BitVec 32)
  /-- SAG_END (R351). -/
  | sagEnd (mv : BitVec 32)
  /-- INTERRUPTION (R348). -/
  | interruption (mv : BitVec 32)
  /-- INPUT_SURGE (R348). -/
  | inputSurge (mv : BitVec 32)
  /-- INPUT_RIPPLE (R348). -/
  | inputRipple (pp : BitVec 32) (mean : BitVec 32)
  /-- OVERCURRENT (R348). -/
  | overcurrent (ma : BitVec 32)
  /-- INPUT_OUTSIDE_RATING (R347). -/
  | inputOutsideRating (mv : BitVec 32)
  /-- PWR_FAIL_N (R350). -/
  | pwrFailN (asserted : Bool)
  /-- QUENCH (R352). -/
  | quench (cause : BitVec 4)
  /-- BANK_CUTOFF (R349). -/
  | bankCutoff
  /-- QUENCH_END (R353). -/
  | quenchEnd (mv : BitVec 32)
  /-- RAIL_FAULT (R356). -/
  | railFault (r : RailId) (word : BitVec 16)
  /-- RAIL_REPOWER (R356). -/
  | railRepower (r : RailId)
  /-- RAIL_READ (R355). -/
  | railRead (r : RailId) (mv : BitVec 16) (da : BitVec 16) (pg : Bool)
  /-- THERMAL_TRIP (R362). -/
  | thermalTrip (celsius : BitVec 16) (lpddr : Bool)
  /-- ZONE_OVER_TEMPERATURE (R362). -/
  | zoneOverTemperature (z : ZoneId)
  /-- POWER_LIMIT_NOT_MET (R358). -/
  | powerLimitNotMet
  /-- IDLE_ENTRY (R360). -/
  | idleEntry (u : UnitId)
  /-- IDLE_WAKE (R360). -/
  | idleWake (u : UnitId)
  /-- EARLY_WAKE (R361). -/
  | earlyWake (u : UnitId)
  /-- PD03_IDLE_OFF (R357). -/
  | pd03IdleOff
  /-- LCLK_EDGE (R214). -/
  | lclkEdge
  /-- LOSS_OF_LOCK (R165). -/
  | lossOfLock (l : LinkId)
  /-- LOCK_REGAINED (R165). -/
  | lockRegained (l : LinkId)
  /-- EMPTY_BEAD_ARRIVAL (R154). -/
  | emptyBeadArrival (l : LinkId) (h : BitVec 64) (r : BeadBody)
  /-- ROOT_PLL_LOCK_LOSS (R195). -/
  | rootPllLockLoss (refGone : Bool) (pllGone : Bool)
  /-- OPEN_PACKET_LIFETIME_EXPIRY (R185). -/
  | openPacketLifetimeExpiry
  /-- ENGINE_RESET_TIMEOUT (R293). -/
  | engineResetTimeout
  /-- LIFECYCLE_RECOVERY_START (R384). -/
  | lifecycleRecoveryStart
  /-- MARGIN_RETRAIN_REQUEST (R149). -/
  | marginRetrainRequest (l : LinkId) (equalise : Bool) (width : BitVec 2) (forced : Bool)
  /-- TILE_SELF_TEST (R26). -/
  | tileSelfTest (t : PTileId) (passed : Bool)
  /-- INTERRUPTION_END (R348). -/
  | interruptionEnd (mv : BitVec 32)
  /-- SURGE_END (R348). -/
  | surgeEnd (mv : BitVec 32)
  /-- RIPPLE_END (R348). -/
  | rippleEnd (pp : BitVec 32)
  /-- HIGH_INPUT_ENTRY (R347). -/
  | highInputEntry (mv : BitVec 32)
  /-- BANK_RECHARGED (R349). -/
  | bankRecharged
  deriving DecidableEq, Repr

end Sys2Proof
end

