-- ==== Sys2Proof/Machine/Hash.lean ====
section
/-! DEFINITION. The hashes and codes the chapters name: CRC-64 (R270), SHA-512 with HMAC, for image digests,
the serial hash and the security block (R168, R237, R370 and after). -/
namespace Sys2Proof
namespace Machine

/-- One byte into the CRC-64 of R270: polynomial 0x42F0E1EBA9EA3693, no reflection. -/
def crc64Byte (c : Nat) (b : Nat) : Nat :=
  (List.range 8).foldl (fun c _ => if c >>> 63 = 1 then ((c <<< 1) % 2 ^ 64) ^^^ 0x42F0E1EBA9EA3693 else (c <<< 1) % 2 ^ 64)
    (c ^^^ (b <<< 56))

def crc64 (bs : List Nat) : W64 := BitVec.ofNat 64 (bs.foldl crc64Byte 0)

/-- One byte of the reflected CRC-32 with generator 0x04C11DB7 (R153). -/
def crc32Byte (c b : Nat) : Nat :=
  (List.range 8).foldl (fun c _ => if c % 2 = 1 then (c / 2) ^^^ 0xEDB88320 else c / 2) (c ^^^ b)

/-- CRC-32 of bytes (R153). -/
def crc32 (bs : List Nat) : Nat := (bs.foldl crc32Byte 0xFFFFFFFF) ^^^ 0xFFFFFFFF

/-- n bytes of a number, little-endian. -/
def bytesLE : Nat → Nat → List Nat
  | 0, _ => []
  | n + 1, v => v % 256 :: bytesLE n (v / 256)

/-- Bytes to a number, little-endian. -/
def leBytes (bs : List Nat) : Nat := bs.foldr (fun b a => b + 256 * a) 0

/-- Bytes to a number, big-endian. -/
def beBytes (bs : List Nat) : Nat := bs.foldl (fun a b => 256 * a + b) 0

/-- n bytes of a number, big-endian. -/
def bytesBE (n v : Nat) : List Nat := (bytesLE n v).reverse

/-- Largest r with r^k at most n, by bisection on bits. -/
def iroot (k n bits : Nat) : Nat :=
  (List.range (bits + 1)).foldl (fun r i => let c := r + 2 ^ (bits - i); if c ^ k ≤ n then c else r) 0

/-- The first 80 primes, from which SHA-512 takes its constants. -/
def primes80 : List Nat :=
  ((List.range 410).filter fun n => decide (2 ≤ n) && (List.range 21).all fun d => decide (d < 2) || decide (n ≤ d) || decide (n % d ≠ 0)).take 80

/-- Fraction bits of the cube and square roots (FIPS 180-4). -/
def shaK : List Nat := primes80.map fun p => iroot 3 (p * 2 ^ 192) 68 % 2 ^ 64
def shaH : List Nat := (primes80.take 8).map fun p => iroot 2 (p * 2 ^ 128) 68 % 2 ^ 64

def ror64 (x n : Nat) : Nat := (x >>> n) ||| ((x <<< (64 - n)) % 2 ^ 64)

/-- The message schedule, newest word first. -/
def shaSched : Nat → List Nat → List Nat
  | 0, w => w
  | n + 1, w =>
    let a := w.getD 1 0
    let b := w.getD 6 0
    let c := w.getD 14 0
    let d := w.getD 15 0
    let s1 := ror64 a 19 ^^^ ror64 a 61 ^^^ (a >>> 6)
    let s0 := ror64 c 1 ^^^ ror64 c 8 ^^^ (c >>> 7)
    shaSched n (((s1 + b + s0 + d) % 2 ^ 64) :: w)

/-- One round of the compression, on the eight working words. -/
def shaRound (st : List Nat) (kw : Nat × Nat) : List Nat :=
  match st with
  | [a, b, c, d, e, f, g, h] =>
    let s1 := ror64 e 14 ^^^ ror64 e 18 ^^^ ror64 e 41
    let ch := (e &&& f) ^^^ ((2 ^ 64 - 1 - e) &&& g)
    let t1 := h + s1 + ch + kw.1 + kw.2
    let s0 := ror64 a 28 ^^^ ror64 a 34 ^^^ ror64 a 39
    let mj := (a &&& b) ^^^ (a &&& c) ^^^ (b &&& c)
    [(t1 + s0 + mj) % 2 ^ 64, a, b, c, (d + t1) % 2 ^ 64, e, f, g]
  | _ => st

/-- One 128-byte block. -/
def shaBlock (h : List Nat) (blk : List Nat) : List Nat :=
  let w0 := (List.range 16).map fun i => beBytes ((blk.drop (8 * i)).take 8)
  let w := (shaSched 64 w0.reverse).reverse
  let r := (shaK.zip w).foldl shaRound h
  (h.zip r).map fun p => (p.1 + p.2) % 2 ^ 64

/-- Blocks of a padded message. -/
def shaBlocks : Nat → List Nat → List Nat → List Nat
  | 0, h, _ => h
  | n + 1, h, bs => shaBlocks n (shaBlock h (bs.take 128)) (bs.drop 128)

/-- SHA-512 of a byte list: 64 bytes. -/
def sha512 (bs : List Nat) : List Nat :=
  let l := bs.length
  let pad := (239 - l % 128) % 128
  let m := bs ++ [0x80] ++ List.replicate pad 0 ++ bytesBE 16 (8 * l)
  (shaBlocks (m.length / 128) shaH m).flatMap (bytesBE 8)

/-- HMAC with SHA-512. -/
def hmac512 (key msg : List Nat) : List Nat :=
  let k0 := if key.length > 128 then sha512 key else key
  let k := k0 ++ List.replicate (128 - k0.length) 0
  sha512 (k.map (· ^^^ 0x5C) ++ sha512 (k.map (· ^^^ 0x36) ++ msg))

/-- HKDF extract and one expand block with SHA-512. -/
def hkdf512 (salt ikm info : List Nat) (n : Nat) : List Nat :=
  ((hmac512 (hmac512 salt ikm) (info ++ [1])).take n)

end Machine
end Sys2Proof
end

