-- ==== Sys2Proof/Config.lean ====
section
/-! DEFINITION. What the spec leaves open or leaves to the part: uninterpreted constants with no body (free values,
log 6), and the fixed constants of the module that chapters name. -/
namespace Sys2Proof
namespace Config

/-- A free value: what a value the spec leaves undefined turns out to be, drawn with `State.fresh` (log 6). -/
opaque freeWord : Nat → BitVec 512

/-- The data blocks of H of R84, block j a 16 x 4 matrix with column i in bits 16i+15 to 16i, wherever they have the distance R84
states. Fixed in silicon; not printed by the spec (log 102). -/
opaque eccH : Nat → BitVec 64

/-- Which neighbour of the exact result the fixed function of a transcendental operation gives on an input: the one further from
zero or the one nearer. Operation 0 is VEXP2, 1 VLOG2, 2 VRCP, 3 VRSQRT (R69: an error below 1 ulp). -/
opaque ulpAway : Nat → BitVec 32 → Bool

/-- The code of a node kind of R289 in the record of HANG 0x001; the spec gives the field and no codes (log 34). -/
opaque hangKind : Nat → BitVec 4

/-- The unique device secret in fuses (R377); secret. -/
opaque uds : BitVec 256
/-- The ROM measurement: SHA-512 of the boot ROM (R379). -/
opaque romMeas : BitVec 512
/-- The fused SHA-512 hashes of the signing keys of slots 0 to 3, and of the life-cycle token key (R372, R383). -/
opaque keyHash : Nat → BitVec 512
opaque tokenHash : BitVec 512
/-- The configuration measurement as a function of the values it covers; the spec states no layout of them (R379; log 39). -/
opaque cfgDigest : List Nat → BitVec 512
/-- Certificates 0 to 2 in DER form, the self-signed DeviceID certificate, and certificate 3 as a function of the firmware
and configuration measurements and FW_VERSION (R378; log 39). -/
opaque cert : Nat → List (BitVec 8)
opaque selfCert : List (BitVec 8)
opaque aliasCert : BitVec 512 → BitVec 512 → BitVec 32 → List (BitVec 8)

/-- The vendor's JEDEC code in IDCODE (R338). -/
opaque jedec : BitVec 11

end Config

/-- Crossing latencies in ticks (R200). -/
abbrev XO : Nat := 3
abbrev XI : Nat := 3
/-- Tile-mesh latency in ticks (R238). -/
abbrev MESH : Nat := 6

end Sys2Proof
end

