-- ==== Sys2Proof/Machine/State.lean ====
section
/-! DEFINITION. The state of the block as plain data: every register, store, queue, mode and pin the spec gives the
module, the queue of waiting commands, and `State.reset`, the module right after power-on reset.
Large or repeated parts are sparse maps (`Tbl`): a key that is not listed holds the default the reading function names. -/
namespace Sys2Proof
namespace Machine

/-- Why a step can stop with a fault. No command of this block raises one: the spec's own faults are records and
stops of contexts, which are effects on the state (12 R279 to R283). Kept for the interface; never raised: safe. -/
inductive Fault where
  /-- Never raised. -/
  | none
  deriving DecidableEq, Repr

/-- Why a command has no meaning. -/
inductive Refusal where
  /-- The command named is not modelled yet; only an arm of exec answers it: safe. -/
  | notModelled (mnemonic : String)
  deriving DecidableEq, Repr

/-! ### Faults -/

/-- A fault record as its eight words before SEQ is given (R280). -/
structure FaultRec where
  code   : BitVec 16
  stop   : Bool
  ctx    : Option CtxId
  gen    : BitVec 8
  engine : Nat
  peer   : BitVec 8
  unit   : Nat
  count  : Nat
  step   : Nat
  offset : Nat
  d0     : Nat
  d1     : Nat
  d2     : Nat
  deriving DecidableEq, Repr

/-! ### Tiles (chapter 2) -/

/-- TIL_STATUS.STATE (R58). -/
inductive TileSt where
  | idle | parison | issuing | waiting | atStep | halted | faulted
  deriving DecidableEq, Repr

/-- One accumulator row: 128 lanes, and whether the last MMA that wrote it was INT8 (R44, R65; log 7). -/
structure AccRow where
  lanes : List W32
  isInt : Bool
  deriving DecidableEq, Repr

/-- A weight buffer: elements w(k,n) at bit (128k+n) x width, block scales, and the recorded format (R24, R44). -/
structure WBuf where
  elems  : BitVec 65536
  scales : BitVec 4096
  fmt    : BitVec 4
  deriving DecidableEq, Repr

/-- One level of the loop stack (R34). -/
structure LoopLv where
  left  : Nat
  first : Nat
  last  : Nat
  deriving DecidableEq, Repr

/-- What a stalled bundle waits for (R54). -/
inductive WaitFor where
  | local (c : Nat) (target : W32)
  | chip (c : Nat) (target : W32)
  | time (tick : Nat)
  | step (tick : Nat)
  deriving DecidableEq, Repr

/-- A stall of issue: its condition, the tick of its first stalled cc, and its bound in ticks (R54). -/
structure Stall where
  cond  : WaitFor
  since : Nat
  bound : Option Nat
  deriving DecidableEq, Repr

/-- A word in an outbox or inbox entry: its channel, the tick-side time from which it is there, its poison mark (R50). -/
structure BoxWord where
  word   : BitVec 512
  chan   : Nat
  ready  : Nat
  poison : Bool
  deriving DecidableEq, Repr

/-- An operation on a Punty counter (R52). -/
inductive PunOp where
  | inc (n : Nat)
  | set (v : W32)
  deriving DecidableEq, Repr

/-- One A row of an MMA on its way through the array (R42, R63). -/
structure MmaRow where
  af    : Nat
  row   : Nat
  fmt   : BitVec 4
  accz  : Bool
  land  : Nat
  j     : Nat
  iss   : Nat
  wb    : Nat
  buf   : WBuf
  deriving DecidableEq, Repr

/-- What an issued operation still does, in the cc it is scheduled for (R31, R40, R42). -/
inductive Act where
  /-- Read n lines from u into vector register r, through the element format if one is named; usable in cc `land`. -/
  | rdV (u n r : Nat) (fmt : Option (BitVec 4)) (land : Nat)
  /-- VLDS: sixteen lines at a stride. -/
  | rdS (u stride r land : Nat)
  /-- The array takes the stationary matrix for a row, whose line u is read in the next cc. -/
  | rdWt (u : Nat) (m : MmaRow)
  /-- An A row line. -/
  | rdA (u : Nat) (m : MmaRow)
  /-- A scale line of A. -/
  | rdSc (u : Nat)
  /-- n lines of a weight chunk from u, into the staging of load `key` at bit `pos`. -/
  | rdW (u n key pos : Nat)
  /-- The chunk of load `key` becomes the content of buffer wb. -/
  | wbLand (wb key : Nat) (fmt : BitVec 4) (trans : Bool)
  /-- BLOAD: sixteen lines into a block of the bundle store. -/
  | rdB (u block : Nat)
  /-- XSEND: one line into an outbox entry. -/
  | rdOut (u entry chan : Nat)
  /-- XDROP: an inbox entry is freed. -/
  | drop (entry : Nat)
  /-- MCPY: n lines from u, written to dst one cc later. -/
  | rdC (u n dst win : Nat)
  /-- Write lines at u. -/
  | wr (u : Nat) (data : List (BitVec 512)) (eng win : Nat)
  /-- XRECV: the word of an inbox entry written at u. -/
  | wrIn (u entry win : Nat)
  /-- A drain reads a row pair; the write or register follows `wait` cc later. -/
  | drain (af row : Nat) (dst : Nat) (fmt : Option (BitVec 4)) (toReg : Bool) (wait win : Nat)
  /-- A vector register write of a port (0 vector, 1 memory, 2 drain): lane and value. -/
  | setV (port r : Nat) (vals : List (Nat × W32))
  | setQ (q : Nat) (bits msk : BitVec 256)
  | setAd (a : Nat) (v : BitVec 20)
  | seed (stream : BitVec 10)
  | pun (c : Nat) (op : PunOp)
  /-- The array's result for a row (R42). -/
  | accMma (m : MmaRow) (a scale : BitVec 512)
  | accClr (af row n iss : Nat)
  deriving DecidableEq, Repr

/-- A word in a tile's inbound crossing buffer (R202): seen by the zone from tick `seen`. -/
structure XWord where
  seen   : Nat
  entry  : Nat
  ctr    : Nat
  word   : BitVec 512
  poison : Bool
  deriving DecidableEq, Repr

/-- Where an increment is applied: a chip-wide counter, or a local counter of a tile (R33, R51). -/
inductive CtrRef where
  | chip (n : Nat)
  | tile (t : TileId) (c : Nat)
  deriving DecidableEq, Repr

/-- An increment in the sync network (R53). -/
structure SyncItem where
  due : Nat
  ctr : CtrRef
  op  : PunOp
  deriving DecidableEq, Repr

/-- What a bundle that turns out to fault gives back (R56): the loop stack, the formats recorded for the weight buffers, the
draw index and the ccs to which its engines are busy, as they were before it issued. -/
structure Undo where
  loops    : List LoopLv
  fmts     : BitVec 4 × BitVec 4
  draw     : Nat
  mmaEnd   : Nat
  mmaWb    : Nat
  mmaAf    : Nat
  drainEnd : Nat
  trEnd    : Nat
  sendEnd  : Nat
  recvEnd  : Nat
  blkFrom  : Tbl Nat
  deriving DecidableEq, Repr

def Undo.zero : Undo where
  loops := []
  fmts := (0, 0)
  draw := 0
  mmaEnd := 0
  mmaWb := 0
  mmaAf := 0
  drainEnd := 0
  trEnd := 0
  sendEnd := 0
  recvEnd := 0
  blkFrom := []

/-- One logical tile (R24). Of the model's own: `made` holds what the open bundle has scheduled until its cc ends, `undo` and
`sent` what a fault of it gives back (R56), `blocked` the banks a conflict of the present cc involves (R47), `openRd` and
`openWr` the lines open-class accesses used in it (R46), `ran` the tick of its edge and how many ccs the tile has had in that
tick, `stepSeen` the steps whose first boundary the zone has seen pass, `xout` the outbox entries whose words are in the
outbound crossing buffer (R202), `portOut` and `portIn` one more than the tick in which its mesh port last carried a word out or in
(R238). -/
structure Tile where
  own       : Option CtxId
  st        : TileSt
  cc        : Nat
  used      : BitVec 4
  bidx      : Nat
  cur       : Nat
  steps     : Nat
  issued    : Nat
  stalled   : Nat
  stepIssue : Nat
  isat      : Bool
  ad        : Tbl (BitVec 20)
  q         : Tbl (BitVec 256)
  v         : Tbl (List W32)
  acc       : Tbl AccRow
  wb        : Tbl WBuf
  wst       : Tbl (BitVec 69632)
  scaleLine : BitVec 512
  store     : Tbl (BitVec 256)
  blkOff    : Tbl Nat
  blkFrom   : Tbl Nat
  waitTab   : List W64
  codeBase  : Nat
  loops     : List LoopLv
  punty     : Tbl W32
  outbox    : Tbl (Option BoxWord)
  inbox     : Tbl (Option BoxWord)
  freedAt   : Tbl Nat
  acts      : List (Nat × Act)
  mmaEnd    : Nat
  mmaWb     : Nat
  mmaAf     : Nat
  drainEnd  : Nat
  trEnd     : Nat
  sendEnd   : Nat
  recvEnd   : Nat
  stall     : Option Stall
  stream    : BitVec 10
  draw      : Nat
  xin       : List XWord
  incs      : List (Nat × Nat × PunOp)
  sigs      : Tbl W64
  wpos      : Tbl (Nat × Nat × Nat)
  wclosed   : Nat
  memBusy   : Bool
  memIdle   : Nat
  isOpen    : Bool
  made      : List (Nat × Act)
  undo      : Undo
  sent      : Option SyncItem
  blocked   : List Nat
  openRd    : List Nat
  openWr    : List Nat
  ran       : Nat × Nat
  stepSeen  : Nat
  xout      : List Nat
  portOut   : Nat
  portIn    : Nat
  deriving DecidableEq, Repr

/-- A tile nothing has touched since power-on (log 1, log 2, log 3). -/
def Tile.zero : Tile where
  own := none
  st := .idle
  cc := 0
  used := 0
  bidx := 0
  cur := 0
  steps := 0
  issued := 0
  stalled := 0
  stepIssue := 0
  isat := false
  ad := []
  q := []
  v := []
  acc := []
  wb := []
  wst := []
  scaleLine := 0
  store := []
  blkOff := []
  blkFrom := []
  waitTab := []
  codeBase := 0
  loops := []
  punty := []
  outbox := []
  inbox := []
  freedAt := []
  acts := []
  mmaEnd := 0
  mmaWb := 0
  mmaAf := 0
  drainEnd := 0
  trEnd := 0
  sendEnd := 0
  recvEnd := 0
  stall := none
  stream := 0
  draw := 0
  xin := []
  incs := []
  sigs := []
  wpos := []
  wclosed := 0
  memBusy := false
  memIdle := 0
  isOpen := false
  made := []
  undo := Undo.zero
  sent := none
  blocked := []
  openRd := []
  openWr := []
  ran := (0, 0)
  stepSeen := 0
  xout := []
  portOut := 0
  portIn := 0

/-! ### Contexts and plans (chapters 10 and 12) -/

/-- STATE of CTX_STATUS (R276). -/
inductive CtxSt where
  | closed | opened | resetting | closing | replay
  deriving DecidableEq, Repr

/-- The states of a plan (R244). -/
inductive PlanSt where
  | none | loading | parison | armed | running | complete | faulted
  deriving DecidableEq, Repr

/-- A channel entry of the tile-mesh schedule (R239). -/
structure Chan where
  dkind  : Nat
  dest   : Nat
  base   : Nat
  ring   : Nat
  ctr    : Nat
  burst  : Nat
  count  : Nat
  first  : Nat
  period : Nat
  deriving DecidableEq, Repr

/-- A gather descriptor (R94). -/
structure Desc where
  op     : Nat
  start  : Nat
  rlen   : Nat
  base   : Nat
  rows   : Nat
  stride : Nat
  chan   : Nat
  sc     : Nat
  target : Nat
  amount : Nat
  deriving DecidableEq, Repr

/-- A transmit entry (R117). -/
structure TxE where
  kind : Nat
  srca : Nat
  abuf : Nat
  bsel : Bool
  srcb : Nat
  rel  : Bool
  fop  : Nat
  stok : BitVec 4
  deriving DecidableEq, Repr

/-- A receive entry (R118). -/
structure RxE where
  kind   : Nat
  due    : Nat
  dlv    : Bool
  chan   : Nat
  rfld   : Bool
  abuf   : Nat
  rel    : Bool
  fop    : Nat
  tokctr : Nat
  deriving DecidableEq, Repr

/-- A phase of the bead program: frame length in slots and repetitions (R115). -/
structure Phase where
  frame : Nat
  reps  : Nat
  deriving DecidableEq, Repr

/-- A bead schedule section of one link (R241): one run per phase and direction. -/
structure BeadSec where
  link : Nat
  flux : Nat
  mask : W64
  tx   : List (List TxE)
  rx   : List (List RxE)
  deriving DecidableEq, Repr

/-- A region of the buffer map (R243). -/
structure Region where
  kind  : Nat
  unit  : Nat
  start : Nat
  len   : Nat
  deriving DecidableEq, Repr

/-- The loaded image: what PLAN_LOAD installs (R234 to R243). -/
structure Plan where
  lc2       : Bool
  lagged    : Bool
  multi     : Bool
  rank      : Nat
  stepCount : Nat
  lens      : List (Nat × Bool)
  zoneFs    : List (Nat × Nat × Nat)
  hash      : BitVec 256
  digest    : BitVec 512
  seeds     : List W64
  tiles     : BitVec 256
  engines   : BitVec 32
  bankBase  : Nat
  banks     : Nat
  phases    : List Phase
  beads     : List BeadSec
  chans     : List (Nat × List Chan)
  gathers   : List (Nat × List Desc)
  exps      : List Nat
  refresh   : List Byte
  regions   : List Region
  deriving DecidableEq, Repr

/-- A purge in progress (R286). -/
structure Purge where
  began   : Nat
  pending : BitVec 8
  deriving DecidableEq, Repr

/-- A context: what CTX_OPEN gave it, its plan and its stop (R275 to R277, R282, R283). -/
structure Ctx where
  st        : CtxSt
  plan      : PlanSt
  image     : Option Plan
  gen       : BitVec 8
  genLeft   : Tbl (Option Nat)
  fwOnly    : Bool
  vfOwn     : Bool
  tiles     : BitVec 256
  engines   : BitVec 32
  ctrBase   : Nat
  ctrLen    : Nat
  job       : BitVec 12
  rank      : BitVec 16
  dm        : Bool
  vector    : Nat
  launchAt  : Nat
  lateArm   : Bool
  ran       : Bool
  fwdStop   : Option Nat
  stepCtr   : Nat
  stepStart : Nat
  faultTick : Option Nat
  stopped   : Bool
  codes     : List (BitVec 16)
  first     : BitVec 16
  firstSeq  : Nat
  more      : Nat
  purge     : Option Purge
  toClose   : Bool
  wiping    : Bool
  replay    : Option Nat
  replayEnd : Nat
  resetBy   : Option (Src × Packet × Nat)
  endStep   : Option Nat
  rs        : Nat
  loadPay   : List W64
  deriving DecidableEq, Repr

def Ctx.zero : Ctx where
  st := .closed
  plan := .none
  image := none
  gen := 0
  genLeft := []
  fwOnly := false
  vfOwn := false
  tiles := 0
  engines := 0
  ctrBase := 0
  ctrLen := 0
  job := 0
  rank := 0
  dm := false
  vector := 0
  launchAt := 0
  lateArm := false
  ran := false
  fwdStop := none
  stepCtr := 0
  stepStart := 0
  faultTick := none
  stopped := false
  codes := []
  first := 0
  firstSeq := 0
  more := 0
  purge := none
  toClose := false
  wiping := false
  replay := none
  replayEnd := 0
  resetBy := none
  endStep := none
  rs := 0
  loadPay := []

/-! ### Sync network, mesh, forwarding plane, gather engines -/

/-- A word between two ports of the tile mesh (R238). -/
structure Flight where
  arrive : Nat
  src    : Nat
  chan   : Nat
  index  : Nat
  ctx    : CtxId
  word   : BitVec 512
  poison : Bool
  deriving DecidableEq, Repr

/-- A word a receive side hands to a mesh channel (R122). -/
structure Deliv where
  tick   : Nat
  link   : Nat
  chan   : Nat
  ctx    : CtxId
  word   : BitVec 512
  deriving DecidableEq, Repr

/-- A bead released from a Lehr, for 12 ticks (R119). -/
structure Released where
  tick : Nat
  link : Nat
  ctx  : CtxId
  pay  : BitVec 2560
  deriving DecidableEq, Repr

/-- An assembly buffer entry (R121): payload, valid bits, the tick the fifth word arrived, the tick REL frees it, and
the content it was last freed of with the ticks it was full and freed at. -/
structure ABufE where
  pay   : BitVec 2560
  valid : BitVec 5
  full  : Nat
  freeAt : Option Nat
  old   : Option (BitVec 2560 × Nat × Nat)
  deriving DecidableEq, Repr

/-- Operand B of a transmit Fold, read at the release tick of operand A (R121): the slot's tick, its link and context. -/
structure FoldB where
  tick : Nat
  link : Nat
  ctx  : CtxId
  pay  : Option (BitVec 2560)
  deriving DecidableEq, Repr

/-- GTH_STATUS.STATE (R107). -/
inductive EngSt where
  | idle | waitStart | waitSlot | transferring | ended | faulted
  deriving DecidableEq, Repr

/-- A line in an engine: its data line number, the tick it is in staging, its poison mark, its channel, the symbols its read
corrected as word and symbol, whether that read was uncorrectable, and whether it came from the mesh (R96, R101). -/
structure GLine where
  line   : Nat
  tick   : Nat
  word   : BitVec 512
  poison : Bool
  chan   : Nat
  fixed  : List (Nat × Nat)
  bad    : Bool
  mesh   : Bool
  deriving DecidableEq, Repr

/-- A gather engine (R94 to R96): `upNext` is the next descriptor to start, `idx` the active one, `row` and `col` the
next line to visit, `sent` the lines handed to the mesh, `slot` one more than the slot of its last block. -/
structure Engine where
  own     : Option CtxId
  st      : EngSt
  list    : List Desc
  idx     : Nat
  upNext  : Nat
  active  : Bool
  row     : Nat
  col     : Nat
  sent    : Nat
  lastEnd : Nat
  staging : List GLine
  flight  : List GLine
  blocks  : Nat
  slot    : Nat
  deriving DecidableEq, Repr

def Engine.zero : Engine where
  own := none
  st := .idle
  list := []
  idx := 0
  upNext := 0
  active := false
  row := 0
  col := 0
  sent := 0
  lastEnd := 0
  staging := []
  flight := []
  blocks := 0
  slot := 0

/-! ### Cane FIFOs (R339 to R345) -/

/-- A stored item: data, end mark, parity bit, poison tag, and the tick it was written. -/
structure CaneIt where
  data   : W64
  last   : Bool
  par    : Bool
  poison : Bool
  at_    : Nat
  deriving DecidableEq, Repr

/-- A Cane instance: items head first, ticks of reads whose freed stage the writer may not see yet, the tick the
timeout timer last restarted and whether it has reached TIMEOUT since, a write held under BACKPRESSURE, FULL_MODE in force, and its counters and flags. -/
structure Cane where
  items   : List CaneIt
  freed   : List Nat
  timer   : Nat
  fired   : Bool
  held    : Option CaneItem
  flagMd  : Bool
  lastEmpty  : Bool
  lastEnd    : Bool
  lastPoison : Bool
  tmo     : Bool
  ovr     : Bool
  dropped : W32
  parity  : W32
  deriving DecidableEq, Repr

/-- A fault record waiting in its unit because the channel is full (R345). -/
structure HeldRec where
  chan  : CaneId
  item  : FaultRec
  deriving DecidableEq, Repr

/-! ### Clock zones (chapter 8) -/

/-- Where a step change of a zone stands (R198). -/
inductive ChangeAt where
  /-- Waiting for the regulator's power-good, until the tick given. -/
  | voltage (until_ : Nat)
  /-- The clock stops at the next multiple of 4. -/
  | toStop
  /-- Stopped at t0; the divider switches at t0 + 16. -/
  | stopped (t0 : Nat)
  /-- The divider has switched; the zone restarts at t0 + 32. -/
  | switched (t0 : Nat)
  deriving DecidableEq, Repr

/-- A zone: root periods from the present tick edge to its next edge and its place in the divider pattern (R196),
the tick of its last edge before the present tick, its delivered cc (count per tick, repeats) and stretched ticks of the
last 4,096 ticks, the step change in progress, one more than the tick of its last stop, when the window check armed, Temper's
inputs, a forced shed that waits for the restart, one more than the tick of Temper's last decision, whether an edge falls on
the present tick edge itself, and the edges its tiles have had from it in the present tick. `ph0`, `pat0` and `str0` are phase,
place and stretch of the period in progress as the present LCLK period began, `strN` the periods stretched in it and `n0` the
edges it delivers (R203). -/
structure Zone where
  phase      : Nat
  pat        : Nat
  prevEdge   : Nat
  hist       : List (Nat × Nat)
  stretchNow : Bool
  stretches  : List Nat
  target     : Nat
  change     : Option ChangeAt
  lastChange : Nat
  armedAt    : Option Nat
  issues     : List (Nat × Nat)
  hotSince   : Option Nat
  volt       : Nat
  temp       : Int
  shed       : Bool
  decided    : Nat
  edge0      : Bool
  edges      : Nat
  ph0        : Nat
  pat0       : Nat
  str0       : Bool
  strN       : Nat
  n0         : Nat
  deriving DecidableEq, Repr

def Zone.zero : Zone where
  phase := 0
  pat := 0
  prevEdge := 0
  hist := []
  stretchNow := false
  stretches := []
  target := 4
  change := none
  lastChange := 0
  armedAt := none
  issues := []
  hotSince := none
  volt := 0x1E
  temp := 0
  shed := false
  decided := 0
  edge0 := false
  edges := 0
  ph0 := 0
  pat0 := 0
  str0 := false
  strN := 0
  n0 := 0

/-! ### Links (chapter 6) -/

/-- A bead as it was sent (R108, R154): its sequence since the link came UP, header, payload and departure tick. -/
structure SentBead where
  seq : Nat
  hdr : W64
  pay : BitVec 2560
  at_ : Nat
  deriving DecidableEq, Repr

/-- A replay request (R133): the bead and the tick of the request. -/
structure Replay where
  bead : SentBead
  req  : Nat
  deriving DecidableEq, Repr

/-- A bead in the Lehr (R128): its slot, the tick it was written, its tokens and payload. -/
structure LehrE where
  slot : Nat
  at_  : Nat
  stok : BitVec 4
  pay  : BitVec 2560
  deriving DecidableEq, Repr

/-- A bead in the open receive buffer (R161), and whether a fill bead carried it (R112, R164). -/
structure OpenB where
  seq  : Nat
  mgmt : Bool
  fil  : Bool
  at_  : Nat
  pay  : BitVec 2560
  deriving DecidableEq, Repr

/-- An open packet on its way out of a link (R183): the link buffer it comes from or none for the endpoint's own, its
beads where they are the endpoint's, how many have departed of how many, the tick its head may depart, whether it must
find 14 further credits, the outstanding entry of a request, whether it is a RETRY of the pool of 64 headers, and the
response-store bytes a response holds (R184). -/
structure TxJob where
  src   : Option LinkId
  beads : List (BitVec 2560)
  pos   : Nat
  nb    : Nat
  ready : Nat
  ring  : Bool
  mgmt  : Bool
  ep    : Bool
  mc    : Bool
  cm    : Bool
  abort : Bool
  req   : Option Nat
  retry : Bool
  hold  : Option Nat
  deriving DecidableEq, Repr

/-- The route of the packet at the front of an open receive buffer (R181, R191): links its copies still have to leave
on, and whether a multicast packet has still to be written at this module. -/
structure RouteSt where
  outs : List LinkId
  mc   : Bool
  nb   : Nat
  loc  : Bool
  deriving DecidableEq, Repr

/-- A retrain request (R149): identifier, equalise, width, forced. -/
structure RtReq where
  id     : Nat
  eq     : Bool
  width  : Nat
  forced : Bool
  deriving DecidableEq, Repr

/-- A grant (R149). -/
structure RtGrant where
  absorbed : Nat
  eq       : Bool
  width    : Nat
  forced   : Bool
  start    : Nat
  deriving DecidableEq, Repr

/-- A logical transmit lane (R143): its scrambler, whether it precodes, and the last level it sent. -/
structure LaneTx where
  scr  : BitVec 31
  pre  : Bool
  last : Nat
  deriving DecidableEq, Repr

def LaneTx.zero : LaneTx where
  scr := 0
  pre := false
  last := 0

/-- The link layer of one link: transmit sequence, replay ring and queue (R154 to R157); receive sequence state (R155,
R159); open receive buffer and transmit queue (R161, R183); control words and discovery beads (R162); Lehr (R128);
training and retrain state (R146 to R151); lock and error window (R165); MEASURE probes (R148); send times (R168, R220);
the last bead that departed, replays among them, and whether it waits for its raw bead period (R133, R215); the logical transmit
lanes, the levels each physical lane carries in the present bead period, and the receive lanes that precode (R143, R144). -/
structure Link where
  txSeq     : Nat
  txAck     : Nat
  ring      : List SentBead
  rplq      : List Replay
  reqWin    : Nat
  flux3     : Bool
  lastSlot  : Option Nat
  lastLclk  : Nat
  rxNext    : Nat
  rxCum     : Nat
  rxAcc     : List Nat
  rxErr     : List (Nat × Nat)
  naks      : List (Nat × Nat)
  nakOut    : List Nat
  unsure    : Bool
  held      : List OpenB
  obuf      : List OpenB
  fexp      : Nat
  fdrop     : Bool
  route     : Option RouteSt
  txq       : List TxJob
  ctrlq     : List W64
  special   : List (BitVec 4 × BitVec 2560)
  credOut   : Nat
  credBack  : Nat
  retCum    : Nat
  retPend   : Nat
  retFirst  : Nat
  lehr      : Tbl (Option LehrE)
  attempts  : Nat
  laneFails : Tbl Nat
  lanesOk   : BitVec 4
  coeff     : Option (W64 × W64)
  fullEq    : Bool
  reqWidth  : Nat
  laneMap   : BitVec 16
  stateAt   : Nat
  retryAt   : Nat
  ownReq    : Option RtReq
  slaveReq  : Option RtReq
  grant     : Option RtGrant
  nextId    : Nat
  lockLost  : Option Nat
  lockSince : Nat
  consec    : Nat
  rxCount   : Nat
  errAt     : List Nat
  probes    : List (Nat × Nat)
  rtts      : List Nat
  helloAt   : Nat
  syncAt    : Nat
  idleSince : Nat
  lastRx    : Nat
  nakIn     : List Nat
  out       : Option SentBead
  txWait    : Bool
  lanes     : List LaneTx
  line      : List (Nat × List Nat)
  preRx     : BitVec 4
  deriving DecidableEq, Repr

/-- A link after reset: sequences 0, 256 credits once UP, and every list empty (R161, R167). -/
def Link.zero : Link where
  txSeq := 0
  txAck := 0
  ring := []
  rplq := []
  reqWin := 0
  flux3 := false
  lastSlot := none
  lastLclk := 0
  rxNext := 0
  rxCum := 0
  rxAcc := []
  rxErr := []
  naks := []
  nakOut := []
  unsure := false
  held := []
  obuf := []
  fexp := 0
  fdrop := false
  route := none
  txq := []
  ctrlq := []
  special := []
  credOut := 0
  credBack := 0
  retCum := 0
  retPend := 0
  retFirst := 0
  lehr := []
  attempts := 0
  laneFails := []
  lanesOk := 0
  coeff := none
  fullEq := true
  reqWidth := 0
  laneMap := 0x3210
  stateAt := 0
  retryAt := 0
  ownReq := none
  slaveReq := none
  grant := none
  nextId := 1
  lockLost := none
  lockSince := 0
  consec := 0
  rxCount := 0
  errAt := []
  probes := []
  rtts := []
  helloAt := 0
  syncAt := 0
  idleSince := 0
  lastRx := 0
  nakIn := []
  out := none
  txWait := false
  lanes := []
  line := []
  preRx := 0

/-! ### The network interface (chapter 7) -/

/-- An open packet (R175). -/
structure NiPkt where
  op    : Nat
  ep    : Bool
  mc    : Bool
  dest  : Nat
  cm    : Bool
  dm    : Bool
  len   : Nat
  birth : Nat
  gen   : BitVec 8
  seq   : Nat
  job   : Nat
  srank : Nat
  ce    : Bool
  status : Nat
  tgt   : W64
  data  : List W64
  deriving DecidableEq, Repr

/-- A request descriptor in a request queue (R173, R174): the word, its channel and index in the step, the tile of its
source endpoint, and the tick it reached the head. -/
structure ReqDesc where
  word  : BitVec 512
  src   : Nat
  chan  : Nat
  index : Nat
  at_   : Nat
  deriving DecidableEq, Repr

/-- An entry of the outstanding table (R186): an own key, the request as sent, its injection tick, the tick a resend is
due, and for a multicast the copies that have not departed (R191). -/
structure Outst where
  key    : Nat
  ctx    : CtxId
  rank   : Nat
  pkt    : NiPkt
  desc   : ReqDesc
  sent   : Nat
  resend : Option Nat
  copies : Nat
  deriving DecidableEq, Repr

/-- One open-class access still to be served. -/
inductive Need where
  /-- A line of tile SRAM, counted from line 0 of tile 0, read or written (R46, R48). -/
  | sram (line : Nat) (wr : Bool)
  /-- A whole period of an LPDDR channel (R89). -/
  | period (ch : Nat)
  deriving DecidableEq, Repr

/-- A request in the inbound store (R184, R185), or one served on the local path (R81) with the key of its outstanding
entry; `needs` are the open-class accesses still to be served (R48, R89). -/
structure Inb where
  pkt   : NiPkt
  ctx   : Option CtxId
  at_   : Nat
  local_ : Option Nat
  needs : List Need
  deriving DecidableEq, Repr

/-- Returned data on its way into a local buffer (R186): the outstanding entry's key, the words, the lines still to
be written through idle memory slots, the first address, and whether the request took the local path (R81). -/
structure RespW where
  key   : Nat
  loc   : Bool
  at_   : Nat
  addr  : Nat
  data  : List W64
  needs : List Need
  deriving DecidableEq, Repr

/-- What a completion or a response changes in a Rank entry (R186, R189). -/
inductive RankNote where
  /-- DONE by one. -/
  | done
  /-- An echo, and its rate decrease. -/
  | echo
  /-- The rate decrease of a RETRY. -/
  | slow
  deriving DecidableEq, Repr

/-- Work that waits for a Rank entry to be read into the cache (R179). -/
inductive RankWork where
  /-- An arriving request of the rank. -/
  | req (p : NiPkt)
  /-- A response to a request of the rank: its status and words, the tick it is ready, and whether a RETRY header carries it. -/
  | resp (p : NiPkt) (status : Nat) (data : List W64) (ready : Nat) (retry : Bool)
  | note (n : RankNote)
  deriving DecidableEq, Repr

structure RankWait where
  ctx  : CtxId
  rank : Nat
  work : RankWork
  deriving DecidableEq, Repr

/-- A packet the endpoint has formed and not yet given to a link (R181, R183): whether it is a RETRY of the pool of 64
headers (R184), and the outstanding entry of a request. -/
structure NiOut where
  pkt   : NiPkt
  ready : Nat
  retry : Bool
  req   : Option Nat
  deriving DecidableEq, Repr

/-! ### Time (chapter 9) -/

/-- The time system beside its registers: FRAC (R214), the announced rate change, and whether a MEMBER has joined its upstream
(R219), the master's sync count (R220), the servo's exchanges of the present interval as twice theta in units of 2^-32 ticks and its
counts (R222), the epoch pulse, and the root edge of the pattern's start modulo 768 (R218), the armed stamp (R228), a time of day
that waits for its bead boundary, and the increment that comes with it (R226), the last original SYNC bead of each link as TX_COUNT,
TX_FRAC, RX_COUNT and RX_FRAC (R220), the tick of the link's last SYNC bead and its distance from the one before (R220; log 129), the
highest master epoch seen (R224), and of the servo's loop the rates of the last two intervals, newest first, the sum and number of the
last interval's exchanges, and the frequency term (R222). -/
structure TimeSt where
  frac      : Nat
  nextRate  : Nat
  rateAt    : Nat
  pendRate  : Bool
  masterSeq : Nat
  seqAt     : Nat
  thetas    : List Int
  good      : Nat
  badOff    : Nat
  lastValid : Nat
  holdSince : Nat
  pulseAt   : Nat
  misses    : Nat
  pat0      : Option Nat
  joined    : Bool
  tsArm     : Bool
  todSet    : Option (W64 × W32 × W32)
  todLoad   : Bool
  incSet    : Option Nat
  echo      : Tbl (Option (Nat × Nat × Nat × Nat))
  epochMax  : Nat
  updAt     : Nat
  syncIn    : Tbl (Nat × Nat)
  rates     : List Nat
  lastMean  : Option (Int × Nat)
  freq      : Nat
  deriving DecidableEq, Repr

/-- Time at power-on: the count at 0 (R216). -/
def TimeSt.zero : TimeSt where
  frac := 0
  nextRate := 0xFFF80000
  rateAt := 0
  pendRate := false
  masterSeq := 0
  seqAt := 0
  thetas := []
  good := 0
  badOff := 0
  lastValid := 0
  holdSince := 0
  pulseAt := 0
  misses := 0
  pat0 := none
  joined := false
  tsArm := false
  todSet := none
  todLoad := false
  incSet := none
  echo := []
  epochMax := 0
  updAt := 0
  syncIn := []
  rates := []
  lastMean := none
  freq := 0xFFF80000

/-! ### Staged fields (R11, R253, R254) -/

/-- A committed snapshot that waits for its bead boundary: its block, the tick of the commit, and the staged words. -/
structure Snap where
  block : Block
  at_   : Nat
  words : List (Nat × W64)
  deriving DecidableEq, Repr

/-! ### The host side (chapter 13) -/

/-- A command taken from its window and not complete (R312, R317): its source, the sideband requester, the take count, whether it
could start as it was taken, whether it has started, and what a started one waits for (a step, a bead boundary, a request identifier;
1 for a copy that ends after its piece). -/
structure HeldCmd where
  src     : Src
  who     : Nat
  pkt     : Packet
  taken   : Nat
  free    : Bool
  started : Bool
  info    : Nat
  deriving DecidableEq, Repr

/-- Who waits for a host access to memory. -/
inductive HostWho where
  /-- A BAR4 read of a function, with its tag (R305). -/
  | barRead (fn tag : Nat)
  /-- A BAR4 write. -/
  | barWrite (data : W64)
  /-- The piece of a host copy that begins at an offset of its range (R323). -/
  | piece (src : Src) (pkt : Packet) (off : Nat)
  deriving DecidableEq, Repr

/-- A host access served as open-class traffic (R16, R305, R323): its bytes, its arrival, and what is still to be served. -/
structure HostAcc where
  who   : HostWho
  addr  : Nat
  len   : Nat
  at_   : Nat
  needs : List Need
  deriving DecidableEq, Repr

/-- What the module puts on its interfaces. -/
inductive OutMsg where
  /-- An MSI-X message: function and vector (R309). -/
  | vector (fn v : Nat)
  /-- A BAR4 read completion: 0 data, 1 poisoned, 2 Completer Abort (R305). -/
  | completion (fn tag status : Nat) (data : W64)
  /-- What a register read returned (R410). -/
  | regRead (path : Path) (data : W64)
  /-- An MCTP response or event: the endpoint it goes to, the MCTP type, its bytes (R333 to R337). -/
  | mctp (who type : Nat) (bytes : List Nat)
  /-- The event for the fabric manager that names a job tag, through the baseboard controller (R290). -/
  | jobEvent (tag : Nat)
  /-- An in-band interrupt (R333). -/
  | ibi
  /-- A DOE or SPDM response (R307). -/
  | spdm (port : SpdmPort) (bytes : List Nat)
  | doe (bytes : List Nat)
  /-- Bits on TDO (R338). -/
  | tdo (cells : List Bool)
  /-- The PEER_RESET word that departs on a link as a Quench takes it down (R352). -/
  | peerReset (l : Nat) (w : W64)
  deriving DecidableEq, Repr

/-- An SPDM responder's connection on one port (R307): 0 none, 1 version, 2 capabilities, 3 algorithms agreed; whether a
session is open and finished, and the messages its signatures cover. -/
structure SpdmSt where
  phase   : Nat
  session : Option Bool
  log     : List Nat
  deriving DecidableEq, Repr

/-! ### Sideband and test access (chapter 14) -/

/-- The sideband target beside its registers (R333, R337): requesters with a request outstanding, the PLDM event receiver
(mode and endpoint), the events that wait, the identifier of the next event, and the sensors' state. -/
structure SbdSt where
  busy     : List Nat
  rcvMode  : Nat
  rcvEid   : Nat
  events   : List (Nat × List Nat)
  nextEvt  : Nat
  enables  : Tbl Nat
  readings : Tbl Int
  deriving DecidableEq, Repr

def SbdSt.zero : SbdSt where
  busy := []
  rcvMode := 0
  rcvEid := 0
  events := []
  nextEvt := 1
  enables := []
  readings := []

/-- The test access port (R338): the instruction, its boundary cells, and the bypass bit. -/
structure JtagSt where
  instr : Nat
  cells : List Bool
  byp   : Bool
  pins  : Option (List Bool)
  deriving DecidableEq, Repr

/-! ### Twin mode (chapter 11) -/

/-- A twin item with the tick it began to wait and its bundle window (R270 to R272). -/
structure TwWait where
  item  : TwinItem
  at_   : Nat
  first : Nat
  last  : Nat
  deriving DecidableEq, Repr

/-- The twin unit (R269 to R272): both stores, items that wait for a packet, the next packet number, the numbers received,
link signatures by key, the next link window of each link as step and window, whether STOP was sent, and whether a pair with
unequal signatures has been met. -/
structure TwinSt where
  own   : List TwWait
  part  : List TwWait
  queue : List TwWait
  pnum  : Nat
  seen  : List Nat
  sigs  : Tbl W64
  next  : Tbl (Nat × Nat)
  stop  : Bool
  diff  : Bool
  deriving DecidableEq, Repr

def TwinSt.zero : TwinSt where
  own := []
  part := []
  queue := []
  pnum := 0
  seen := []
  sigs := []
  next := []
  stop := false
  diff := false

/-! ### The wait-cycle detector and recovery (chapter 12) -/

/-- The detector (R290, R291): the closed paths of the last sample and how many samples each has stood, the tick of that sample,
progress marks of the nodes, the suspects that wait, the one that replays, those cleared, the step each suspect was in,
and the SEQ of the HANG 0x001 record. -/
structure HangSt where
  cycles  : List (List (Nat × Nat) × Nat)
  at_     : Nat
  marks   : List (Nat × Nat × Nat)
  queue   : List CtxId
  cur     : Option CtxId
  cleared : List CtxId
  steps   : Tbl Nat
  seq     : Nat
  deriving DecidableEq, Repr

def HangSt.zero : HangSt where
  cycles := []
  at_ := 0
  marks := []
  queue := []
  cur := none
  cleared := []
  steps := []
  seq := 0

/-! ### Supply and idle states (chapter 15) -/

/-- A record of the Quench store (R353). -/
structure QRec where
  cause  : Nat
  count  : Nat
  tod    : Nat
  minMv  : Nat
  age    : Nat
  unread : Bool
  deriving DecidableEq, Repr

/-- The supply side beside its registers: where each class of R348 began (its tick and its log slot),
the lowest input voltage of the present sag, the tick from which the bank is full again,
whether the module is quenched, the tick from which the 1 ms power has been above the limit, the tick of the last fault of each rail
and of each rail's switching off, both plus one, and the Quench store, newest first. -/
structure PwrSt where
  sag      : Option (Nat × Nat)
  intr     : Option (Nat × Nat)
  surge    : Option (Nat × Nat)
  ripple   : Option (Nat × Nat)
  minMv    : Nat
  bankFull : Nat
  quenched : Bool
  overAt   : Option Nat
  railAt   : Tbl Nat
  railOff  : Tbl Nat
  store    : List QRec
  deriving DecidableEq, Repr

def PwrSt.zero : PwrSt where
  sag := none
  intr := none
  surge := none
  ripple := none
  minMv := 0
  bankFull := 0
  quenched := false
  overAt := none
  railAt := []
  railOff := []
  store := []

/-- A unit in an idle state (R360): when it entered, and the tick it is ready once it wakes. -/
structure IdleSt where
  since : Nat
  ready : Option Nat
  deriving DecidableEq, Repr

/-! ### Boot and security (chapter 16) -/

/-- Fuses (R25, R375, R382, R383): SVN, revoke bits, base code, TCOUNT, TCOUNT when FIELD was entered, the blown UDS, and
the repair fuses of the physical tiles. -/
structure FuseSt where
  svn      : Nat
  revoked  : BitVec 4
  base     : Nat
  tcount   : Nat
  fieldAt  : Nat
  udsBlown : Bool
  repair   : BitVec 272
  deriving DecidableEq, Repr

/-- Boot and security beside their registers: milliseconds of the boot or recovery so far, measurements of the running
and staged firmware and of the configuration, the alias key's seed while there is one, a self-signed DeviceID
certificate, the staged image's length, the tick a restart or a recovery follows, a life-cycle change in progress, and the tick
of the last work of the Assayer's crypto engines. -/
structure BootSt where
  ms      : Nat
  fwMeas  : Nat
  stMeas  : Nat
  cfgMeas : Nat
  alias_  : Option Nat
  selfDev : Bool
  stLen   : Nat
  restart : Option Nat
  lcAt    : Option Nat
  crypto  : Nat
  deriving DecidableEq, Repr

def BootSt.zero : BootSt where
  ms := 0
  fwMeas := 0
  stMeas := 0
  cfgMeas := 0
  alias_ := none
  selfDev := false
  stLen := 0
  restart := none
  lcAt := none
  crypto := 0

/-- The whole block. -/
structure State where
  /-- The queue of waiting commands, front first. -/
  pending : List Instr
  /-- The model's own counter of free values drawn (log 6). -/
  fresh : Nat
  /-- Global Count (R214). -/
  now : Nat
  /-- Tile SRAM and LPDDR by local byte offset (R82); an unlisted byte reads 0. -/
  mem : List Host.Cell
  /-- Error pattern of the 272-bit code word of each 32 data bytes (R84, R85). -/
  flaw : Tbl (BitVec 272)
  /-- The two poison bits of LPDDR data lines in the poison field of their check line (R86). -/
  poison : Tbl (BitVec 2)
  /-- BAR0 registers by offset; an unlisted one reads its reset value. -/
  regs : Tbl W64
  /-- Logical tiles (R24). -/
  tiles : Tbl Tile
  /-- Chip-wide Punty counters (R51): values with the ticks they were applied at, newest first. -/
  chip : Tbl (List (Nat × W32))
  /-- Increments in the sync network (R53). -/
  syncNet : List SyncItem
  /-- Words crossing the tile mesh (R238). -/
  flight : List Flight
  /-- Word index in the step of each mesh channel, by 512 x source endpoint + channel (R240). -/
  chanW : Tbl Nat
  /-- Words handed to delivery channels (R122). -/
  deliv : List Deliv
  /-- The eight contexts (R275). -/
  ctxs : Tbl Ctx
  /-- Gather engines (R94). -/
  engines : Tbl Engine
  /-- The refresh reservation in force (R90); empty when none. -/
  refreshP : List Byte
  /-- Beads released in the last 12 ticks (R119). -/
  rel : List Released
  /-- The assembly buffer (R121). -/
  abuf : Tbl ABufE
  /-- The Cane instances CN00 to CN20 (R345). -/
  canes : Tbl Cane
  /-- Records held by their units while their channel is full (R345). -/
  faultHeld : List HeldRec
  /-- Records the collector has read from the channels and not logged yet (R283). -/
  gathered : List (List W64)
  /-- SEQ of the next record (R280). -/
  recNext : W32
  /-- The tile map: physical tile of each logical tile (R25). -/
  tileMap : Tbl (Option Nat)
  /-- The repair record in the boot flash: physical tiles excluded at the next power-on (R25, R26). -/
  repairRec : Tbl Bool
  /-- The sixteen clock zones (R197). -/
  zones : Tbl Zone
  /-- Operands of transmit Folds already read (R121). -/
  foldB : List FoldB
  /-- The link layers of L00 to L23 (chapter 6). -/
  links : Tbl Link
  /-- LCLK edges since reset (R112, R195). -/
  lclk : Nat
  /-- Contexts closed by the device recovery in progress, whose slots depart as VOID (R137). -/
  recov : List (CtxId × Ctx)
  /-- Channels whose device reports above 95 C (R92). -/
  hot : Tbl Bool
  /-- The request queue of each context (R174). -/
  reqq : Tbl (List ReqDesc)
  /-- The outstanding table (R174, R186). -/
  outst : List Outst
  /-- The inbound store (R184). -/
  inb : List Inb
  /-- Packets the endpoint part has formed that wait for a link (R183). -/
  niOut : List NiOut
  /-- Returned data waiting for idle memory slots (R186). -/
  respW : List RespW
  /-- Host copies and BAR4 accesses that wait for idle cycles and periods (R305, R323). -/
  hostAcc : List HostAcc
  /-- Requests, responses and changes that wait for a Rank entry, oldest first (R179). -/
  rankQ : List RankWait
  /-- The next key of the outstanding table. -/
  niKey : Nat
  /-- Cached Rank entries, oldest first, by 65,536 x context + rank (R179). -/
  rankC : List (Nat × List W64)
  /-- Cached routing entries, oldest first, by 2^20 x version + identifier (R180). -/
  routeC : List (Nat × W64)
  /-- Routing versions that are retired (R187; log 12). -/
  retired : Tbl Bool
  /-- The last window of 1,024 ticks whose refill is done (R189). -/
  rateWin : Nat
  /-- Ranks that have had an echo in the present window (R189). -/
  echoed : List Nat
  /-- The time system beside its registers (chapter 9). -/
  tim : TimeSt
  /-- Shadow copies of the staged fields by register offset (R9, R11); an unlisted one holds its reset value. -/
  shadow : Tbl W64
  /-- The GCLK cycle, plus one, in which hardware last set a W1C flag, by 64 x register offset + bit (R10). -/
  flagAt : Tbl Nat
  /-- The GCLK cycle, plus one, of the last staged write to a register, and its shadow copy before that cycle (R11). -/
  shadowAt : Tbl (Nat × W64)
  /-- Snapshots that wait for their bead boundary (R11, R254). -/
  snaps : List Snap
  /-- One more than the slot of the last block access of each LPDDR channel (R88, R89). -/
  lpUsed : Tbl Nat
  /-- Periods of each controller group used by plans (R329). -/
  lpPlan : Tbl Nat
  /-- Periods of each controller group used by open-class accesses (R329). -/
  lpOpen : Tbl Nat
  /-- Entry of each MEM_CE_LOG ring the next corrected block goes to (R101). -/
  ceNext : Tbl Nat
  /-- Corrected reads of each row, by block number (R102). -/
  rowErr : Tbl Nat
  /-- Rows recorded for post-package repair, by block number (R102). -/
  ppr : Tbl Bool
  /-- Refresh windows each channel has had (R91). -/
  refWin : Tbl Nat
  /-- Blocks of each controller group the patrol scrub has visited in this pass (R102). -/
  scrubAt : Tbl Nat
  /-- Planned beads departed per link since power-on (R329). -/
  lnkPlan : Tbl Nat
  /-- Open and management beads departed per link since power-on (R329). -/
  lnkOpen : Tbl Nat
  /-- The window of 76,800 ticks whose congestion-map entry was cleared last (R190). -/
  congWin : Nat
  /-- The phase of the device recovery in progress; 0 is none (R294). -/
  recPhase : Nat
  /-- LINK 0x001 records still open: ring entry, link and fault tick (R285). -/
  recOpen : List (Nat × Nat × Nat)
  /-- Protocol version of the running firmware image, major (R168, R371). -/
  protoMajor : Nat
  /-- Protocol version of the running firmware image, minor. -/
  protoMinor : Nat
  /-- The host memory the module reads and writes (R315, R323): the model's own field; an unlisted byte reads 0 (log 20). -/
  hostMem : List Host.Cell
  /-- Units of the Marver windows, by 131,072 x window + 64-bit word (R311). -/
  winMem : Tbl W64
  /-- Whether a VF wrote bytes 28 to 31 of a unit, by 16,384 x window + unit (R302). -/
  winVf : Tbl Bool
  /-- Commands taken and not complete, in take order (R312, R317). -/
  cmds : List HeldCmd
  /-- What the module has put on its host, sideband and test interfaces, newest first. -/
  outs : List OutMsg
  /-- MSI-X tables, by 4,096 x function + 32-bit word (R303). -/
  msix : Tbl W32
  /-- HST_APERTURE of VF k (R303). -/
  vfApt : Tbl W64
  /-- Keys of the IDE streams, by 2 x stream + key set; stream 15 is the link's (R308). -/
  ideKeys : Tbl (Option Nat)
  /-- IDE streams in the insecure state after an integrity failure (R308). -/
  ideBad : Tbl Bool
  /-- The SPDM responder on the DOE mailbox (0) and on MCTP (1) (R307). -/
  spdmSt : Tbl SpdmSt
  /-- The sideband target beside its registers (chapter 14). -/
  sbd : SbdSt
  /-- The test access port (R338; log 22). -/
  jtag : JtagSt
  /-- The twin unit (R269 to R272). -/
  twin : TwinSt
  /-- The wait-cycle detector (R290, R291). -/
  hang : HangSt
  /-- The tick the device recovery in progress began (R294). -/
  recAt : Nat
  /-- The tick its present phase began (R294). -/
  recStep : Nat
  /-- The supply side beside its registers (chapter 15). -/
  pwr : PwrSt
  /-- Units in an idle state, as PWR_IDLE numbers them (R360). -/
  idle : Tbl (Option IdleSt)
  /-- The boot flash by offset (R370); an unlisted byte is erased and reads FFh (log 5). -/
  flash : List Host.Cell
  /-- Fuses (R375, R382; log 5). -/
  fuse : FuseSt
  /-- Boot and security beside their registers (chapter 16). -/
  boot : BootSt
  /-- Records of the log already copied to the spill ring (R284). -/
  spill : Nat
  /-- The training store: by channel, one more than the number of the first of the four free words its training gave (R103). -/
  trainStore : Tbl Nat
  /-- The training results in force in the LPDDR controllers, numbered alike (R103, R104). -/
  lpTrain : Tbl Nat
  deriving DecidableEq, Repr

/-- The module right after power-on reset: every register at its Reset column (12 R12), every store empty, the
power-on boot in phase 1 (16 R369). The values the spec does not state are those of logs 1 to 6, 12, 20 and 22. -/
def State.reset : State where
  pending := []
  fresh := 0
  now := 0
  mem := []
  flaw := []
  poison := []
  regs := []
  tiles := []
  chip := []
  syncNet := []
  flight := []
  chanW := []
  deliv := []
  ctxs := []
  engines := []
  refreshP := []
  rel := []
  abuf := []
  canes := []
  faultHeld := []
  gathered := []
  recNext := 0
  tileMap := []
  repairRec := []
  zones := []
  foldB := []
  links := []
  lclk := 0
  recov := []
  hot := []
  reqq := []
  outst := []
  inb := []
  niOut := []
  respW := []
  hostAcc := []
  rankQ := []
  niKey := 0
  rankC := []
  routeC := []
  retired := [(1, true)]
  rateWin := 0
  echoed := []
  tim := TimeSt.zero
  shadow := []
  flagAt := []
  shadowAt := []
  snaps := []
  lpUsed := []
  lpPlan := []
  lpOpen := []
  ceNext := []
  rowErr := []
  ppr := []
  refWin := []
  scrubAt := []
  lnkPlan := []
  lnkOpen := []
  congWin := 0
  recPhase := 0
  recOpen := []
  protoMajor := 0
  protoMinor := 0
  hostMem := []
  winMem := []
  winVf := []
  cmds := []
  outs := []
  msix := []
  vfApt := []
  ideKeys := []
  ideBad := []
  spdmSt := []
  sbd := SbdSt.zero
  jtag := { instr := 0, cells := [], byp := false, pins := none }
  twin := TwinSt.zero
  hang := HangSt.zero
  recAt := 0
  recStep := 0
  pwr := PwrSt.zero
  idle := []
  flash := []
  fuse := { svn := 0, revoked := 0, base := 2, tcount := 2, fieldAt := 2, udsBlown := false, repair := 0 }
  boot := BootSt.zero
  spill := 0
  trainStore := []
  lpTrain := []

end Machine
end Sys2Proof
end

