-- ==== Sys2Proof/Machine/BeadCode.lean ====
section
/-! DEFINITION. A bead on the wire: RS(348,328) over GF(2^8) with its encoder and what its decoder finds (06 R152), the CRC-32 (R153), the 352
bytes of a bead (05 R108), and the lanes that carry them: byte placement, scrambler, Gray mapping and precoder (06 R143, R144). -/
namespace Sys2Proof
namespace Machine

/-! ### GF(2^8) (R152) -/

/-- Multiplication by α = 0x02 with field polynomial x^8 + x^4 + x^3 + x^2 + 1. -/
def gfDouble (a : Nat) : Nat := if a < 128 then 2 * a else (2 * a) ^^^ 0x11D

def gfMulF : Nat → Nat → Nat → Nat
  | 0, _, _ => 0
  | f + 1, a, b => (if b % 2 = 1 then a else 0) ^^^ gfMulF f (gfDouble a) (b / 2)

/-- The product of two bytes. -/
def gfMul (a b : Nat) : Nat := gfMulF 8 a b

/-- α to the power n. -/
def gfAlpha : Nat → Nat
  | 0 => 1
  | n + 1 => gfDouble (gfAlpha n)

/-! ### Polynomials, coefficient of the lowest power first -/

def pAdd : List Nat → List Nat → List Nat
  | [], q => q
  | p, [] => p
  | a :: p, b :: q => (a ^^^ b) :: pAdd p q

def pScale (c : Nat) (p : List Nat) : List Nat := p.map (gfMul c)

def pMul (p : List Nat) : List Nat → List Nat
  | [] => []
  | b :: q => pAdd (pScale b p) (0 :: pMul p q)

/-! ### The encoder (R152) -/

/-- The generator: the product of x - α^i for i = 0 to 19. -/
def rsGen : List Nat := (List.range 20).foldl (fun g i => pMul g [gfAlpha i, 1]) [1]

/-- One message byte into the parity register, highest power first. -/
def rsShift (par : List Nat) (d : Nat) : List Nat :=
  let f := d ^^^ par.headD 0
  List.zipWith (fun p g => p ^^^ gfMul f g) (par.drop 1 ++ [0]) (rsGen.reverse.drop 1)

/-- The 20 parity bytes of a message, byte 0 the coefficient of the highest power. -/
def rsParity (bs : List Nat) : List Nat := bs.foldl rsShift (List.replicate 20 0)

/-! ### The bead (R108, R153) -/

/-- Bytes 0 to 327: header and payload. -/
def beadBody (h : W64) (pay : BitVec 2560) : List Nat := bytesLE 8 h.toNat ++ bytesLE 320 pay.toNat

/-- The 352 bytes of a bead, byte j in bits 8j+7 to 8j. -/
def wireOf (h : W64) (pay : BitVec 2560) : BitVec 2816 :=
  let m := beadBody h pay
  BitVec.ofNat 2816 (leBytes (m ++ rsParity m ++ bytesLE 4 (crc32 m)))

/-- The erroneous bytes among the 348 that RS(348,328) covers. -/
def errBytes (e : BitVec 2816) : Nat := ((bytesLE 348 e.toNat).filter (· ≠ 0)).length

/-- What the receiver makes of a bead: it and how many bytes were corrected, or what is wrong with it. -/
inductive RxOut where
  | ok (h : W64) (pay : BitVec 2560) (fixed : Nat)
  | bad (e : BeadError)
  deriving DecidableEq, Repr

/-- RS decoding corrects up to 10 erroneous bytes in any positions (R152; log 120); then the CRC of the corrected bytes against bytes
348 to 351 as they arrived, and the class (R110, R153). -/
def rxDecode (b : WireBead) : RxOut :=
  let n := errBytes b.err
  let crc := crc32 (beadBody b.h b.pay)
  if 10 < n then .bad .uncorrectable
  else if crc ≠ crc ^^^ (b.err.toNat >>> 2784) then .bad (.crc (Fin.ofNat 11 n))
  else if 2 ^ 63 ≤ b.h.toNat then .bad (.reservedClass (Fin.ofNat 11 n))
  else .ok b.h b.pay n

/-! ### Lanes (R143, R144) -/

/-- One bit of the PRBS31 scrambler, x^31 + x^28 + 1. -/
def scrBit (r : BitVec 31) : Bool := r.getLsbD 30 != r.getLsbD 27
def scrNext (r : BitVec 31) : BitVec 31 := (r <<< 1) ||| (if scrBit r then 1 else 0)

/-- The Gray mapping of two bits, the first sent and the second, to a PAM4 level (log 121). -/
def gray (a b : Bool) : Nat := if a then (if b then 2 else 3) else (if b then 1 else 0)

/-- A level through the precoder 1/(1+D), if it is on (R143). -/
def precode (on : Bool) (last level : Nat) : Nat := if on then (level + 4 - last) % 4 else level

/-- Two bits of a lane become its next level. -/
def laneSym (x : LaneTx) (a b : Bool) : Nat × LaneTx :=
  let r := scrNext x.scr
  let y := precode x.pre x.last (gray (a != scrBit x.scr) (b != scrBit r))
  (y, { x with scr := scrNext r, last := y })

/-- The levels of n bit pairs of a number, lowest first. -/
def laneSyms : Nat → LaneTx → Nat → List Nat × LaneTx
  | 0, x, _ => ([], x)
  | n + 1, x, v =>
    let (y, x1) := laneSym x (v.testBit 0) (v.testBit 1)
    let (ys, x2) := laneSyms n x1 (v / 4)
    (y :: ys, x2)

/-- The bytes that active lane i of n carries: every n-th from byte i, which at four lanes is byte j on lane j mod 4
(R143; log 121). -/
def laneBytes (b : BitVec 2816) (n i : Nat) : List Nat := (List.range (352 / n)).map fun k => (b.toNat >>> (8 * (n * k + i))) % 256

/-- The physical lane of a logical transmit lane under a lane map, and whether its polarity is inverted (R144). -/
def physLane (m : BitVec 16) (i : Nat) : Nat := m.toNat >>> (4 * i) % 4
def laneInv (m : BitVec 16) (i : Nat) : Bool := m.getLsbD (4 * i + 2)

/-- The active logical lanes of a width: the lowest-numbered that passed training (R144). -/
def activeLanes (m : BitVec 16) (ok : BitVec 4) (width : Nat) : List Nat :=
  ((List.range 4).filter fun i => ok.getLsbD (physLane m i)).take (4 / 2 ^ width)

/-- A bead put on the lanes: the levels each physical lane carries in this bead period, and the lanes after it. -/
def laneSend (m : BitVec 16) (act : List Nat) (lanes : List LaneTx) (b : BitVec 2816) : List (Nat × List Nat) × List LaneTx :=
  let n := act.length
  let out := act.zipIdx.map fun e =>
    let r := laneSyms (352 / n * 4) (lanes.getD e.1 LaneTx.zero) (leBytes (laneBytes b n e.2))
    (e.1, if laneInv m e.1 then r.1.map (3 - ·) else r.1, r.2)
  (out.map fun e => (physLane m e.1, e.2.1), out.foldl (fun ls e => ls.set e.1 e.2.2) lanes)

/-- The lanes at the start of a training: reseeded, and the precoders as training sets them later (R143, R146). -/
def laneSeeds (v : BitVec 512) : List LaneTx :=
  (List.range 4).map fun i => { scr := BitVec.ofNat 31 (v.toNat >>> (31 * i)), pre := false, last := 0 }

end Machine
end Sys2Proof
end

