-- ==== Sys2Proof/Machine/RegMap.lean ====
section
/-! DEFINITION. The register map (R406, R413): the BAR0 offset of every register, its fields with their access codes (R9),
reset values (R12; the fused, strapped and stored ones are those of log 5) and power domain. -/
namespace Sys2Proof
namespace Machine

/-- A register field: its highest and lowest bit. -/
structure Fld where
  hi : Nat
  lo : Nat
  deriving DecidableEq, Repr

/-- Access codes (R9). -/
inductive Acc where
  | rw | ro | w1c | wo | rws | stg
  deriving DecidableEq, Repr

/-- Power domains as far as R12 and R412 tell registers apart (R406, R194). -/
inductive Dom where
  | pd00 | pd02 | pdLink | pd08 | pd09 | pd30 | pd31 | zone
  deriving DecidableEq, Repr

/-- One field of the map. -/
structure FieldRow where
  fld   : Fld
  acc   : Acc
  reset : Nat
  deriving DecidableEq, Repr

/-- One register of the map: instances at base + s1*i + s2*j. -/
structure RegRow where
  base : Nat
  n1 : Nat
  s1 : Nat
  n2 : Nat
  s2 : Nat
  dom : Dom
  fields : List FieldRow
  deriving DecidableEq, Repr

/-- Base of the window of a physical tile (R407). -/
def tilBase (p : Nat) : Nat := if p < 256 then 0xc00000 + 0x1000 * p else 0x1000000 + 0x1000 * (p - 256)

/-- TIL_MAP. -/
def rTIL_MAP (p : Nat) : Nat := tilBase p + 0x0
def fTIL_MAP_ZONE : Fld := ⟨23, 16⟩
def fTIL_MAP_MAPPED : Fld := ⟨15, 15⟩
def fTIL_MAP_SPARE : Fld := ⟨14, 14⟩
def fTIL_MAP_FUSED_BAD : Fld := ⟨13, 13⟩
def fTIL_MAP_TEST_FAIL : Fld := ⟨12, 12⟩
def fTIL_MAP_PEND_FAIL : Fld := ⟨11, 11⟩
def fTIL_MAP_LOGICAL : Fld := ⟨7, 0⟩
/-- TIL_STATUS. -/
def rTIL_STATUS (p : Nat) : Nat := tilBase p + 0x8
def fTIL_STATUS_OWNED : Fld := ⟨43, 43⟩
def fTIL_STATUS_CTX : Fld := ⟨42, 40⟩
def fTIL_STATUS_STATE : Fld := ⟨39, 36⟩
def fTIL_STATUS_ISAT : Fld := ⟨23, 23⟩
def fTIL_STATUS_BIDX : Fld := ⟨10, 0⟩
/-- TIL_POS. -/
def rTIL_POS (p : Nat) : Nat := tilBase p + 0x10
def fTIL_POS_OFFSET : Fld := ⟨31, 0⟩
/-- TIL_ISSUE_COUNT. -/
def rTIL_ISSUE_COUNT (p : Nat) : Nat := tilBase p + 0x18
def fTIL_ISSUE_COUNT_COUNT : Fld := ⟨63, 0⟩
/-- TIL_STALL_COUNT. -/
def rTIL_STALL_COUNT (p : Nat) : Nat := tilBase p + 0x20
def fTIL_STALL_COUNT_COUNT : Fld := ⟨63, 0⟩
/-- TIL_SRAM_CE. -/
def rTIL_SRAM_CE (p : Nat) : Nat := tilBase p + 0x28
def fTIL_SRAM_CE_UE_OPEN : Fld := ⟨63, 48⟩
def fTIL_SRAM_CE_COUNT : Fld := ⟨31, 0⟩
/-- TIL_PUNTY. -/
def rTIL_PUNTY (p : Nat) (j : Nat) : Nat := tilBase p + 0x200 + 8 * j
def fTIL_PUNTY_VALUE : Fld := ⟨31, 0⟩
/-- MEM_LP_STATUS. -/
def rMEM_LP_STATUS : Nat := 0xa00000
def fMEM_LP_STATUS_GROUP_UP : Fld := ⟨35, 32⟩
def fMEM_LP_STATUS_CH_FAIL : Fld := ⟨31, 0⟩
/-- MEM_LP_TIMING. -/
def rMEM_LP_TIMING : Nat := 0xa00008
def fMEM_LP_TIMING_MAX_GAP : Fld := ⟨31, 16⟩
def fMEM_LP_TIMING_TRFC : Fld := ⟨15, 8⟩
def fMEM_LP_TIMING_REF_PERIODS : Fld := ⟨7, 0⟩
/-- MEM_SCRUB_CTL. -/
def rMEM_SCRUB_CTL : Nat := 0xa00040
def fMEM_SCRUB_CTL_PASS_TIME : Fld := ⟨31, 1⟩
def fMEM_SCRUB_CTL_ENABLE : Fld := ⟨0, 0⟩
/-- MEM_LP_ERR. -/
def rMEM_LP_ERR (i : Nat) : Nat := 0xa00100 + 0x8 * i
def fMEM_LP_ERR_CE : Fld := ⟨63, 32⟩
def fMEM_LP_ERR_UE_PLAN : Fld := ⟨31, 24⟩
def fMEM_LP_ERR_UE_OPEN : Fld := ⟨23, 16⟩
def fMEM_LP_ERR_UE_SCRUB : Fld := ⟨15, 8⟩
def fMEM_LP_ERR_CE_LOG_OVW : Fld := ⟨7, 0⟩
/-- MEM_CE_LOG. -/
def rMEM_CE_LOG (i : Nat) (j : Nat) : Nat := 0xa00200 + 0x80 * i + 0x8 * j
def fMEM_CE_LOG_VALID : Fld := ⟨63, 63⟩
def fMEM_CE_LOG_LINE : Fld := ⟨60, 56⟩
def fMEM_CE_LOG_SYMBOL : Fld := ⟨55, 48⟩
def fMEM_CE_LOG_BLOCK : Fld := ⟨28, 0⟩
/-- MEM_ECC_H. -/
def rMEM_ECC_H (i : Nat) : Nat := 0xa00400 + 0x8 * i
def fMEM_ECC_H_HJ : Fld := ⟨63, 0⟩
/-- MEM_CTX_RGN. -/
def rMEM_CTX_RGN (i : Nat) (j : Nat) : Nat := 0xa01000 + 0x100 * i + 0x10 * j
def fMEM_CTX_RGN_VALID : Fld := ⟨63, 63⟩
def fMEM_CTX_RGN_UNIT : Fld := ⟨19, 0⟩
/-- GTH_STATUS. -/
def rGTH_STATUS (i : Nat) : Nat := 0xb00000 + 0x100 * i
def fGTH_STATUS_OWNED : Fld := ⟨47, 47⟩
def fGTH_STATUS_CTX : Fld := ⟨46, 44⟩
def fGTH_STATUS_STATE : Fld := ⟨43, 40⟩
def fGTH_STATUS_STAGED : Fld := ⟨39, 32⟩
def fGTH_STATUS_DESC : Fld := ⟨12, 0⟩
/-- GTH_BLOCKS. -/
def rGTH_BLOCKS (i : Nat) : Nat := 0xb00008 + 0x100 * i
def fGTH_BLOCKS_COUNT : Fld := ⟨63, 0⟩
/-- FWD_COMMIT. -/
def rFWD_COMMIT : Nat := 0x800000
def fFWD_COMMIT_COMMIT : Fld := ⟨0, 0⟩
/-- FWD_PORT_MAP0. -/
def rFWD_PORT_MAP0 : Nat := 0x800008
def fFWD_PORT_MAP0_PORT : Fld := ⟨63, 0⟩
/-- FWD_PORT_MAP1. -/
def rFWD_PORT_MAP1 : Nat := 0x800010
def fFWD_PORT_MAP1_PORT : Fld := ⟨31, 0⟩
/-- FWD_FLUX. -/
def rFWD_FLUX : Nat := 0x800018
def fFWD_FLUX_RATIO : Fld := ⟨47, 0⟩
/-- FWD_EXP. -/
def rFWD_EXP (i : Nat) : Nat := 0x800100 + 0x8 * i
def fFWD_EXP_XRACK : Fld := ⟨32, 32⟩
def fFWD_EXP_EXP : Fld := ⟨15, 0⟩
/-- FWD_OWN. -/
def rFWD_OWN (i : Nat) (j : Nat) : Nat := 0x801000 + 0x100 * i + 0x8 * j
def fFWD_OWN_MASK : Fld := ⟨63, 0⟩
/-- FWD_LNK_RX0. -/
def rFWD_LNK_RX0 (i : Nat) : Nat := 0x802000 + 0x40 * i
def fFWD_LNK_RX0_MISSING : Fld := ⟨63, 32⟩
def fFWD_LNK_RX0_UNPLANNED : Fld := ⟨31, 0⟩
/-- FWD_LNK_RX1. -/
def rFWD_LNK_RX1 (i : Nat) : Nat := 0x802008 + 0x40 * i
def fFWD_LNK_RX1_LATE : Fld := ⟨63, 32⟩
def fFWD_LNK_RX1_STALE : Fld := ⟨31, 0⟩
/-- FWD_LNK_RX2. -/
def rFWD_LNK_RX2 (i : Nat) : Nat := 0x802010 + 0x40 * i
def fFWD_LNK_RX2_UNOWNED : Fld := ⟨63, 32⟩
def fFWD_LNK_RX2_RECOV_DROP : Fld := ⟨31, 0⟩
/-- FWD_LNK_TX. -/
def rFWD_LNK_TX (i : Nat) : Nat := 0x802018 + 0x40 * i
def fFWD_LNK_TX_VOID_OUT : Fld := ⟨63, 32⟩
def fFWD_LNK_TX_NOTREADY : Fld := ⟨31, 0⟩
/-- FWD_LNK_FLUX. -/
def rFWD_LNK_FLUX (i : Nat) : Nat := 0x802020 + 0x40 * i
def fFWD_LNK_FLUX_REPLAYS : Fld := ⟨63, 32⟩
def fFWD_LNK_FLUX_WIN_MAX : Fld := ⟨31, 24⟩
def fFWD_LNK_FLUX_WIN_NOW : Fld := ⟨23, 16⟩
/-- FWD_LNK_LEHR. -/
def rFWD_LNK_LEHR (i : Nat) : Nat := 0x802028 + 0x40 * i
def fFWD_LNK_LEHR_HIGH : Fld := ⟨41, 32⟩
def fFWD_LNK_LEHR_NOW : Fld := ⟨9, 0⟩
/-- LNK_CTL. -/
def rLNK_CTL (i : Nat) : Nat := 0x700000 + 0x4000 * i
def fLNK_CTL_EQUALISE : Fld := ⟨12, 12⟩
def fLNK_CTL_FORCE : Fld := ⟨11, 11⟩
def fLNK_CTL_WIDTH : Fld := ⟨10, 9⟩
def fLNK_CTL_REQUEST : Fld := ⟨8, 8⟩
def fLNK_CTL_AUTO_RETRY : Fld := ⟨1, 1⟩
def fLNK_CTL_ENABLE : Fld := ⟨0, 0⟩
/-- LNK_STATUS. -/
def rLNK_STATUS (i : Nat) : Nat := 0x700008 + 0x4000 * i
def fLNK_STATUS_LANE_OK : Fld := ⟨35, 32⟩
def fLNK_STATUS_DOWN_CAUSE : Fld := ⟨31, 28⟩
def fLNK_STATUS_PEND_REQ : Fld := ⟨23, 16⟩
def fLNK_STATUS_WIDTH : Fld := ⟨9, 8⟩
def fLNK_STATUS_MASTER : Fld := ⟨7, 7⟩
def fLNK_STATUS_INCOMPAT : Fld := ⟨6, 6⟩
def fLNK_STATUS_FENCED : Fld := ⟨5, 5⟩
def fLNK_STATUS_LOCK : Fld := ⟨4, 4⟩
def fLNK_STATUS_STATE : Fld := ⟨3, 0⟩
/-- LNK_COMMIT. -/
def rLNK_COMMIT (i : Nat) : Nat := 0x700010 + 0x4000 * i
def fLNK_COMMIT_COMMIT : Fld := ⟨0, 0⟩
/-- LNK_LANE_MAP. -/
def rLNK_LANE_MAP (i : Nat) : Nat := 0x700018 + 0x4000 * i
def fLNK_LANE_MAP_MAP : Fld := ⟨15, 0⟩
/-- LNK_HOP. -/
def rLNK_HOP (i : Nat) : Nat := 0x700020 + 0x4000 * i
def fLNK_HOP_RTT : Fld := ⟨47, 32⟩
def fLNK_HOP_HOP : Fld := ⟨15, 0⟩
/-- LNK_FENCE. -/
def rLNK_FENCE (i : Nat) : Nat := 0x700028 + 0x4000 * i
def fLNK_FENCE_ENABLE : Fld := ⟨16, 16⟩
def fLNK_FENCE_TAG : Fld := ⟨11, 0⟩
/-- LNK_NBR0. -/
def rLNK_NBR0 (i : Nat) : Nat := 0x700040 + 0x4000 * i
def fLNK_NBR0_VALID : Fld := ⟨63, 63⟩
def fLNK_NBR0_GID : Fld := ⟨62, 43⟩
def fLNK_NBR0_LINK : Fld := ⟨42, 38⟩
def fLNK_NBR0_POS : Fld := ⟨37, 32⟩
def fLNK_NBR0_RACK : Fld := ⟨31, 16⟩
def fLNK_NBR0_VER_MAJOR : Fld := ⟨15, 8⟩
def fLNK_NBR0_VER_MINOR : Fld := ⟨7, 0⟩
/-- LNK_NBR1. -/
def rLNK_NBR1 (i : Nat) : Nat := 0x700048 + 0x4000 * i
def fLNK_NBR1_SERIAL_HASH : Fld := ⟨63, 0⟩
/-- LNK_PEER. -/
def rLNK_PEER (i : Nat) : Nat := 0x700050 + 0x4000 * i
def fLNK_PEER_KIND : Fld := ⟨63, 60⟩
def fLNK_PEER_COUNT : Fld := ⟨59, 0⟩
/-- LNK_FEC. -/
def rLNK_FEC (i : Nat) : Nat := 0x700100 + 0x4000 * i
def fLNK_FEC_CORRECTED : Fld := ⟨63, 32⟩
def fLNK_FEC_UNCORR : Fld := ⟨31, 0⟩
/-- LNK_FEC2. -/
def rLNK_FEC2 (i : Nat) : Nat := 0x700108 + 0x4000 * i
def fLNK_FEC2_CRC_ONLY : Fld := ⟨63, 32⟩
def fLNK_FEC2_LOCK_LOSS : Fld := ⟨31, 0⟩
/-- LNK_RPL0. -/
def rLNK_RPL0 (i : Nat) : Nat := 0x700110 + 0x4000 * i
def fLNK_RPL0_NAK_SENT : Fld := ⟨63, 32⟩
def fLNK_RPL0_NAK_RECV : Fld := ⟨31, 0⟩
/-- LNK_RPL1. -/
def rLNK_RPL1 (i : Nat) : Nat := 0x700118 + 0x4000 * i
def fLNK_RPL1_IMPLICIT : Fld := ⟨63, 32⟩
def fLNK_RPL1_DUP : Fld := ⟨31, 0⟩
/-- LNK_RPL2. -/
def rLNK_RPL2 (i : Nat) : Nat := 0x700120 + 0x4000 * i
def fLNK_RPL2_SKIP_SENT : Fld := ⟨63, 32⟩
def fLNK_RPL2_SKIP_RECV : Fld := ⟨31, 0⟩
/-- LNK_CREDIT. -/
def rLNK_CREDIT (i : Nat) : Nat := 0x700128 + 0x4000 * i
def fLNK_CREDIT_AVAIL : Fld := ⟨40, 32⟩
def fLNK_CREDIT_BUF_NOW : Fld := ⟨24, 16⟩
def fLNK_CREDIT_BUF_HIGH : Fld := ⟨8, 0⟩
/-- LNK_DROP. -/
def rLNK_DROP (i : Nat) : Nat := 0x700130 + 0x4000 * i
def fLNK_DROP_DOWN_BEADS : Fld := ⟨63, 32⟩
def fLNK_DROP_DOWN_PKTS : Fld := ⟨31, 0⟩
/-- LNK_FENCE_DROP. -/
def rLNK_FENCE_DROP (i : Nat) : Nat := 0x700138 + 0x4000 * i
def fLNK_FENCE_DROP_FOREIGN : Fld := ⟨63, 32⟩
def fLNK_FENCE_DROP_FENCE_OPEN : Fld := ⟨31, 0⟩
/-- LNK_EVENTS. -/
def rLNK_EVENTS (i : Nat) : Nat := 0x700140 + 0x4000 * i
def fLNK_EVENTS_DOWNS : Fld := ⟨63, 48⟩
def fLNK_EVENTS_RETRAINS : Fld := ⟨47, 32⟩
def fLNK_EVENTS_RSV_WORD : Fld := ⟨31, 0⟩
/-- LNK_FEC_HIST. -/
def rLNK_FEC_HIST (i : Nat) (j : Nat) : Nat := 0x700180 + 0x4000 * i + 0x8 * j
def fLNK_FEC_HIST_COUNT : Fld := ⟨31, 0⟩
/-- OPN_COMMIT. -/
def rOPN_COMMIT : Nat := 0x900000
def fOPN_COMMIT_COMMIT : Fld := ⟨0, 0⟩
/-- OPN_RT_CTL. -/
def rOPN_RT_CTL : Nat := 0x900008
def fOPN_RT_CTL_OLD_LIVE : Fld := ⟨1, 1⟩
def fOPN_RT_CTL_ACTIVE : Fld := ⟨0, 0⟩
/-- OPN_RT_BASE. -/
def rOPN_RT_BASE : Nat := 0x900010
def fOPN_RT_BASE_BASE : Fld := ⟨40, 0⟩
/-- OPN_FLIP. -/
def rOPN_FLIP : Nat := 0x900018
def fOPN_FLIP_COUNT : Fld := ⟨63, 0⟩
/-- OPN_BAL. -/
def rOPN_BAL : Nat := 0x900020
def fOPN_BAL_ENABLE : Fld := ⟨0, 0⟩
/-- OPN_CC_CTL. -/
def rOPN_CC_CTL : Nat := 0x900028
def fOPN_CC_CTL_MARK_THRESH : Fld := ⟨63, 48⟩
def fOPN_CC_CTL_RATE_MIN : Fld := ⟨42, 32⟩
def fOPN_CC_CTL_DEC_SHIFT : Fld := ⟨31, 28⟩
def fOPN_CC_CTL_INC_STEP : Fld := ⟨27, 16⟩
def fOPN_CC_CTL_INC_PERIOD : Fld := ⟨15, 0⟩
/-- OPN_EPOCH_CNT. -/
def rOPN_EPOCH_CNT (i : Nat) : Nat := 0x900100 + 0x8 * i
def fOPN_EPOCH_CNT_EP1 : Fld := ⟨63, 32⟩
def fOPN_EPOCH_CNT_EP0 : Fld := ⟨31, 0⟩
/-- OPN_CTX_ID. -/
def rOPN_CTX_ID (i : Nat) : Nat := 0x900200 + 0x20 * i
def fOPN_CTX_ID_VALID : Fld := ⟨63, 63⟩
def fOPN_CTX_ID_DM : Fld := ⟨62, 62⟩
def fOPN_CTX_ID_JOB : Fld := ⟨59, 48⟩
def fOPN_CTX_ID_RANK : Fld := ⟨15, 0⟩
/-- OPN_CTX_CNT. -/
def rOPN_CTX_CNT (i : Nat) : Nat := 0x900208 + 0x20 * i
def fOPN_CTX_CNT_ISSUED : Fld := ⟨63, 32⟩
def fOPN_CTX_CNT_DONE : Fld := ⟨31, 0⟩
/-- OPN_CTX_Q. -/
def rOPN_CTX_Q (i : Nat) : Nat := 0x900210 + 0x20 * i
def fOPN_CTX_Q_QNOW : Fld := ⟨40, 32⟩
def fOPN_CTX_Q_OUTST : Fld := ⟨13, 0⟩
/-- OPN_CACHE. -/
def rOPN_CACHE : Nat := 0x900328
def fOPN_CACHE_RANK_MISS : Fld := ⟨63, 32⟩
def fOPN_CACHE_RT_MISS : Fld := ⟨31, 0⟩
/-- OPN_CMAP. -/
def rOPN_CMAP (i : Nat) (j : Nat) : Nat := 0x904000 + 0x40 * i + 0x8 * j
def fOPN_CMAP_MARKS : Fld := ⟨63, 48⟩
def fOPN_CMAP_PEAK : Fld := ⟨47, 32⟩
def fOPN_CMAP_BEADS : Fld := ⟨31, 0⟩
/-- OPN_DROP0. -/
def rOPN_DROP0 : Nat := 0x900300
def fOPN_DROP0_EXPIRED : Fld := ⟨63, 32⟩
def fOPN_DROP0_NO_ROUTE : Fld := ⟨31, 0⟩
/-- OPN_DROP1. -/
def rOPN_DROP1 : Nat := 0x900308
def fOPN_DROP1_OLD_EPOCH : Fld := ⟨63, 32⟩
def fOPN_DROP1_DROP_FULL : Fld := ⟨31, 0⟩
/-- OPN_DROP2. -/
def rOPN_DROP2 : Nat := 0x900310
def fOPN_DROP2_SEQ_WINDOW : Fld := ⟨63, 32⟩
def fOPN_DROP2_STALE_GEN : Fld := ⟨31, 0⟩
/-- OPN_DROP3. -/
def rOPN_DROP3 : Nat := 0x900318
def fOPN_DROP3_ORPHAN : Fld := ⟨63, 32⟩
def fOPN_DROP3_FRAMING : Fld := ⟨31, 0⟩
/-- OPN_DROP4. -/
def rOPN_DROP4 : Nat := 0x900320
def fOPN_DROP4_RETRIES : Fld := ⟨63, 32⟩
/-- CLK_COMMIT. -/
def rCLK_COMMIT : Nat := 0x400000
def fCLK_COMMIT_COMMIT : Fld := ⟨0, 0⟩
/-- CLK_ROOT. -/
def rCLK_ROOT : Nat := 0x400008
def fCLK_ROOT_REF_OK : Fld := ⟨2, 2⟩
def fCLK_ROOT_LOCK : Fld := ⟨1, 1⟩
def fCLK_ROOT_LOSS : Fld := ⟨0, 0⟩
/-- CLK_TEMPER. -/
def rCLK_TEMPER : Nat := 0x400010
def fCLK_TEMPER_T_HI : Fld := ⟨63, 56⟩
def fCLK_TEMPER_T_LO : Fld := ⟨55, 48⟩
def fCLK_TEMPER_DROOP_HI : Fld := ⟨47, 32⟩
def fCLK_TEMPER_CAP_STEP : Fld := ⟨2, 0⟩
/-- CLK_ZONE_CTL. -/
def rCLK_ZONE_CTL (i : Nat) : Nat := 0x401000 + 0x40 * i
def fCLK_ZONE_CTL_SLK : Fld := ⟨49, 40⟩
def fCLK_ZONE_CTL_VFLOOR : Fld := ⟨39, 32⟩
def fCLK_ZONE_CTL_FLOOR : Fld := ⟨18, 16⟩
def fCLK_ZONE_CTL_CAP : Fld := ⟨10, 8⟩
def fCLK_ZONE_CTL_STEP : Fld := ⟨6, 4⟩
def fCLK_ZONE_CTL_STOPPED : Fld := ⟨3, 3⟩
def fCLK_ZONE_CTL_CHECK : Fld := ⟨2, 2⟩
/-- CLK_ZONE_CC. -/
def rCLK_ZONE_CC (i : Nat) : Nat := 0x401008 + 0x40 * i
def fCLK_ZONE_CC_COUNT : Fld := ⟨63, 0⟩
/-- CLK_ZONE_STRETCH. -/
def rCLK_ZONE_STRETCH (i : Nat) : Nat := 0x401010 + 0x40 * i
def fCLK_ZONE_STRETCH_WIN_MAX : Fld := ⟨47, 32⟩
def fCLK_ZONE_STRETCH_COUNT : Fld := ⟨31, 0⟩
/-- CLK_ZONE_WIN. -/
def rCLK_ZONE_WIN (i : Nat) : Nat := 0x401018 + 0x40 * i
def fCLK_ZONE_WIN_LOW : Fld := ⟨29, 16⟩
def fCLK_ZONE_WIN_LAST : Fld := ⟨13, 0⟩
/-- CLK_XING. -/
def rCLK_XING (i : Nat) : Nat := 0x401020 + 0x40 * i
def fCLK_XING_STEP_OK : Fld := ⟨20, 16⟩
def fCLK_XING_RAW_IN : Fld := ⟨15, 8⟩
def fCLK_XING_RAW_OUT : Fld := ⟨7, 0⟩
/-- CLK_ZONE_VOLT. -/
def rCLK_ZONE_VOLT (i : Nat) : Nat := 0x401028 + 0x40 * i
def fCLK_ZONE_VOLT_V4 : Fld := ⟨39, 32⟩
def fCLK_ZONE_VOLT_V3 : Fld := ⟨31, 24⟩
def fCLK_ZONE_VOLT_V2 : Fld := ⟨23, 16⟩
def fCLK_ZONE_VOLT_V1 : Fld := ⟨15, 8⟩
def fCLK_ZONE_VOLT_V0 : Fld := ⟨7, 0⟩
/-- TIM_COMMIT. -/
def rTIM_COMMIT : Nat := 0x300000
def fTIM_COMMIT_COMMIT : Fld := ⟨0, 0⟩
/-- TIM_COUNT. -/
def rTIM_COUNT : Nat := 0x300008
def fTIM_COUNT_COUNT : Fld := ⟨63, 0⟩
/-- TIM_RATE. -/
def rTIM_RATE : Nat := 0x300010
def fTIM_RATE_RATE : Fld := ⟨32, 0⟩
/-- TIM_MASTER_RATE. -/
def rTIM_MASTER_RATE : Nat := 0x300018
def fTIM_MASTER_RATE_RATE : Fld := ⟨32, 0⟩
/-- TIM_ROLE. -/
def rTIM_ROLE : Nat := 0x300020
def fTIM_ROLE_STANDBY : Fld := ⟨15, 15⟩
def fTIM_ROLE_UPSTREAM : Fld := ⟨12, 8⟩
def fTIM_ROLE_ROLE : Fld := ⟨2, 0⟩
/-- TIM_STATUS. -/
def rTIM_STATUS : Nat := 0x300028
def fTIM_STATUS_MASTER_EPOCH : Fld := ⟨63, 32⟩
def fTIM_STATUS_MASTER_GID : Fld := ⟨31, 12⟩
def fTIM_STATUS_DEPTH : Fld := ⟨7, 3⟩
def fTIM_STATUS_STATE : Fld := ⟨2, 0⟩
/-- TIM_OFFSET. -/
def rTIM_OFFSET : Nat := 0x300030
def fTIM_OFFSET_DELAY : Fld := ⟨63, 32⟩
def fTIM_OFFSET_OFFSET : Fld := ⟨31, 0⟩
/-- TIM_LIMIT. -/
def rTIM_LIMIT : Nat := 0x300038
def fTIM_LIMIT_OFF_LIMIT : Fld := ⟨15, 0⟩
/-- TIM_TOD_SEC. -/
def rTIM_TOD_SEC : Nat := 0x300040
def fTIM_TOD_SEC_SEC : Fld := ⟨63, 0⟩
/-- TIM_TOD_NS. -/
def rTIM_TOD_NS : Nat := 0x300048
def fTIM_TOD_NS_NS : Fld := ⟨63, 32⟩
def fTIM_TOD_NS_FRAC : Fld := ⟨31, 0⟩
/-- TIM_TOD_INC. -/
def rTIM_TOD_INC : Nat := 0x300050
def fTIM_TOD_INC_NS : Fld := ⟨63, 32⟩
def fTIM_TOD_INC_FRAC : Fld := ⟨31, 0⟩
/-- TIM_TOD_STEP. -/
def rTIM_TOD_STEP : Nat := 0x300058
def fTIM_TOD_STEP_STEP : Fld := ⟨63, 0⟩
/-- TIM_SNAP. -/
def rTIM_SNAP : Nat := 0x300060
def fTIM_SNAP_SNAP : Fld := ⟨0, 0⟩
/-- TIM_SNAP_COUNT. -/
def rTIM_SNAP_COUNT : Nat := 0x300068
def fTIM_SNAP_COUNT_COUNT : Fld := ⟨63, 0⟩
/-- TIM_SNAP_SEC. -/
def rTIM_SNAP_SEC : Nat := 0x300070
def fTIM_SNAP_SEC_SEC : Fld := ⟨63, 0⟩
/-- TIM_SNAP_NS. -/
def rTIM_SNAP_NS : Nat := 0x300078
def fTIM_SNAP_NS_NS : Fld := ⟨63, 32⟩
def fTIM_SNAP_NS_FRAC : Fld := ⟨31, 0⟩
/-- TIM_EPOCH_CAP. -/
def rTIM_EPOCH_CAP : Nat := 0x300080
def fTIM_EPOCH_CAP_COUNT : Fld := ⟨63, 0⟩
/-- TIM_EPOCH_ERR. -/
def rTIM_EPOCH_ERR : Nat := 0x300088
def fTIM_EPOCH_ERR_MISSED : Fld := ⟨63, 32⟩
def fTIM_EPOCH_ERR_OFF_PHASE : Fld := ⟨31, 0⟩
/-- TIM_SYNC_ERR. -/
def rTIM_SYNC_ERR : Nat := 0x300090
def fTIM_SYNC_ERR_JUMPS : Fld := ⟨63, 56⟩
def fTIM_SYNC_ERR_TAKEOVERS : Fld := ⟨55, 48⟩
def fTIM_SYNC_ERR_TOD_LOADS : Fld := ⟨47, 32⟩
def fTIM_SYNC_ERR_BAD_SYNC : Fld := ⟨31, 0⟩
/-- TIM_TS_ARM. -/
def rTIM_TS_ARM : Nat := 0x3000a0
def fTIM_TS_ARM_ARM : Fld := ⟨63, 63⟩
def fTIM_TS_ARM_SYNC_STAMP : Fld := ⟨62, 62⟩
def fTIM_TS_ARM_LINK : Fld := ⟨20, 16⟩
def fTIM_TS_ARM_ID : Fld := ⟨15, 0⟩
/-- TIM_TS_DATA. -/
def rTIM_TS_DATA : Nat := 0x3000a8
def fTIM_TS_DATA_ITEM : Fld := ⟨63, 0⟩
/-- TIM_TS_STATUS. -/
def rTIM_TS_STATUS : Nat := 0x3000b0
def fTIM_TS_STATUS_DROPPED : Fld := ⟨63, 32⟩
def fTIM_TS_STATUS_OVF : Fld := ⟨8, 8⟩
def fTIM_TS_STATUS_LEVEL : Fld := ⟨4, 0⟩
/-- TIM_NBR_OFF. -/
def rTIM_NBR_OFF (i : Nat) : Nat := 0x300100 + 0x8 * i
def fTIM_NBR_OFF_VALID : Fld := ⟨63, 63⟩
def fTIM_NBR_OFF_OFFSET : Fld := ⟨31, 0⟩
/-- DET_CTX_CTL. -/
def rDET_CTX_CTL (i : Nat) : Nat := 0xd00000 + 0x40 * i
def fDET_CTX_CTL_DM : Fld := ⟨63, 63⟩
def fDET_CTX_CTL_RESUME : Fld := ⟨47, 0⟩
/-- DET_BRK_CTL. -/
def rDET_BRK_CTL (i : Nat) : Nat := 0xd00008 + 0x40 * i
def fDET_BRK_CTL_ENABLE : Fld := ⟨63, 63⟩
def fDET_BRK_CTL_TILE : Fld := ⟨55, 48⟩
def fDET_BRK_CTL_STEP : Fld := ⟨47, 0⟩
/-- DET_BRK_ISSUE. -/
def rDET_BRK_ISSUE (i : Nat) : Nat := 0xd00010 + 0x40 * i
def fDET_BRK_ISSUE_ISSUE : Fld := ⟨31, 0⟩
/-- DET_BRK_HIT. -/
def rDET_BRK_HIT (i : Nat) : Nat := 0xd00018 + 0x40 * i
def fDET_BRK_HIT_HIT : Fld := ⟨63, 63⟩
def fDET_BRK_HIT_OFFSET : Fld := ⟨31, 0⟩
/-- DET_TWIN_CTL. -/
def rDET_TWIN_CTL : Nat := 0xd00400
def fDET_TWIN_CTL_ENABLE : Fld := ⟨63, 63⟩
def fDET_TWIN_CTL_CTX : Fld := ⟨59, 57⟩
def fDET_TWIN_CTL_LINKB : Fld := ⟨56, 52⟩
def fDET_TWIN_CTL_LINKA : Fld := ⟨51, 47⟩
def fDET_TWIN_CTL_PARTNER : Fld := ⟨19, 0⟩
/-- DET_TWIN_STATUS. -/
def rDET_TWIN_STATUS : Nat := 0xd00408
def fDET_TWIN_STATUS_OWN_WAIT : Fld := ⟨47, 32⟩
def fDET_TWIN_STATUS_PART_WAIT : Fld := ⟨31, 16⟩
def fDET_TWIN_STATUS_LINKB_OK : Fld := ⟨1, 1⟩
def fDET_TWIN_STATUS_LINKA_OK : Fld := ⟨0, 0⟩
/-- DET_TWIN_CNT. -/
def rDET_TWIN_CNT : Nat := 0xd00410
def fDET_TWIN_CNT_COMPARED : Fld := ⟨63, 32⟩
def fDET_TWIN_CNT_PKT_DUP : Fld := ⟨31, 0⟩
/-- DET_TWIN_DROP. -/
def rDET_TWIN_DROP : Nat := 0xd00418
def fDET_TWIN_DROP_PART_FULL : Fld := ⟨63, 32⟩
def fDET_TWIN_DROP_BAD_PKT : Fld := ⟨31, 0⟩
/-- DET_TWIN_DIV. -/
def rDET_TWIN_DIV : Nat := 0xd00420
def fDET_TWIN_DIV_CAUSE : Fld := ⟨63, 60⟩
def fDET_TWIN_DIV_KIND : Fld := ⟨59, 58⟩
def fDET_TWIN_DIV_UNIT : Fld := ⟨57, 50⟩
def fDET_TWIN_DIV_WINDOW : Fld := ⟨49, 28⟩
/-- DET_TWIN_DIV_STEP. -/
def rDET_TWIN_DIV_STEP : Nat := 0xd00428
def fDET_TWIN_DIV_STEP_STEP : Fld := ⟨47, 0⟩
/-- DET_TWIN_DIV_POS. -/
def rDET_TWIN_DIV_POS : Nat := 0xd00430
def fDET_TWIN_DIV_POS_LAST : Fld := ⟨63, 32⟩
def fDET_TWIN_DIV_POS_FIRST : Fld := ⟨31, 0⟩
/-- DET_TWIN_MBOX. -/
def rDET_TWIN_MBOX : Nat := 0xd00800
/-- GAF_DEVICE_ID. -/
def rGAF_DEVICE_ID : Nat := 0x0
def fGAF_DEVICE_ID_PART : Fld := ⟨63, 48⟩
def fGAF_DEVICE_ID_STEPPING : Fld := ⟨39, 32⟩
def fGAF_DEVICE_ID_LCLASSES : Fld := ⟨31, 24⟩
/-- GAF_SERIAL_HASH. -/
def rGAF_SERIAL_HASH : Nat := 0x8
def fGAF_SERIAL_HASH_HASH : Fld := ⟨63, 0⟩
/-- GAF_LOCATION. -/
def rGAF_LOCATION : Nat := 0x20
def fGAF_LOCATION_GID_VALID : Fld := ⟨63, 63⟩
def fGAF_LOCATION_WR_REFUSED : Fld := ⟨62, 62⟩
def fGAF_LOCATION_RACK : Fld := ⟨47, 32⟩
def fGAF_LOCATION_POS : Fld := ⟨29, 24⟩
def fGAF_LOCATION_GID : Fld := ⟨19, 0⟩
/-- GAF_FLOG_CTL. -/
def rGAF_FLOG_CTL : Nat := 0x100
def fGAF_FLOG_CTL_WR : Fld := ⟨63, 32⟩
def fGAF_FLOG_CTL_RD : Fld := ⟨31, 0⟩
/-- GAF_FLOG_OVW. -/
def rGAF_FLOG_OVW : Nat := 0x108
def fGAF_FLOG_OVW_OVW : Fld := ⟨31, 0⟩
/-- GAF_HANG_CTL. -/
def rGAF_HANG_CTL : Nat := 0x200
def fGAF_HANG_CTL_REPLAY : Fld := ⟨1, 1⟩
def fGAF_HANG_CTL_ENABLE : Fld := ⟨0, 0⟩
/-- GAF_HANG_STATUS. -/
def rGAF_HANG_STATUS : Nat := 0x208
def fGAF_HANG_STATUS_SUSPECTS : Fld := ⟨47, 40⟩
def fGAF_HANG_STATUS_GUILTY : Fld := ⟨39, 32⟩
def fGAF_HANG_STATUS_FIRES : Fld := ⟨31, 0⟩
/-- GAF_RECOVERY. -/
def rGAF_RECOVERY : Nat := 0x300
def fGAF_RECOVERY_DEAD : Fld := ⟨63, 63⟩
def fGAF_RECOVERY_START : Fld := ⟨62, 62⟩
def fGAF_RECOVERY_PHASE : Fld := ⟨61, 58⟩
def fGAF_RECOVERY_COUNT : Fld := ⟨47, 32⟩
def fGAF_RECOVERY_LAST_MS : Fld := ⟨31, 0⟩
/-- GAF_FLOG. -/
def rGAF_FLOG (i : Nat) (j : Nat) : Nat := 0x8000 + 0x40 * i + 0x8 * j
def fGAF_FLOG_RECORD : Fld := ⟨63, 0⟩
/-- CTX_STATUS. -/
def rCTX_STATUS (i : Nat) : Nat := 0x200000 + 0x10000 * i
def fCTX_STATUS_GEN : Fld := ⟨63, 56⟩
def fCTX_STATUS_STATE : Fld := ⟨51, 48⟩
def fCTX_STATUS_PLAN : Fld := ⟨47, 44⟩
def fCTX_STATUS_FW_ONLY : Fld := ⟨43, 43⟩
def fCTX_STATUS_MULTI : Fld := ⟨42, 42⟩
/-- CTX_FAULT_SUM. -/
def rCTX_FAULT_SUM (i : Nat) : Nat := 0x200008 + 0x10000 * i
def fCTX_FAULT_SUM_FIRST : Fld := ⟨63, 48⟩
def fCTX_FAULT_SUM_LOGGED : Fld := ⟨47, 40⟩
def fCTX_FAULT_SUM_MORE : Fld := ⟨31, 0⟩
/-- CTX_PURGE. -/
def rCTX_PURGE (i : Nat) : Nat := 0x200010 + 0x10000 * i
def fCTX_PURGE_ELAPSED : Fld := ⟨47, 16⟩
def fCTX_PURGE_PENDING : Fld := ⟨7, 0⟩
/-- CTX_GEN_FREE. -/
def rCTX_GEN_FREE (i : Nat) : Nat := 0x200018 + 0x10000 * i
def fCTX_GEN_FREE_COUNT : Fld := ⟨63, 0⟩
/-- HST_LINK. -/
def rHST_LINK : Nat := 0x100000
def fHST_LINK_L0P : Fld := ⟨23, 23⟩
def fHST_LINK_FLIT : Fld := ⟨22, 22⟩
def fHST_LINK_FLIT_REFUSED : Fld := ⟨21, 21⟩
def fHST_LINK_WIDTH : Fld := ⟨20, 16⟩
def fHST_LINK_SPEED : Fld := ⟨11, 8⟩
def fHST_LINK_UP : Fld := ⟨0, 0⟩
/-- HST_APERTURE. -/
def rHST_APERTURE : Nat := 0x100008
def fHST_APERTURE_BASE : Fld := ⟨40, 21⟩
/-- HST_EVT_CTL. -/
def rHST_EVT_CTL : Nat := 0x100200
def fHST_EVT_CTL_ENABLE : Fld := ⟨63, 63⟩
def fHST_EVT_CTL_VECTOR : Fld := ⟨9, 0⟩
/-- HST_EVENT. -/
def rHST_EVENT : Nat := 0x100208
def fHST_EVENT_ITEM : Fld := ⟨63, 0⟩
/-- HST_EVT_STATUS. -/
def rHST_EVT_STATUS : Nat := 0x100210
def fHST_EVT_STATUS_DROPPED : Fld := ⟨63, 32⟩
def fHST_EVT_STATUS_OVF : Fld := ⟨8, 8⟩
def fHST_EVT_STATUS_LEVEL : Fld := ⟨5, 0⟩
/-- HST_ACC_ERR. -/
def rHST_ACC_ERR : Nat := 0x100300
def fHST_ACC_ERR_SIZE_ERR : Fld := ⟨63, 32⟩
def fHST_ACC_ERR_APT_ERR : Fld := ⟨31, 0⟩
/-- HST_IDE. -/
def rHST_IDE : Nat := 0x100308
def fHST_IDE_IDE_FAIL : Fld := ⟨63, 32⟩
def fHST_IDE_LINK_SECURE : Fld := ⟨8, 8⟩
def fHST_IDE_SEL_SECURE : Fld := ⟨7, 0⟩
/-- HST_COPY. -/
def rHST_COPY : Nat := 0x100310
def fHST_COPY_BYTES : Fld := ⟨63, 0⟩
/-- HST_MAP_ERR. -/
def rHST_MAP_ERR : Nat := 0x100318
def fHST_MAP_ERR_UNMAPPED : Fld := ⟨63, 32⟩
def fHST_MAP_ERR_LC_REFUSED : Fld := ⟨31, 0⟩
/-- HST_WIN. -/
def rHST_WIN (i : Nat) : Nat := 0x100100 + 0x20 * i
def fHST_WIN_EXPECT : Fld := ⟨63, 32⟩
def fHST_WIN_TAKE : Fld := ⟨29, 16⟩
def fHST_WIN_HELD : Fld := ⟨6, 0⟩
/-- HST_WIN_ERR. -/
def rHST_WIN_ERR (i : Nat) : Nat := 0x100108 + 0x20 * i
def fHST_WIN_ERR_BAD_SEQ : Fld := ⟨63, 32⟩
def fHST_WIN_ERR_OVERWRITE : Fld := ⟨31, 0⟩
/-- HST_WIN_TAKEN. -/
def rHST_WIN_TAKEN (i : Nat) : Nat := 0x100110 + 0x20 * i
def fHST_WIN_TAKEN_COUNT : Fld := ⟨63, 0⟩
/-- SBD_STATUS. -/
def rSBD_STATUS : Nat := 0xe00000
def fSBD_STATUS_EVT_LOST : Fld := ⟨63, 48⟩
def fSBD_STATUS_EID : Fld := ⟨47, 40⟩
def fSBD_STATUS_I3C : Fld := ⟨32, 32⟩
def fSBD_STATUS_DYN_ADDR : Fld := ⟨24, 18⟩
def fSBD_STATUS_STATIC_ADDR : Fld := ⟨14, 8⟩
def fSBD_STATUS_STATE : Fld := ⟨2, 0⟩
/-- SBD_CANE_CTL. -/
def rSBD_CANE_CTL (i : Nat) : Nat := 0xe01000 + 0x20 * i
def fSBD_CANE_CTL_TIMEOUT : Fld := ⟨63, 48⟩
def fSBD_CANE_CTL_DEPTH : Fld := ⟨12, 8⟩
def fSBD_CANE_CTL_MODE_ACTIVE : Fld := ⟨1, 1⟩
def fSBD_CANE_CTL_FULL_MODE : Fld := ⟨0, 0⟩
/-- SBD_CANE_COMMIT. -/
def rSBD_CANE_COMMIT (i : Nat) : Nat := 0xe01008 + 0x20 * i
def fSBD_CANE_COMMIT_COMMIT : Fld := ⟨0, 0⟩
/-- SBD_CANE_STAT. -/
def rSBD_CANE_STAT (i : Nat) : Nat := 0xe01010 + 0x20 * i
def fSBD_CANE_STAT_LAST_EMPTY : Fld := ⟨63, 63⟩
def fSBD_CANE_STAT_LAST_END : Fld := ⟨62, 62⟩
def fSBD_CANE_STAT_LAST_POISON : Fld := ⟨61, 61⟩
def fSBD_CANE_STAT_TMO : Fld := ⟨60, 60⟩
def fSBD_CANE_STAT_OVR : Fld := ⟨59, 59⟩
def fSBD_CANE_STAT_LEVEL : Fld := ⟨37, 32⟩
def fSBD_CANE_STAT_PACKETS : Fld := ⟨5, 0⟩
/-- SBD_CANE_ERR. -/
def rSBD_CANE_ERR (i : Nat) : Nat := 0xe01018 + 0x20 * i
def fSBD_CANE_ERR_DROPPED : Fld := ⟨63, 32⟩
def fSBD_CANE_ERR_PARITY : Fld := ⟨31, 0⟩
/-- PWR_STATUS. -/
def rPWR_STATUS : Nat := 0x500000
def fPWR_STATUS_PWR_FAIL : Fld := ⟨15, 15⟩
def fPWR_STATUS_SHED : Fld := ⟨14, 14⟩
def fPWR_STATUS_HOLDUP : Fld := ⟨13, 13⟩
def fPWR_STATUS_BANK_OK : Fld := ⟨12, 12⟩
def fPWR_STATUS_CLASS : Fld := ⟨7, 4⟩
/-- PWR_INPUT. -/
def rPWR_INPUT : Nat := 0x500008
def fPWR_INPUT_IIN : Fld := ⟨63, 32⟩
def fPWR_INPUT_VIN : Fld := ⟨31, 0⟩
/-- PWR_POWER. -/
def rPWR_POWER : Nat := 0x500010
def fPWR_POWER_P_1S : Fld := ⟨63, 32⟩
def fPWR_POWER_P_1MS : Fld := ⟨31, 0⟩
/-- PWR_LIMIT. -/
def rPWR_LIMIT : Nat := 0x500018
def fPWR_LIMIT_LIMIT : Fld := ⟨15, 0⟩
/-- PWR_EVT_CNT. -/
def rPWR_EVT_CNT : Nat := 0x500020
def fPWR_EVT_CNT_SAGS : Fld := ⟨63, 48⟩
def fPWR_EVT_CNT_SURGES : Fld := ⟨47, 32⟩
def fPWR_EVT_CNT_RIPPLES : Fld := ⟨31, 24⟩
def fPWR_EVT_CNT_HIGH : Fld := ⟨23, 16⟩
def fPWR_EVT_CNT_INTERRUPTIONS : Fld := ⟨15, 0⟩
/-- PWR_DOMAIN. -/
def rPWR_DOMAIN : Nat := 0x500028
def fPWR_DOMAIN_ON : Fld := ⟨31, 0⟩
/-- PWR_QUENCH. -/
def rPWR_QUENCH : Nat := 0x500030
def fPWR_QUENCH_NV_COUNT : Fld := ⟨63, 32⟩
def fPWR_QUENCH_UNREAD : Fld := ⟨7, 4⟩
def fPWR_QUENCH_LAST_CAUSE : Fld := ⟨3, 0⟩
/-- PWR_SEVT_PTR. -/
def rPWR_SEVT_PTR : Nat := 0x500038
def fPWR_SEVT_PTR_OVW : Fld := ⟨63, 32⟩
def fPWR_SEVT_PTR_WR : Fld := ⟨31, 0⟩
/-- PWR_RAIL. -/
def rPWR_RAIL (i : Nat) : Nat := 0x500100 + 0x8 * i
def fPWR_RAIL_VOUT : Fld := ⟨63, 48⟩
def fPWR_RAIL_IOUT : Fld := ⟨47, 32⟩
def fPWR_RAIL_FAULTS : Fld := ⟨15, 8⟩
def fPWR_RAIL_OOS : Fld := ⟨1, 1⟩
def fPWR_RAIL_PG : Fld := ⟨0, 0⟩
/-- PWR_IDLE. -/
def rPWR_IDLE (i : Nat) : Nat := 0x500200 + 0x8 * i
def fPWR_IDLE_STATE : Fld := ⟨63, 60⟩
def fPWR_IDLE_ENTRIES : Fld := ⟨31, 0⟩
/-- PWR_SEVT. -/
def rPWR_SEVT (i : Nat) : Nat := 0x500400 + 0x10 * i
def fPWR_SEVT_KIND : Fld := ⟨63, 60⟩
def fPWR_SEVT_EXTREME : Fld := ⟨59, 48⟩
def fPWR_SEVT_DURATION : Fld := ⟨47, 32⟩
/-- SEC_LC. -/
def rSEC_LC : Nat := 0x600000
def fSEC_LC_TCOUNT : Fld := ⟨39, 32⟩
def fSEC_LC_STATE : Fld := ⟨3, 0⟩
/-- SEC_FW. -/
def rSEC_FW : Nat := 0x600008
def fSEC_FW_REVOKED : Fld := ⟨55, 52⟩
def fSEC_FW_KEY_INDEX : Fld := ⟨49, 48⟩
def fSEC_FW_FUSED_SVN : Fld := ⟨47, 40⟩
def fSEC_FW_SVN : Fld := ⟨39, 32⟩
def fSEC_FW_FW_VERSION : Fld := ⟨31, 0⟩
/-- SEC_FW_STAGED. -/
def rSEC_FW_STAGED : Nat := 0x600010
def fSEC_FW_STAGED_VALID : Fld := ⟨63, 63⟩
def fSEC_FW_STAGED_COMMITTED : Fld := ⟨62, 62⟩
def fSEC_FW_STAGED_SVN : Fld := ⟨39, 32⟩
def fSEC_FW_STAGED_FW_VERSION : Fld := ⟨31, 0⟩
/-- SEC_BOOT. -/
def rSEC_BOOT : Nat := 0x600018
def fSEC_BOOT_MODE : Fld := ⟨63, 60⟩
def fSEC_BOOT_REJECT : Fld := ⟨59, 56⟩
def fSEC_BOOT_PHASE : Fld := ⟨55, 48⟩
def fSEC_BOOT_BOOT_MS : Fld := ⟨31, 0⟩
/-- DBG_CTL. -/
def rDBG_CTL : Nat := 0xf00000
def fDBG_CTL_ENABLE : Fld := ⟨0, 0⟩
/-- DBG_SEL. -/
def rDBG_SEL : Nat := 0xf00008
def fDBG_SEL_TILE : Fld := ⟨55, 48⟩
def fDBG_SEL_FILE : Fld := ⟨47, 44⟩
def fDBG_SEL_AUTO : Fld := ⟨40, 40⟩
def fDBG_SEL_INDEX : Fld := ⟨17, 0⟩
/-- DBG_DATA. -/
def rDBG_DATA : Nat := 0xf00010
def fDBG_DATA_WORD : Fld := ⟨63, 0⟩
/-- PWR_SEVT_W1. -/
def rPWR_SEVT_W1 (i : Nat) : Nat := 0x500408 + 0x10 * i
def fPWR_SEVT_W1_COUNT : Fld := ⟨63, 0⟩
/-- MEM_CTX_RGN_LIM. -/
def rMEM_CTX_RGN_LIM (i : Nat) (j : Nat) : Nat := 0xa01008 + 0x100 * i + 0x10 * j
def fMEM_CTX_RGN_LIM_UNIT : Fld := ⟨19, 0⟩

def regRows0 : List RegRow := [
  ⟨0xc00000, 256, 0x1000, 1, 0x0, .zone, [⟨fTIL_MAP_ZONE, .ro, 0⟩, ⟨fTIL_MAP_MAPPED, .ro, 0⟩, ⟨fTIL_MAP_SPARE, .ro, 0⟩, ⟨fTIL_MAP_FUSED_BAD, .ro, 0⟩, ⟨fTIL_MAP_TEST_FAIL, .ro, 0⟩, ⟨fTIL_MAP_PEND_FAIL, .rws, 0⟩, ⟨fTIL_MAP_LOGICAL, .ro, 0⟩]⟩,
  ⟨0x1000000, 16, 0x1000, 1, 0x0, .zone, [⟨fTIL_MAP_ZONE, .ro, 0⟩, ⟨fTIL_MAP_MAPPED, .ro, 0⟩, ⟨fTIL_MAP_SPARE, .ro, 0⟩, ⟨fTIL_MAP_FUSED_BAD, .ro, 0⟩, ⟨fTIL_MAP_TEST_FAIL, .ro, 0⟩, ⟨fTIL_MAP_PEND_FAIL, .rws, 0⟩, ⟨fTIL_MAP_LOGICAL, .ro, 0⟩]⟩,
  ⟨0xc00008, 256, 0x1000, 1, 0x0, .zone, [⟨fTIL_STATUS_OWNED, .ro, 0⟩, ⟨fTIL_STATUS_CTX, .ro, 0⟩, ⟨fTIL_STATUS_STATE, .ro, 0⟩, ⟨fTIL_STATUS_ISAT, .w1c, 0⟩, ⟨fTIL_STATUS_BIDX, .ro, 0⟩]⟩,
  ⟨0x1000008, 16, 0x1000, 1, 0x0, .zone, [⟨fTIL_STATUS_OWNED, .ro, 0⟩, ⟨fTIL_STATUS_CTX, .ro, 0⟩, ⟨fTIL_STATUS_STATE, .ro, 0⟩, ⟨fTIL_STATUS_ISAT, .w1c, 0⟩, ⟨fTIL_STATUS_BIDX, .ro, 0⟩]⟩,
  ⟨0xc00010, 256, 0x1000, 1, 0x0, .zone, [⟨fTIL_POS_OFFSET, .ro, 0⟩]⟩,
  ⟨0x1000010, 16, 0x1000, 1, 0x0, .zone, [⟨fTIL_POS_OFFSET, .ro, 0⟩]⟩,
  ⟨0xc00018, 256, 0x1000, 1, 0x0, .zone, [⟨fTIL_ISSUE_COUNT_COUNT, .ro, 0⟩]⟩,
  ⟨0x1000018, 16, 0x1000, 1, 0x0, .zone, [⟨fTIL_ISSUE_COUNT_COUNT, .ro, 0⟩]⟩,
  ⟨0xc00020, 256, 0x1000, 1, 0x0, .zone, [⟨fTIL_STALL_COUNT_COUNT, .ro, 0⟩]⟩,
  ⟨0x1000020, 16, 0x1000, 1, 0x0, .zone, [⟨fTIL_STALL_COUNT_COUNT, .ro, 0⟩]⟩,
  ⟨0xc00028, 256, 0x1000, 1, 0x0, .zone, [⟨fTIL_SRAM_CE_UE_OPEN, .rw, 0⟩, ⟨fTIL_SRAM_CE_COUNT, .rw, 0⟩]⟩,
  ⟨0x1000028, 16, 0x1000, 1, 0x0, .zone, [⟨fTIL_SRAM_CE_UE_OPEN, .rw, 0⟩, ⟨fTIL_SRAM_CE_COUNT, .rw, 0⟩]⟩,
  ⟨0xc00200, 256, 0x1000, 64, 0x8, .zone, [⟨fTIL_PUNTY_VALUE, .ro, 0⟩]⟩,
  ⟨0x1000200, 16, 0x1000, 64, 0x8, .zone, [⟨fTIL_PUNTY_VALUE, .ro, 0⟩]⟩,
  ⟨0xa00000, 1, 0x0, 1, 0x0, .pd30, [⟨fMEM_LP_STATUS_GROUP_UP, .ro, 0⟩, ⟨fMEM_LP_STATUS_CH_FAIL, .rws, 0⟩]⟩,
  ⟨0xa00008, 1, 0x0, 1, 0x0, .pd30, [⟨fMEM_LP_TIMING_MAX_GAP, .ro, 0x927⟩, ⟨fMEM_LP_TIMING_TRFC, .ro, 0xfc⟩, ⟨fMEM_LP_TIMING_REF_PERIODS, .ro, 0x3⟩]⟩,
  ⟨0xa00040, 1, 0x0, 1, 0x0, .pd30, [⟨fMEM_SCRUB_CTL_PASS_TIME, .rw, 0x15180⟩, ⟨fMEM_SCRUB_CTL_ENABLE, .rw, 0x1⟩]⟩,
  ⟨0xa00100, 4, 0x8, 1, 0x0, .pd30, [⟨fMEM_LP_ERR_CE, .rw, 0⟩, ⟨fMEM_LP_ERR_UE_PLAN, .rw, 0⟩, ⟨fMEM_LP_ERR_UE_OPEN, .rw, 0⟩, ⟨fMEM_LP_ERR_UE_SCRUB, .rw, 0⟩, ⟨fMEM_LP_ERR_CE_LOG_OVW, .rw, 0⟩]⟩,
  ⟨0xa00200, 4, 0x80, 16, 0x8, .pd30, [⟨fMEM_CE_LOG_VALID, .ro, 0⟩, ⟨fMEM_CE_LOG_LINE, .ro, 0⟩, ⟨fMEM_CE_LOG_SYMBOL, .ro, 0⟩, ⟨fMEM_CE_LOG_BLOCK, .ro, 0⟩]⟩,
  ⟨0xa00400, 64, 0x8, 1, 0x0, .pd30, [⟨fMEM_ECC_H_HJ, .ro, 0⟩]⟩,
  ⟨0xa01000, 8, 0x100, 8, 0x10, .pd30, [⟨fMEM_CTX_RGN_VALID, .ro, 0⟩, ⟨fMEM_CTX_RGN_UNIT, .ro, 0⟩]⟩,
  ⟨0xb00000, 32, 0x100, 1, 0x0, .pd30, [⟨fGTH_STATUS_OWNED, .ro, 0⟩, ⟨fGTH_STATUS_CTX, .ro, 0⟩, ⟨fGTH_STATUS_STATE, .ro, 0⟩, ⟨fGTH_STATUS_STAGED, .ro, 0⟩, ⟨fGTH_STATUS_DESC, .ro, 0⟩]⟩,
  ⟨0xb00008, 32, 0x100, 1, 0x0, .pd30, [⟨fGTH_BLOCKS_COUNT, .ro, 0⟩]⟩,
  ⟨0x800000, 1, 0x0, 1, 0x0, .pd08, [⟨fFWD_COMMIT_COMMIT, .wo, 0⟩]⟩]

def regRows1 : List RegRow := [
  ⟨0x800008, 1, 0x0, 1, 0x0, .pd08, [⟨fFWD_PORT_MAP0_PORT, .stg, 0x3210543210543210⟩]⟩,
  ⟨0x800010, 1, 0x0, 1, 0x0, .pd08, [⟨fFWD_PORT_MAP1_PORT, .stg, 0x54321054⟩]⟩,
  ⟨0x800018, 1, 0x0, 1, 0x0, .pd08, [⟨fFWD_FLUX_RATIO, .ro, 0x555555555555⟩]⟩,
  ⟨0x800100, 24, 0x8, 1, 0x0, .pd08, [⟨fFWD_EXP_XRACK, .ro, 0⟩, ⟨fFWD_EXP_EXP, .ro, 0⟩]⟩,
  ⟨0x801000, 8, 0x100, 24, 0x8, .pd08, [⟨fFWD_OWN_MASK, .ro, 0⟩]⟩,
  ⟨0x802000, 24, 0x40, 1, 0x0, .pd08, [⟨fFWD_LNK_RX0_MISSING, .rw, 0⟩, ⟨fFWD_LNK_RX0_UNPLANNED, .rw, 0⟩]⟩,
  ⟨0x802008, 24, 0x40, 1, 0x0, .pd08, [⟨fFWD_LNK_RX1_LATE, .rw, 0⟩, ⟨fFWD_LNK_RX1_STALE, .rw, 0⟩]⟩,
  ⟨0x802010, 24, 0x40, 1, 0x0, .pd08, [⟨fFWD_LNK_RX2_UNOWNED, .rw, 0⟩, ⟨fFWD_LNK_RX2_RECOV_DROP, .rw, 0⟩]⟩,
  ⟨0x802018, 24, 0x40, 1, 0x0, .pd08, [⟨fFWD_LNK_TX_VOID_OUT, .rw, 0⟩, ⟨fFWD_LNK_TX_NOTREADY, .rw, 0⟩]⟩,
  ⟨0x802020, 24, 0x40, 1, 0x0, .pd08, [⟨fFWD_LNK_FLUX_REPLAYS, .rw, 0⟩, ⟨fFWD_LNK_FLUX_WIN_MAX, .rw, 0⟩, ⟨fFWD_LNK_FLUX_WIN_NOW, .ro, 0⟩]⟩,
  ⟨0x802028, 24, 0x40, 1, 0x0, .pd08, [⟨fFWD_LNK_LEHR_HIGH, .rw, 0⟩, ⟨fFWD_LNK_LEHR_NOW, .ro, 0⟩]⟩,
  ⟨0x700000, 24, 0x4000, 1, 0x0, .pdLink, [⟨fLNK_CTL_EQUALISE, .rw, 0⟩, ⟨fLNK_CTL_FORCE, .rw, 0⟩, ⟨fLNK_CTL_WIDTH, .rw, 0⟩, ⟨fLNK_CTL_REQUEST, .wo, 0⟩, ⟨fLNK_CTL_AUTO_RETRY, .rw, 0x1⟩, ⟨fLNK_CTL_ENABLE, .rw, 0x1⟩]⟩,
  ⟨0x700008, 24, 0x4000, 1, 0x0, .pdLink, [⟨fLNK_STATUS_LANE_OK, .ro, 0⟩, ⟨fLNK_STATUS_DOWN_CAUSE, .ro, 0⟩, ⟨fLNK_STATUS_PEND_REQ, .ro, 0⟩, ⟨fLNK_STATUS_WIDTH, .ro, 0⟩, ⟨fLNK_STATUS_MASTER, .ro, 0⟩, ⟨fLNK_STATUS_INCOMPAT, .ro, 0⟩, ⟨fLNK_STATUS_FENCED, .ro, 0⟩, ⟨fLNK_STATUS_LOCK, .ro, 0⟩, ⟨fLNK_STATUS_STATE, .ro, 0⟩]⟩,
  ⟨0x700010, 24, 0x4000, 1, 0x0, .pdLink, [⟨fLNK_COMMIT_COMMIT, .wo, 0⟩]⟩,
  ⟨0x700018, 24, 0x4000, 1, 0x0, .pdLink, [⟨fLNK_LANE_MAP_MAP, .stg, 0x3210⟩]⟩,
  ⟨0x700020, 24, 0x4000, 1, 0x0, .pdLink, [⟨fLNK_HOP_RTT, .ro, 0⟩, ⟨fLNK_HOP_HOP, .ro, 0⟩]⟩,
  ⟨0x700028, 24, 0x4000, 1, 0x0, .pdLink, [⟨fLNK_FENCE_ENABLE, .rw, 0⟩, ⟨fLNK_FENCE_TAG, .rw, 0⟩]⟩,
  ⟨0x700040, 24, 0x4000, 1, 0x0, .pdLink, [⟨fLNK_NBR0_VALID, .ro, 0⟩, ⟨fLNK_NBR0_GID, .ro, 0⟩, ⟨fLNK_NBR0_LINK, .ro, 0⟩, ⟨fLNK_NBR0_POS, .ro, 0⟩, ⟨fLNK_NBR0_RACK, .ro, 0⟩, ⟨fLNK_NBR0_VER_MAJOR, .ro, 0⟩, ⟨fLNK_NBR0_VER_MINOR, .ro, 0⟩]⟩,
  ⟨0x700048, 24, 0x4000, 1, 0x0, .pdLink, [⟨fLNK_NBR1_SERIAL_HASH, .ro, 0⟩]⟩,
  ⟨0x700050, 24, 0x4000, 1, 0x0, .pdLink, [⟨fLNK_PEER_KIND, .ro, 0⟩, ⟨fLNK_PEER_COUNT, .ro, 0⟩]⟩,
  ⟨0x700100, 24, 0x4000, 1, 0x0, .pdLink, [⟨fLNK_FEC_CORRECTED, .rw, 0⟩, ⟨fLNK_FEC_UNCORR, .rw, 0⟩]⟩,
  ⟨0x700108, 24, 0x4000, 1, 0x0, .pdLink, [⟨fLNK_FEC2_CRC_ONLY, .rw, 0⟩, ⟨fLNK_FEC2_LOCK_LOSS, .rw, 0⟩]⟩,
  ⟨0x700110, 24, 0x4000, 1, 0x0, .pdLink, [⟨fLNK_RPL0_NAK_SENT, .rw, 0⟩, ⟨fLNK_RPL0_NAK_RECV, .rw, 0⟩]⟩,
  ⟨0x700118, 24, 0x4000, 1, 0x0, .pdLink, [⟨fLNK_RPL1_IMPLICIT, .rw, 0⟩, ⟨fLNK_RPL1_DUP, .rw, 0⟩]⟩]

def regRows2 : List RegRow := [
  ⟨0x700120, 24, 0x4000, 1, 0x0, .pdLink, [⟨fLNK_RPL2_SKIP_SENT, .rw, 0⟩, ⟨fLNK_RPL2_SKIP_RECV, .rw, 0⟩]⟩,
  ⟨0x700128, 24, 0x4000, 1, 0x0, .pdLink, [⟨fLNK_CREDIT_AVAIL, .ro, 0⟩, ⟨fLNK_CREDIT_BUF_NOW, .ro, 0⟩, ⟨fLNK_CREDIT_BUF_HIGH, .rw, 0⟩]⟩,
  ⟨0x700130, 24, 0x4000, 1, 0x0, .pdLink, [⟨fLNK_DROP_DOWN_BEADS, .rw, 0⟩, ⟨fLNK_DROP_DOWN_PKTS, .rw, 0⟩]⟩,
  ⟨0x700138, 24, 0x4000, 1, 0x0, .pdLink, [⟨fLNK_FENCE_DROP_FOREIGN, .rw, 0⟩, ⟨fLNK_FENCE_DROP_FENCE_OPEN, .rw, 0⟩]⟩,
  ⟨0x700140, 24, 0x4000, 1, 0x0, .pdLink, [⟨fLNK_EVENTS_DOWNS, .rw, 0⟩, ⟨fLNK_EVENTS_RETRAINS, .rw, 0⟩, ⟨fLNK_EVENTS_RSV_WORD, .rw, 0⟩]⟩,
  ⟨0x700180, 24, 0x4000, 10, 0x8, .pdLink, [⟨fLNK_FEC_HIST_COUNT, .rw, 0⟩]⟩,
  ⟨0x900000, 1, 0x0, 1, 0x0, .pd08, [⟨fOPN_COMMIT_COMMIT, .wo, 0⟩]⟩,
  ⟨0x900008, 1, 0x0, 1, 0x0, .pd08, [⟨fOPN_RT_CTL_OLD_LIVE, .ro, 0⟩, ⟨fOPN_RT_CTL_ACTIVE, .stg, 0⟩]⟩,
  ⟨0x900010, 1, 0x0, 1, 0x0, .pd08, [⟨fOPN_RT_BASE_BASE, .stg, 0xe000000000⟩]⟩,
  ⟨0x900018, 1, 0x0, 1, 0x0, .pd08, [⟨fOPN_FLIP_COUNT, .ro, 0⟩]⟩,
  ⟨0x900020, 1, 0x0, 1, 0x0, .pd08, [⟨fOPN_BAL_ENABLE, .rw, 0⟩]⟩,
  ⟨0x900028, 1, 0x0, 1, 0x0, .pd08, [⟨fOPN_CC_CTL_MARK_THRESH, .rw, 0x40⟩, ⟨fOPN_CC_CTL_RATE_MIN, .rw, 0x8⟩, ⟨fOPN_CC_CTL_DEC_SHIFT, .rw, 0x3⟩, ⟨fOPN_CC_CTL_INC_STEP, .rw, 0x8⟩, ⟨fOPN_CC_CTL_INC_PERIOD, .rw, 0x40⟩]⟩,
  ⟨0x900100, 9, 0x8, 1, 0x0, .pd08, [⟨fOPN_EPOCH_CNT_EP1, .ro, 0⟩, ⟨fOPN_EPOCH_CNT_EP0, .ro, 0⟩]⟩,
  ⟨0x900200, 8, 0x20, 1, 0x0, .pd09, [⟨fOPN_CTX_ID_VALID, .ro, 0⟩, ⟨fOPN_CTX_ID_DM, .ro, 0⟩, ⟨fOPN_CTX_ID_JOB, .ro, 0⟩, ⟨fOPN_CTX_ID_RANK, .ro, 0⟩]⟩,
  ⟨0x900208, 8, 0x20, 1, 0x0, .pd09, [⟨fOPN_CTX_CNT_ISSUED, .ro, 0⟩, ⟨fOPN_CTX_CNT_DONE, .ro, 0⟩]⟩,
  ⟨0x900210, 8, 0x20, 1, 0x0, .pd09, [⟨fOPN_CTX_Q_QNOW, .ro, 0⟩, ⟨fOPN_CTX_Q_OUTST, .ro, 0⟩]⟩,
  ⟨0x900328, 1, 0x0, 1, 0x0, .pd08, [⟨fOPN_CACHE_RANK_MISS, .rw, 0⟩, ⟨fOPN_CACHE_RT_MISS, .rw, 0⟩]⟩,
  ⟨0x904000, 256, 0x40, 8, 0x8, .pd08, [⟨fOPN_CMAP_MARKS, .ro, 0⟩, ⟨fOPN_CMAP_PEAK, .ro, 0⟩, ⟨fOPN_CMAP_BEADS, .ro, 0⟩]⟩,
  ⟨0x900300, 1, 0x0, 1, 0x0, .pd08, [⟨fOPN_DROP0_EXPIRED, .rw, 0⟩, ⟨fOPN_DROP0_NO_ROUTE, .rw, 0⟩]⟩,
  ⟨0x900308, 1, 0x0, 1, 0x0, .pd08, [⟨fOPN_DROP1_OLD_EPOCH, .rw, 0⟩, ⟨fOPN_DROP1_DROP_FULL, .rw, 0⟩]⟩,
  ⟨0x900310, 1, 0x0, 1, 0x0, .pd08, [⟨fOPN_DROP2_SEQ_WINDOW, .rw, 0⟩, ⟨fOPN_DROP2_STALE_GEN, .rw, 0⟩]⟩,
  ⟨0x900318, 1, 0x0, 1, 0x0, .pd08, [⟨fOPN_DROP3_ORPHAN, .rw, 0⟩, ⟨fOPN_DROP3_FRAMING, .rw, 0⟩]⟩,
  ⟨0x900320, 1, 0x0, 1, 0x0, .pd08, [⟨fOPN_DROP4_RETRIES, .rw, 0⟩]⟩,
  ⟨0x400000, 1, 0x0, 1, 0x0, .pd00, [⟨fCLK_COMMIT_COMMIT, .wo, 0⟩]⟩]

def regRows3 : List RegRow := [
  ⟨0x400008, 1, 0x0, 1, 0x0, .pd00, [⟨fCLK_ROOT_REF_OK, .ro, 0⟩, ⟨fCLK_ROOT_LOCK, .ro, 0⟩, ⟨fCLK_ROOT_LOSS, .w1c, 0⟩]⟩,
  ⟨0x400010, 1, 0x0, 1, 0x0, .pd00, [⟨fCLK_TEMPER_T_HI, .rw, 0x64⟩, ⟨fCLK_TEMPER_T_LO, .rw, 0x5f⟩, ⟨fCLK_TEMPER_DROOP_HI, .rw, 0x100⟩, ⟨fCLK_TEMPER_CAP_STEP, .ro, 0⟩]⟩,
  ⟨0x401000, 16, 0x40, 1, 0x0, .pd00, [⟨fCLK_ZONE_CTL_SLK, .stg, 0⟩, ⟨fCLK_ZONE_CTL_VFLOOR, .stg, 0x1e⟩, ⟨fCLK_ZONE_CTL_FLOOR, .stg, 0x4⟩, ⟨fCLK_ZONE_CTL_CAP, .ro, 0⟩, ⟨fCLK_ZONE_CTL_STEP, .ro, 0x4⟩, ⟨fCLK_ZONE_CTL_STOPPED, .ro, 0⟩, ⟨fCLK_ZONE_CTL_CHECK, .ro, 0⟩]⟩,
  ⟨0x401008, 16, 0x40, 1, 0x0, .pd00, [⟨fCLK_ZONE_CC_COUNT, .ro, 0⟩]⟩,
  ⟨0x401010, 16, 0x40, 1, 0x0, .pd00, [⟨fCLK_ZONE_STRETCH_WIN_MAX, .rw, 0⟩, ⟨fCLK_ZONE_STRETCH_COUNT, .rw, 0⟩]⟩,
  ⟨0x401018, 16, 0x40, 1, 0x0, .pd00, [⟨fCLK_ZONE_WIN_LOW, .rw, 0x2000⟩, ⟨fCLK_ZONE_WIN_LAST, .ro, 0⟩]⟩,
  ⟨0x401020, 16, 0x40, 1, 0x0, .pd00, [⟨fCLK_XING_STEP_OK, .rws, 0⟩, ⟨fCLK_XING_RAW_IN, .rws, 0⟩, ⟨fCLK_XING_RAW_OUT, .rws, 0⟩]⟩,
  ⟨0x401028, 16, 0x40, 1, 0x0, .pd00, [⟨fCLK_ZONE_VOLT_V4, .ro, 0x1e⟩, ⟨fCLK_ZONE_VOLT_V3, .ro, 0x28⟩, ⟨fCLK_ZONE_VOLT_V2, .ro, 0x32⟩, ⟨fCLK_ZONE_VOLT_V1, .ro, 0x3c⟩, ⟨fCLK_ZONE_VOLT_V0, .ro, 0x46⟩]⟩,
  ⟨0x300000, 1, 0x0, 1, 0x0, .pd00, [⟨fTIM_COMMIT_COMMIT, .wo, 0⟩]⟩,
  ⟨0x300008, 1, 0x0, 1, 0x0, .pd00, [⟨fTIM_COUNT_COUNT, .ro, 0⟩]⟩,
  ⟨0x300010, 1, 0x0, 1, 0x0, .pd00, [⟨fTIM_RATE_RATE, .ro, 0xfff80000⟩]⟩,
  ⟨0x300018, 1, 0x0, 1, 0x0, .pd00, [⟨fTIM_MASTER_RATE_RATE, .stg, 0xfff80000⟩]⟩,
  ⟨0x300020, 1, 0x0, 1, 0x0, .pd00, [⟨fTIM_ROLE_STANDBY, .stg, 0⟩, ⟨fTIM_ROLE_UPSTREAM, .stg, 0⟩, ⟨fTIM_ROLE_ROLE, .stg, 0⟩]⟩,
  ⟨0x300028, 1, 0x0, 1, 0x0, .pd00, [⟨fTIM_STATUS_MASTER_EPOCH, .ro, 0⟩, ⟨fTIM_STATUS_MASTER_GID, .ro, 0⟩, ⟨fTIM_STATUS_DEPTH, .ro, 0x1f⟩, ⟨fTIM_STATUS_STATE, .ro, 0⟩]⟩,
  ⟨0x300030, 1, 0x0, 1, 0x0, .pd00, [⟨fTIM_OFFSET_DELAY, .ro, 0⟩, ⟨fTIM_OFFSET_OFFSET, .ro, 0⟩]⟩,
  ⟨0x300038, 1, 0x0, 1, 0x0, .pd00, [⟨fTIM_LIMIT_OFF_LIMIT, .rw, 0x20⟩]⟩,
  ⟨0x300040, 1, 0x0, 1, 0x0, .pd00, [⟨fTIM_TOD_SEC_SEC, .ro, 0⟩]⟩,
  ⟨0x300048, 1, 0x0, 1, 0x0, .pd00, [⟨fTIM_TOD_NS_NS, .ro, 0⟩, ⟨fTIM_TOD_NS_FRAC, .ro, 0⟩]⟩,
  ⟨0x300050, 1, 0x0, 1, 0x0, .pd00, [⟨fTIM_TOD_INC_NS, .stg, 0⟩, ⟨fTIM_TOD_INC_FRAC, .stg, 0xd5555555⟩]⟩,
  ⟨0x300058, 1, 0x0, 1, 0x0, .pd00, [⟨fTIM_TOD_STEP_STEP, .stg, 0⟩]⟩,
  ⟨0x300060, 1, 0x0, 1, 0x0, .pd00, [⟨fTIM_SNAP_SNAP, .wo, 0⟩]⟩,
  ⟨0x300068, 1, 0x0, 1, 0x0, .pd00, [⟨fTIM_SNAP_COUNT_COUNT, .ro, 0⟩]⟩,
  ⟨0x300070, 1, 0x0, 1, 0x0, .pd00, [⟨fTIM_SNAP_SEC_SEC, .ro, 0⟩]⟩,
  ⟨0x300078, 1, 0x0, 1, 0x0, .pd00, [⟨fTIM_SNAP_NS_NS, .ro, 0⟩, ⟨fTIM_SNAP_NS_FRAC, .ro, 0⟩]⟩]

def regRows4 : List RegRow := [
  ⟨0x300080, 1, 0x0, 1, 0x0, .pd00, [⟨fTIM_EPOCH_CAP_COUNT, .ro, 0⟩]⟩,
  ⟨0x300088, 1, 0x0, 1, 0x0, .pd00, [⟨fTIM_EPOCH_ERR_MISSED, .rw, 0⟩, ⟨fTIM_EPOCH_ERR_OFF_PHASE, .rw, 0⟩]⟩,
  ⟨0x300090, 1, 0x0, 1, 0x0, .pd00, [⟨fTIM_SYNC_ERR_JUMPS, .rw, 0⟩, ⟨fTIM_SYNC_ERR_TAKEOVERS, .rw, 0⟩, ⟨fTIM_SYNC_ERR_TOD_LOADS, .rw, 0⟩, ⟨fTIM_SYNC_ERR_BAD_SYNC, .rw, 0⟩]⟩,
  ⟨0x3000a0, 1, 0x0, 1, 0x0, .pd00, [⟨fTIM_TS_ARM_ARM, .wo, 0⟩, ⟨fTIM_TS_ARM_SYNC_STAMP, .rw, 0⟩, ⟨fTIM_TS_ARM_LINK, .rw, 0⟩, ⟨fTIM_TS_ARM_ID, .rw, 0⟩]⟩,
  ⟨0x3000a8, 1, 0x0, 1, 0x0, .pd00, [⟨fTIM_TS_DATA_ITEM, .ro, 0xfffffffffffffffe⟩]⟩,
  ⟨0x3000b0, 1, 0x0, 1, 0x0, .pd00, [⟨fTIM_TS_STATUS_DROPPED, .rw, 0⟩, ⟨fTIM_TS_STATUS_OVF, .w1c, 0⟩, ⟨fTIM_TS_STATUS_LEVEL, .ro, 0⟩]⟩,
  ⟨0x300100, 24, 0x8, 1, 0x0, .pd00, [⟨fTIM_NBR_OFF_VALID, .ro, 0⟩, ⟨fTIM_NBR_OFF_OFFSET, .ro, 0⟩]⟩,
  ⟨0xd00000, 8, 0x40, 1, 0x0, .pd31, [⟨fDET_CTX_CTL_DM, .ro, 0⟩, ⟨fDET_CTX_CTL_RESUME, .rw, 0⟩]⟩,
  ⟨0xd00008, 8, 0x40, 1, 0x0, .pd31, [⟨fDET_BRK_CTL_ENABLE, .rw, 0⟩, ⟨fDET_BRK_CTL_TILE, .rw, 0⟩, ⟨fDET_BRK_CTL_STEP, .rw, 0⟩]⟩,
  ⟨0xd00010, 8, 0x40, 1, 0x0, .pd31, [⟨fDET_BRK_ISSUE_ISSUE, .rw, 0⟩]⟩,
  ⟨0xd00018, 8, 0x40, 1, 0x0, .pd31, [⟨fDET_BRK_HIT_HIT, .w1c, 0⟩, ⟨fDET_BRK_HIT_OFFSET, .ro, 0⟩]⟩,
  ⟨0xd00400, 1, 0x0, 1, 0x0, .pd31, [⟨fDET_TWIN_CTL_ENABLE, .ro, 0⟩, ⟨fDET_TWIN_CTL_CTX, .ro, 0⟩, ⟨fDET_TWIN_CTL_LINKB, .ro, 0⟩, ⟨fDET_TWIN_CTL_LINKA, .ro, 0⟩, ⟨fDET_TWIN_CTL_PARTNER, .ro, 0⟩]⟩,
  ⟨0xd00408, 1, 0x0, 1, 0x0, .pd31, [⟨fDET_TWIN_STATUS_OWN_WAIT, .ro, 0⟩, ⟨fDET_TWIN_STATUS_PART_WAIT, .ro, 0⟩, ⟨fDET_TWIN_STATUS_LINKB_OK, .ro, 0⟩, ⟨fDET_TWIN_STATUS_LINKA_OK, .ro, 0⟩]⟩,
  ⟨0xd00410, 1, 0x0, 1, 0x0, .pd31, [⟨fDET_TWIN_CNT_COMPARED, .rw, 0⟩, ⟨fDET_TWIN_CNT_PKT_DUP, .rw, 0⟩]⟩,
  ⟨0xd00418, 1, 0x0, 1, 0x0, .pd31, [⟨fDET_TWIN_DROP_PART_FULL, .rw, 0⟩, ⟨fDET_TWIN_DROP_BAD_PKT, .rw, 0⟩]⟩,
  ⟨0xd00420, 1, 0x0, 1, 0x0, .pd31, [⟨fDET_TWIN_DIV_CAUSE, .ro, 0⟩, ⟨fDET_TWIN_DIV_KIND, .ro, 0⟩, ⟨fDET_TWIN_DIV_UNIT, .ro, 0⟩, ⟨fDET_TWIN_DIV_WINDOW, .ro, 0⟩]⟩,
  ⟨0xd00428, 1, 0x0, 1, 0x0, .pd31, [⟨fDET_TWIN_DIV_STEP_STEP, .ro, 0⟩]⟩,
  ⟨0xd00430, 1, 0x0, 1, 0x0, .pd31, [⟨fDET_TWIN_DIV_POS_LAST, .ro, 0⟩, ⟨fDET_TWIN_DIV_POS_FIRST, .ro, 0⟩]⟩,
  ⟨0xd00800, 1, 0x0, 1, 0x0, .pd31, [⟨⟨63, 0⟩, .wo, 0⟩]⟩,
  ⟨0x0, 1, 0x0, 1, 0x0, .pd00, [⟨fGAF_DEVICE_ID_PART, .ro, 0x960⟩, ⟨fGAF_DEVICE_ID_STEPPING, .ro, 0x1⟩, ⟨fGAF_DEVICE_ID_LCLASSES, .ro, 0x3⟩]⟩,
  ⟨0x8, 1, 0x0, 1, 0x0, .pd00, [⟨fGAF_SERIAL_HASH_HASH, .ro, 0⟩]⟩,
  ⟨0x20, 1, 0x0, 1, 0x0, .pd00, [⟨fGAF_LOCATION_GID_VALID, .rws, 0⟩, ⟨fGAF_LOCATION_WR_REFUSED, .w1c, 0⟩, ⟨fGAF_LOCATION_RACK, .rws, 0⟩, ⟨fGAF_LOCATION_POS, .ro, 0x3f⟩, ⟨fGAF_LOCATION_GID, .rws, 0⟩]⟩,
  ⟨0x100, 1, 0x0, 1, 0x0, .pd00, [⟨fGAF_FLOG_CTL_WR, .ro, 0⟩, ⟨fGAF_FLOG_CTL_RD, .rw, 0⟩]⟩,
  ⟨0x108, 1, 0x0, 1, 0x0, .pd00, [⟨fGAF_FLOG_OVW_OVW, .rw, 0⟩]⟩]

def regRows5 : List RegRow := [
  ⟨0x200, 1, 0x0, 1, 0x0, .pd00, [⟨fGAF_HANG_CTL_REPLAY, .rw, 0x1⟩, ⟨fGAF_HANG_CTL_ENABLE, .rw, 0x1⟩]⟩,
  ⟨0x208, 1, 0x0, 1, 0x0, .pd00, [⟨fGAF_HANG_STATUS_SUSPECTS, .ro, 0⟩, ⟨fGAF_HANG_STATUS_GUILTY, .ro, 0⟩, ⟨fGAF_HANG_STATUS_FIRES, .rw, 0⟩]⟩,
  ⟨0x300, 1, 0x0, 1, 0x0, .pd00, [⟨fGAF_RECOVERY_DEAD, .ro, 0⟩, ⟨fGAF_RECOVERY_START, .wo, 0⟩, ⟨fGAF_RECOVERY_PHASE, .ro, 0⟩, ⟨fGAF_RECOVERY_COUNT, .ro, 0⟩, ⟨fGAF_RECOVERY_LAST_MS, .ro, 0⟩]⟩,
  ⟨0x8000, 256, 0x40, 8, 0x8, .pd00, [⟨fGAF_FLOG_RECORD, .ro, 0⟩]⟩,
  ⟨0x200000, 8, 0x10000, 1, 0x0, .pd00, [⟨fCTX_STATUS_GEN, .ro, 0⟩, ⟨fCTX_STATUS_STATE, .ro, 0⟩, ⟨fCTX_STATUS_PLAN, .ro, 0⟩, ⟨fCTX_STATUS_FW_ONLY, .ro, 0⟩, ⟨fCTX_STATUS_MULTI, .ro, 0⟩]⟩,
  ⟨0x200008, 8, 0x10000, 1, 0x0, .pd00, [⟨fCTX_FAULT_SUM_FIRST, .ro, 0⟩, ⟨fCTX_FAULT_SUM_LOGGED, .ro, 0⟩, ⟨fCTX_FAULT_SUM_MORE, .ro, 0⟩]⟩,
  ⟨0x200010, 8, 0x10000, 1, 0x0, .pd00, [⟨fCTX_PURGE_ELAPSED, .ro, 0⟩, ⟨fCTX_PURGE_PENDING, .ro, 0⟩]⟩,
  ⟨0x200018, 8, 0x10000, 1, 0x0, .pd00, [⟨fCTX_GEN_FREE_COUNT, .ro, 0⟩]⟩,
  ⟨0x100000, 1, 0x0, 1, 0x0, .pd02, [⟨fHST_LINK_L0P, .ro, 0⟩, ⟨fHST_LINK_FLIT, .ro, 0⟩, ⟨fHST_LINK_FLIT_REFUSED, .ro, 0⟩, ⟨fHST_LINK_WIDTH, .ro, 0⟩, ⟨fHST_LINK_SPEED, .ro, 0⟩, ⟨fHST_LINK_UP, .ro, 0⟩]⟩,
  ⟨0x100008, 1, 0x0, 1, 0x0, .pd02, [⟨fHST_APERTURE_BASE, .rw, 0⟩]⟩,
  ⟨0x100200, 1, 0x0, 1, 0x0, .pd02, [⟨fHST_EVT_CTL_ENABLE, .rw, 0⟩, ⟨fHST_EVT_CTL_VECTOR, .rw, 0⟩]⟩,
  ⟨0x100208, 1, 0x0, 1, 0x0, .pd02, [⟨fHST_EVENT_ITEM, .ro, 0xfffffffffffffffe⟩]⟩,
  ⟨0x100210, 1, 0x0, 1, 0x0, .pd02, [⟨fHST_EVT_STATUS_DROPPED, .rw, 0⟩, ⟨fHST_EVT_STATUS_OVF, .w1c, 0⟩, ⟨fHST_EVT_STATUS_LEVEL, .ro, 0⟩]⟩,
  ⟨0x100300, 1, 0x0, 1, 0x0, .pd02, [⟨fHST_ACC_ERR_SIZE_ERR, .rw, 0⟩, ⟨fHST_ACC_ERR_APT_ERR, .rw, 0⟩]⟩,
  ⟨0x100308, 1, 0x0, 1, 0x0, .pd02, [⟨fHST_IDE_IDE_FAIL, .rw, 0⟩, ⟨fHST_IDE_LINK_SECURE, .ro, 0⟩, ⟨fHST_IDE_SEL_SECURE, .ro, 0⟩]⟩,
  ⟨0x100310, 1, 0x0, 1, 0x0, .pd02, [⟨fHST_COPY_BYTES, .ro, 0⟩]⟩,
  ⟨0x100318, 1, 0x0, 1, 0x0, .pd02, [⟨fHST_MAP_ERR_UNMAPPED, .rw, 0⟩, ⟨fHST_MAP_ERR_LC_REFUSED, .rw, 0⟩]⟩,
  ⟨0x100100, 8, 0x20, 1, 0x0, .pd02, [⟨fHST_WIN_EXPECT, .ro, 0x1⟩, ⟨fHST_WIN_TAKE, .ro, 0⟩, ⟨fHST_WIN_HELD, .ro, 0⟩]⟩,
  ⟨0x100108, 8, 0x20, 1, 0x0, .pd02, [⟨fHST_WIN_ERR_BAD_SEQ, .rw, 0⟩, ⟨fHST_WIN_ERR_OVERWRITE, .rw, 0⟩]⟩,
  ⟨0x100110, 8, 0x20, 1, 0x0, .pd02, [⟨fHST_WIN_TAKEN_COUNT, .ro, 0⟩]⟩,
  ⟨0xe00000, 1, 0x0, 1, 0x0, .pd00, [⟨fSBD_STATUS_EVT_LOST, .rw, 0⟩, ⟨fSBD_STATUS_EID, .ro, 0⟩, ⟨fSBD_STATUS_I3C, .ro, 0⟩, ⟨fSBD_STATUS_DYN_ADDR, .ro, 0⟩, ⟨fSBD_STATUS_STATIC_ADDR, .ro, 0x67⟩, ⟨fSBD_STATUS_STATE, .ro, 0⟩]⟩,
  ⟨0xe01000, 21, 0x20, 1, 0x0, .pd00, [⟨fSBD_CANE_CTL_TIMEOUT, .rw, 0⟩, ⟨fSBD_CANE_CTL_DEPTH, .ro, 0⟩, ⟨fSBD_CANE_CTL_MODE_ACTIVE, .ro, 0⟩, ⟨fSBD_CANE_CTL_FULL_MODE, .stg, 0⟩]⟩,
  ⟨0xe01008, 21, 0x20, 1, 0x0, .pd00, [⟨fSBD_CANE_COMMIT_COMMIT, .wo, 0⟩]⟩,
  ⟨0xe01010, 21, 0x20, 1, 0x0, .pd00, [⟨fSBD_CANE_STAT_LAST_EMPTY, .ro, 0⟩, ⟨fSBD_CANE_STAT_LAST_END, .ro, 0⟩, ⟨fSBD_CANE_STAT_LAST_POISON, .ro, 0⟩, ⟨fSBD_CANE_STAT_TMO, .w1c, 0⟩, ⟨fSBD_CANE_STAT_OVR, .w1c, 0⟩, ⟨fSBD_CANE_STAT_LEVEL, .ro, 0⟩, ⟨fSBD_CANE_STAT_PACKETS, .ro, 0⟩]⟩]

def regRows6 : List RegRow := [
  ⟨0xe01018, 21, 0x20, 1, 0x0, .pd00, [⟨fSBD_CANE_ERR_DROPPED, .rw, 0⟩, ⟨fSBD_CANE_ERR_PARITY, .rw, 0⟩]⟩,
  ⟨0x500000, 1, 0x0, 1, 0x0, .pd00, [⟨fPWR_STATUS_PWR_FAIL, .ro, 0⟩, ⟨fPWR_STATUS_SHED, .ro, 0⟩, ⟨fPWR_STATUS_HOLDUP, .ro, 0⟩, ⟨fPWR_STATUS_BANK_OK, .ro, 0⟩, ⟨fPWR_STATUS_CLASS, .ro, 0⟩]⟩,
  ⟨0x500008, 1, 0x0, 1, 0x0, .pd00, [⟨fPWR_INPUT_IIN, .ro, 0⟩, ⟨fPWR_INPUT_VIN, .ro, 0⟩]⟩,
  ⟨0x500010, 1, 0x0, 1, 0x0, .pd00, [⟨fPWR_POWER_P_1S, .ro, 0⟩, ⟨fPWR_POWER_P_1MS, .ro, 0⟩]⟩,
  ⟨0x500018, 1, 0x0, 1, 0x0, .pd00, [⟨fPWR_LIMIT_LIMIT, .ro, 0x960⟩]⟩,
  ⟨0x500020, 1, 0x0, 1, 0x0, .pd00, [⟨fPWR_EVT_CNT_SAGS, .rw, 0⟩, ⟨fPWR_EVT_CNT_SURGES, .rw, 0⟩, ⟨fPWR_EVT_CNT_RIPPLES, .rw, 0⟩, ⟨fPWR_EVT_CNT_HIGH, .rw, 0⟩, ⟨fPWR_EVT_CNT_INTERRUPTIONS, .rw, 0⟩]⟩,
  ⟨0x500028, 1, 0x0, 1, 0x0, .pd00, [⟨fPWR_DOMAIN_ON, .ro, 0x1⟩]⟩,
  ⟨0x500030, 1, 0x0, 1, 0x0, .pd00, [⟨fPWR_QUENCH_NV_COUNT, .ro, 0⟩, ⟨fPWR_QUENCH_UNREAD, .ro, 0⟩, ⟨fPWR_QUENCH_LAST_CAUSE, .ro, 0⟩]⟩,
  ⟨0x500038, 1, 0x0, 1, 0x0, .pd00, [⟨fPWR_SEVT_PTR_OVW, .rw, 0⟩, ⟨fPWR_SEVT_PTR_WR, .ro, 0⟩]⟩,
  ⟨0x500100, 27, 0x8, 1, 0x0, .pd00, [⟨fPWR_RAIL_VOUT, .ro, 0⟩, ⟨fPWR_RAIL_IOUT, .ro, 0⟩, ⟨fPWR_RAIL_FAULTS, .rw, 0⟩, ⟨fPWR_RAIL_OOS, .ro, 0⟩, ⟨fPWR_RAIL_PG, .ro, 0⟩]⟩,
  ⟨0x500200, 44, 0x8, 1, 0x0, .pd00, [⟨fPWR_IDLE_STATE, .ro, 0⟩, ⟨fPWR_IDLE_ENTRIES, .rw, 0⟩]⟩,
  ⟨0x500400, 64, 0x10, 1, 0x0, .pd00, [⟨fPWR_SEVT_KIND, .ro, 0⟩, ⟨fPWR_SEVT_EXTREME, .ro, 0⟩, ⟨fPWR_SEVT_DURATION, .ro, 0⟩]⟩,
  ⟨0x600000, 1, 0x0, 1, 0x0, .pd00, [⟨fSEC_LC_TCOUNT, .ro, 0x2⟩, ⟨fSEC_LC_STATE, .ro, 0x2⟩]⟩,
  ⟨0x600008, 1, 0x0, 1, 0x0, .pd00, [⟨fSEC_FW_REVOKED, .ro, 0⟩, ⟨fSEC_FW_KEY_INDEX, .ro, 0⟩, ⟨fSEC_FW_FUSED_SVN, .ro, 0⟩, ⟨fSEC_FW_SVN, .ro, 0⟩, ⟨fSEC_FW_FW_VERSION, .ro, 0⟩]⟩,
  ⟨0x600010, 1, 0x0, 1, 0x0, .pd00, [⟨fSEC_FW_STAGED_VALID, .ro, 0⟩, ⟨fSEC_FW_STAGED_COMMITTED, .ro, 0⟩, ⟨fSEC_FW_STAGED_SVN, .ro, 0⟩, ⟨fSEC_FW_STAGED_FW_VERSION, .ro, 0⟩]⟩,
  ⟨0x600018, 1, 0x0, 1, 0x0, .pd00, [⟨fSEC_BOOT_MODE, .ro, 0x1⟩, ⟨fSEC_BOOT_REJECT, .ro, 0⟩, ⟨fSEC_BOOT_PHASE, .ro, 0x1⟩, ⟨fSEC_BOOT_BOOT_MS, .ro, 0⟩]⟩,
  ⟨0xf00000, 1, 0x0, 1, 0x0, .pd00, [⟨fDBG_CTL_ENABLE, .rw, 0⟩]⟩,
  ⟨0xf00008, 1, 0x0, 1, 0x0, .pd31, [⟨fDBG_SEL_TILE, .rw, 0⟩, ⟨fDBG_SEL_FILE, .rw, 0⟩, ⟨fDBG_SEL_AUTO, .rw, 0⟩, ⟨fDBG_SEL_INDEX, .rw, 0⟩]⟩,
  ⟨0xf00010, 1, 0x0, 1, 0x0, .pd31, [⟨fDBG_DATA_WORD, .ro, 0⟩]⟩,
  ⟨0x500408, 64, 0x10, 1, 0x0, .pd00, [⟨fPWR_SEVT_W1_COUNT, .ro, 0⟩]⟩,
  ⟨0xa01008, 8, 0x100, 8, 0x10, .pd30, [⟨fMEM_CTX_RGN_LIM_UNIT, .ro, 0⟩]⟩]

/-- Every register of the module (R413). -/
def regRows : List RegRow :=
  regRows0 ++ regRows1 ++ regRows2 ++ regRows3 ++ regRows4 ++ regRows5 ++ regRows6

/-- Whether an offset is an instance of a row. -/
def RegRow.hit (r : RegRow) (off : Nat) : Bool :=
  let d := off - r.base
  let i := if r.s1 = 0 then 0 else d / r.s1
  let e := d - r.s1 * i
  let j := if r.s2 = 0 then 0 else e / r.s2
  decide (r.base ≤ off) && decide (i < r.n1) && decide (j < r.n2) && decide (off = r.base + r.s1 * i + r.s2 * j)

/-- The row of an offset, if a register sits there (R408). -/
def regAt (off : Nat) : Option RegRow := regRows.find? (·.hit off)

/-- TIMEOUT and FULL_MODE of instance i at reset (R345). -/
def caneCtlReset (i : Nat) : Nat :=
  (if i < 2 then 0 else if i < 4 then 1024 else 256) * 2 ^ 48 + (if i < 2 then 0 else 1)

/-- The reset value of a register from its fields (R12). -/
def regReset (off : Nat) : W64 :=
  match regAt off with
  | some r =>
    let w := r.fields.foldl (fun a f => a + f.reset <<< f.fld.lo) 0
    BitVec.ofNat 64 (if r.base = 0xe01000 then w + caneCtlReset ((off - 0xe01000) / 0x20) else w)
  | none => 0

end Machine
end Sys2Proof
end

