-- ==== Sys2Proof/Machine/Ops.lean ====
section
/-! DEFINITION. The named operations over the state: sparse maps, registers and their fields, memory with its symbol
code, counters, contexts and steps, Cane pushes and the raising of faults. -/
namespace Sys2Proof
namespace Machine

/-- What a meaning answers. -/
abbrev Out := Host.Outcome State Fault Refusal

/-! ### Sparse maps -/

/-- The value a sparse map holds for a key; `d` is what an unlisted key reads as. -/
def tget {α : Type} (d : Nat → α) : Tbl α → Nat → α
  | [], k => d k
  | (k', v) :: t, k => if k' = k then v else tget d t k

/-- A sparse map without a key. -/
def tdel {α : Type} (k : Nat) : Tbl α → Tbl α
  | [] => []
  | (k', v) :: t => if k' = k then tdel k t else (k', v) :: tdel k t

/-- An entry put before the first larger key. -/
def tins {α : Type} (k : Nat) (v : α) : Tbl α → Tbl α
  | [] => [(k, v)]
  | (k', v') :: t => if k < k' then (k, v) :: (k', v') :: t else (k', v') :: tins k v t

/-- A sparse map with one key changed; the canonical form is kept. -/
def tset {α : Type} [DecidableEq α] (d : Nat → α) (t : Tbl α) (k : Nat) (v : α) : Tbl α :=
  if v = d k then tdel k t else tins k v (tdel k t)

/-- Keys above `lo`, strictly rising, and no entry equal to the default: the canonical form. -/
def twfFrom {α : Type} [DecidableEq α] (d : Nat → α) : Nat → Tbl α → Bool
  | _, [] => true
  | lo, (k, v) :: t => decide (lo ≤ k) && decide (v ≠ d k) && twfFrom d (k + 1) t

def twf {α : Type} [DecidableEq α] (d : Nat → α) (t : Tbl α) : Bool := twfFrom d 0 t

/-- Every entry changed by a function, dropped where it becomes the default. -/
def tmap {α : Type} [DecidableEq α] (d : Nat → α) (f : Nat → α → α) (t : Tbl α) : Tbl α :=
  t.filterMap fun e => let v := f e.1 e.2; if v = d e.1 then none else some (e.1, v)

/-! ### Register fields -/

def fwid (f : Fld) : Nat := f.hi + 1 - f.lo

/-- A field of a word. -/
def fget (f : Fld) (w : W64) : Nat := (w.toNat >>> f.lo) % 2 ^ fwid f

def fmask (f : Fld) : W64 := BitVec.ofNat 64 ((2 ^ fwid f - 1) <<< f.lo)

/-- A word with one field replaced by the low bits of `v`. -/
def fset (f : Fld) (w : W64) (v : Nat) : W64 :=
  (w &&& ~~~ fmask f) ||| BitVec.ofNat 64 ((v % 2 ^ fwid f) <<< f.lo)

/-- The stored word of a register. -/
def regGet (s : State) (off : Nat) : W64 := tget regReset s.regs off

def regSet (s : State) (off : Nat) (w : W64) : State := { s with regs := tset regReset s.regs off w }

def rd (s : State) (off : Nat) (f : Fld) : Nat := fget f (regGet s off)

def wr (s : State) (off : Nat) (f : Fld) (v : Nat) : State := regSet s off (fset f (regGet s off) v)

/-- A counter field raised by n, saturating (R298). -/
def bumpBy (s : State) (off : Nat) (f : Fld) (n : Nat) : State :=
  wr s off f (min (rd s off f + n) (2 ^ fwid f - 1))

def bump (s : State) (off : Nat) (f : Fld) : State := bumpBy s off f 1

/-- A field that keeps its largest value. -/
def keepMax (s : State) (off : Nat) (f : Fld) (n : Nat) : State :=
  if rd s off f < n then wr s off f (min n (2 ^ fwid f - 1)) else s

/-! ### Flags that hardware sets and software clears (R9, R10) -/

/-- The GCLK cycle of the present LCLK edge: GCLK has half the rate of LCLK (R332; log 9). -/
def gclk (s : State) : Nat := s.lclk / 2

/-- Hardware sets a W1C flag: a write of the same GCLK cycle does not clear it (R10). -/
def flagSet (s : State) (off : Nat) (f : Fld) : State :=
  { s with flagAt := tset (fun _ => 0) s.flagAt (64 * off + f.lo) (gclk s + 1) }

/-- Hardware has set the flag in the present GCLK cycle. -/
def flagFresh (s : State) (off : Nat) (f : Fld) : Bool := decide (tget (fun _ => 0) s.flagAt (64 * off + f.lo) = gclk s + 1)

/-- A W1C flag of a register raised by hardware. -/
def raiseFlag (s : State) (off : Nat) (f : Fld) : State := flagSet (wr s off f 1) off f

/-! ### Free values -/

/-- The next free value, and the state that has drawn it (log 6). -/
def draw (s : State) : BitVec 512 × State := (Config.freeWord s.fresh, { s with fresh := s.fresh + 1 })

/-- The bits of a register that no field names: a read returns them undefined (R9), so they are free (log 35). -/
def rsvMask (off : Nat) : W64 :=
  match regAt off with
  | none => 0
  | some r => ~~~ (r.fields.foldl (fun m f => m ||| fmask f.fld) 0)

/-- What a read returns, the reserved bits free. -/
def withRsv (s : State) (off : Nat) (v : W64) : W64 × State :=
  let m := rsvMask off
  if m = 0 then (v, s) else let (f, s1) := draw s; (v ||| (BitVec.setWidth 64 f &&& m), s1)

/-! ### Memory -/

/-- What a byte nothing has written reads as: the wiped value 0 (R385; log 8). -/
def memDef : Nat → Byte := fun _ => 0

/-- The canonical form of memory. -/
def Memory.wf (m : List Host.Cell) : Bool := twf memDef m

def memByte (s : State) (a : Nat) : Byte := tget memDef s.mem a

/-- n bytes from a, little-endian. -/
def memRead (s : State) (a : Nat) : Nat → Nat
  | 0 => 0
  | n + 1 => (memByte s a).toNat + 256 * memRead s (a + 1) n

/-- The cells with n bytes at a replaced by the low bytes of v. -/
def cellsWrite (m : List Host.Cell) (a : Nat) : Nat → Nat → List Host.Cell
  | 0, _ => m
  | n + 1, v => cellsWrite (tset memDef m a (BitVec.ofNat 8 v)) (a + 1) n (v / 256)

/-- The error patterns of the code words wholly inside [a, a + n) cleared: a written word gets fresh check symbols (R84). -/
def flawClear (t : Tbl (BitVec 272)) (a n : Nat) : Tbl (BitVec 272) :=
  t.filter fun e => !(decide (a ≤ 32 * e.1) && decide (32 * e.1 + 32 ≤ a + n))

/-- n bytes written at a, little-endian. -/
def memWrite (s : State) (a n v : Nat) : State :=
  { s with mem := cellsWrite s.mem a n v, flaw := flawClear s.flaw a n }

/-- Data line n is poisoned: either of its two poison bits is set; they differ only in a line no write has set (R86). -/
def linePoisoned (s : State) (n : Nat) : Bool := decide (tget (fun _ => 0) s.poison n ≠ 0)

/-- Both poison bits of data line n set or cleared (R101). -/
def setPoison (s : State) (n : Nat) (p : Bool) : State :=
  { s with poison := tset (fun _ => 0) s.poison n (if p then 3 else 0) }

/-- Bytes [a, a + n) zeroed: the wipes of R98, R288 and R385. -/
def memWipe (s : State) (a n : Nat) : State :=
  { s with mem := s.mem.filter (fun e => !(decide (a ≤ e.1) && decide (e.1 < a + n)))
           flaw := s.flaw.filter (fun e => !(decide (a ≤ 32 * e.1) && decide (32 * e.1 < a + n)))
           poison := s.poison.filter (fun e => !(decide (a ≤ 64 * e.1) && decide (64 * e.1 < a + n))) }

/-- Column i of block j of a parity-check matrix with data blocks h (R84): blocks 64 to 67 are the identity. -/
def eccColOf (h : Nat → BitVec 64) (j i : Nat) : BitVec 16 :=
  if j < 64 then BitVec.ofNat 16 ((h j).toNat >>> (16 * i)) else BitVec.ofNat 16 (1 <<< (4 * (j - 64) + i))

def eccMulOf (h : Nat → BitVec 64) (j e : Nat) : BitVec 16 :=
  (List.range 4).foldl (fun a i => if (e >>> i) % 2 = 1 then a ^^^ eccColOf h j i else a) 0

/-- Any three blocks are linearly independent as a 16 x 12 matrix: the minimum symbol distance 4 of R84. -/
def eccDist4 (h : Nat → BitVec 64) : Bool :=
  (List.range 68).all fun k => (List.range k).all fun j => (List.range j).all fun i => (List.range 4096).all fun e =>
    decide (e = 0) || decide (eccMulOf h i (e % 16) ^^^ eccMulOf h j (e / 16 % 16) ^^^ eccMulOf h k (e / 256) ≠ 0)

/-- The data blocks of one matrix with that distance: points of an elliptic quadric of PG(3,16) on the basis that makes blocks
64 to 67 the identity (log 102). -/
def eccBase0 : List (BitVec 64) :=
  [ 0x0888044402220111, 0x05c10b690c3d068f, 0x05490b2d0c1f069e, 0x0dc90f6d0e3f078e,
    0x0d410f290e1d079f, 0x01e7097a0da50f5b, 0x016f093e0d870f4a, 0x09ef0d7e0fa70e5a,
    0x09670d3a0f850e4b, 0x042e0217019a09d5, 0x04a6025301b809c4, 0x0c260613039808d4,
    0x0cae065703ba08c5, 0x87614a39258d1b4f, 0x86f943ed287f14ae, 0x819849d42df21fe1 ]
def eccBase1 : List (BitVec 64) :=
  [ 0x8a1b459c2bd61cf3, 0x8d7a4fa52e5b17bc, 0x8ce2467123a9185d, 0x8b834c4826241312,
    0x8c7b46ac235618b3, 0x8b1a4c9526db13fc, 0x8a8245412b291c1d, 0x8de34f782ea41752,
    0x8660433028801440, 0x810149092d0d1f0f, 0x809940dd20ff10ee, 0x87f84ae425721ba1,
    0x312889144d922fd1, 0x3f518eb947cd2a6f, 0x36f283e1487924ad, 0x388b844c42262113 ]
def eccBase2 : List (BitVec 64) :=
  [ 0x39758dab4f5c2eb6, 0x370c8a0645032b08, 0x3eaf875e4ab725ca, 0x30d680f340e82074,
    0x39df8dfe4fe72e7a, 0x37a68a5345b82bc4, 0x3e05870b4a0c2506, 0x307c80a6405320b8,
    0x318289414d292f1d, 0x3ffb8eec47762aa3, 0x365883b448c22461, 0x38218419429d21df,
    0xb120c9106d903fd0, 0xb8b0c4c062603130, 0xb80bc40c62063103, 0xb19bc9dc6df63fe3 ]
def eccBase3 : List (BitVec 64) :=
  [ 0xb6afc35e68b734ca, 0xbf3fce8e67473a2a, 0xbf84ce4267213a19, 0xb614c39268d134f9,
    0xb443c22861143992, 0xbdd3cff86ee43772, 0xbd68cf346e823741, 0xb4f8c2e4617239a1,
    0xb3ccc86664333288, 0xba5cc5b66bc33c68, 0xbae7c57a6ba53c5b, 0xb377c8aa645532bb,
    0x66c4336288314489, 0x699e3dd78ffa4ee5, 0x635838b484c24261, 0x6c0236018309480d ]

/-- H of R84: the fixed matrix of the silicon, which the spec does not print; of it only the distance is known (log 102). -/
def eccH (j : Nat) : BitVec 64 :=
  if eccDist4 Config.eccH then Config.eccH j else (eccBase0 ++ eccBase1 ++ eccBase2 ++ eccBase3).getD j 0

/-- Column i of block Hj (R84). -/
def eccCol (j i : Nat) : BitVec 16 := eccColOf eccH j i

/-- Hj times a symbol error. -/
def eccMul (j e : Nat) : BitVec 16 := eccMulOf eccH j e

/-- The syndrome of an error pattern (R84, R85). -/
def eccSyn (e : BitVec 272) : BitVec 16 :=
  (List.range 68).foldl (fun a j => a ^^^ eccMul j ((e.toNat >>> (4 * j)) % 16)) 0

/-- What reading a code word finds (R85). -/
inductive EccOut where
  | clean
  | corrected (sym : Nat)
  | bad
  deriving DecidableEq, Repr

/-- A read of a code word with error pattern e: the outcome, and what is XORed onto the data as written. -/
def eccRead (e : BitVec 272) : EccOut × Nat :=
  let syn := eccSyn e
  let raw := e.toNat % 2 ^ 256
  if e = 0 then (.clean, 0)
  else if syn = 0 then (.clean, raw)
  else
    match (List.range (68 * 15)).find? (fun n => eccMul (n / 15) (n % 15 + 1) = syn) with
    | some n =>
      let j := n / 15
      (.corrected j, if j < 64 then raw ^^^ ((n % 15 + 1) <<< (4 * j)) else raw)
    | none => (.bad, raw)

/-- A 64-byte line at byte offset a: its data as delivered, the corrected symbols (word, symbol), whether uncorrectable. -/
def lineRead (s : State) (a : Nat) : BitVec 512 × List (Nat × Nat) × Bool :=
  let raw := memRead s a 64
  let (o0, x0) := eccRead (tget (fun _ => 0) s.flaw (a / 32))
  let (o1, x1) := eccRead (tget (fun _ => 0) s.flaw (a / 32 + 1))
  let sym (w : Nat) : EccOut → List (Nat × Nat) := fun o => match o with | .corrected j => [(w, j)] | _ => []
  (BitVec.ofNat 512 (raw ^^^ x0 ^^^ (x1 <<< 256)), sym 0 o0 ++ sym 1 o1, o0 = .bad || o1 = .bad)

def lineWrite (s : State) (a : Nat) (w : BitVec 512) : State := memWrite s a 64 w.toNat

/-- Byte offset of unit address u of a tile's SRAM (R45, R82). -/
def sramAddr (t : Nat) (u : Nat) : Nat := 0x10000000000 + t * 0x2000000 + 64 * u

/-- Byte offset of an offset in the table region (R105). -/
def tableAddr (o : Nat) : Nat := 0xE000000000 + o

def b2n (b : Bool) : Nat := if b then 1 else 0

/-- Byte 0 of a context's plan staging area (R105). -/
def stagingAddr (c : Nat) : Nat := tableAddr (0x100000000 * (c + 1))

/-! ### Units -/

def getTile (s : State) (t : Nat) : Tile := tget (fun _ => Tile.zero) s.tiles t
def setTile (s : State) (t : Nat) (x : Tile) : State := { s with tiles := tset (fun _ => Tile.zero) s.tiles t x }
def modTile (s : State) (t : Nat) (f : Tile → Tile) : State := setTile s t (f (getTile s t))

def getCtx (s : State) (c : Nat) : Ctx := tget (fun _ => Ctx.zero) s.ctxs c
def setCtx (s : State) (c : Nat) (x : Ctx) : State := { s with ctxs := tset (fun _ => Ctx.zero) s.ctxs c x }
def modCtx (s : State) (c : Nat) (f : Ctx → Ctx) : State := setCtx s c (f (getCtx s c))

def getEng (s : State) (g : Nat) : Engine := tget (fun _ => Engine.zero) s.engines g
def setEng (s : State) (g : Nat) (x : Engine) : State := { s with engines := tset (fun _ => Engine.zero) s.engines g x }
def modEng (s : State) (g : Nat) (f : Engine → Engine) : State := setEng s g (f (getEng s g))

def getZone (s : State) (z : Nat) : Zone := tget (fun _ => Zone.zero) s.zones z
def setZone (s : State) (z : Nat) (x : Zone) : State := { s with zones := tset (fun _ => Zone.zero) s.zones z x }
def modZone (s : State) (z : Nat) (f : Zone → Zone) : State := setZone s z (f (getZone s z))

/-- The zone of a logical tile (R25). -/
def zoneOf (t : Nat) : Nat := t / 16

/-- The physical tile that backs a logical tile; before the map is built, the position it has with no repair (R25). -/
def physOf (s : State) (t : Nat) : Nat :=
  match tget (fun _ => (none : Option Nat)) s.tileMap t with
  | some p => p
  | none => 17 * (t / 16) + t % 16

/-- A tile failed in service: PEND_FAIL and the repair record (R26). -/
def markFailed (s : State) (p : Nat) : State :=
  { wr s (rTIL_MAP p) fTIL_MAP_PEND_FAIL 1 with repairRec := tset (fun _ => false) s.repairRec p true }

def allCtx : List CtxId := List.finRange 8

/-! ### Power domains (R12, R296, R412) -/

/-- The bits of a register that keep their value when its domain is cycled: RWS fields, and the fields of TIL_MAP, which
read the map held in PD00 (R12, R25). -/
def keepMask (r : RegRow) (off : Nat) : W64 :=
  if off = rTIL_MAP 0 || (tilBase 1 ≤ off && (off - tilBase 0) % 0x1000 = 0 && r.dom = .zone) then BitVec.allOnes 64
  else r.fields.foldl (fun m f => if f.acc = .rws then m ||| fmask f.fld else m) 0

/-- The registers of cycled domains return to their reset values (R12). -/
def domReset (s : State) (cycled : Dom → Bool) : State :=
  { s with regs := tmap regReset (fun off w =>
      match regAt off with
      | some r => if cycled r.dom then (let m := keepMask r off; (w &&& m) ||| (regReset off &&& ~~~ m)) else w
      | none => w) s.regs }

/-- PD31 is powered (R412). -/
def pd31On (s : State) : Bool := rd s rDBG_CTL fDBG_CTL_ENABLE = 1 || allCtx.any fun c => (getCtx s c).st ≠ .closed

/-- PD31 goes off when every context is CLOSED and DBG_CTL.ENABLE is 0: DET and DBG return to reset, and twin mode ends (R412). -/
def pd31Settle (s : State) : State :=
  if pd31On s then s else { domReset s fun d => d = .pd31 with twin := TwinSt.zero }

/-- Twin mode is on for a context (R269). -/
def twinOn (s : State) (c : Nat) : Bool :=
  decide (rd s rDET_TWIN_CTL fDET_TWIN_CTL_ENABLE = 1) && decide (rd s rDET_TWIN_CTL fDET_TWIN_CTL_CTX = c)

/-! ### Steps (R250, R264) -/

/-- The resume step RS (R264), as the step sequencing of the context holds it: that of a forwarding-only context lives in
PD08 and outlasts the register over a device recovery (R12, R278). -/
def resumeStep (s : State) (c : Nat) : Nat := (getCtx s c).rs

/-- RS given a value: RESUME of DET_CTX_CTL shows it (R264). -/
def setResume (s : State) (c : Nat) (n : Nat) : State :=
  modCtx (wr s (rDET_CTX_CTL c) fDET_CTX_CTL_RESUME n) c fun x => { x with rs := n % 2 ^ 48 }

/-- The step number: RS plus the step counter (R264). -/
def stepNum (s : State) (c : Nat) : Nat := resumeStep s c + (getCtx s c).stepCtr

/-- Length of step n and its REPLAY mark (R234). -/
def stepLenOf (p : Plan) (n : Nat) : Nat × Bool := p.lens.getD (n % p.lens.length) (1, false)

def stepLen (s : State) (c : Nat) : Nat :=
  match (getCtx s c).image with
  | some p => (stepLenOf p (stepNum s c)).1
  | none => 0

/-- Ticks from the first step of a run to its step k (R234, R264). -/
def stepOffset (p : Plan) (rs k : Nat) : Nat :=
  let n := p.lens.length
  let rot := (p.lens.drop (rs % n) ++ p.lens.take (rs % n)).map (·.1)
  (k / n) * rot.sum + (rot.take (k % n)).sum

/-- The tick at which the present step ends. -/
def stepEnd (s : State) (c : Nat) : Nat := (getCtx s c).stepStart + stepLen s c

/-- A context whose plan runs (R244). -/
def isRunning (x : Ctx) : Bool := decide (x.plan = .running)

/-- A parison, armed or running plan: what the load checks compare with (R245). -/
def holdsPlan (x : Ctx) : Bool := x.plan = .parison || x.plan = .armed || x.plan = .running

/-! ### Links -/

def getLink (s : State) (l : Nat) : Link := tget (fun _ => Link.zero) s.links l
def setLink (s : State) (l : Nat) (x : Link) : State := { s with links := tset (fun _ => Link.zero) s.links l x }
def modLink (s : State) (l : Nat) (f : Link → Link) : State := setLink s l (f (getLink s l))

/-- LNK_STATUS.STATE (R146): 0 DISABLED, 1 DETECT, 2 EQUALISE, 3 ALIGN, 4 MEASURE, 5 HELLO, 6 UP, 7 DRAIN, 8 DOWN. -/
def lnkState (s : State) (l : Nat) : Nat := rd s (rLNK_STATUS l) fLNK_STATUS_STATE
/-- A link that carries traffic: UP, or draining before a retrain (R146, R151). -/
def lnkUp (s : State) (l : Nat) : Bool := lnkState s l = 6 || lnkState s l = 7
/-- Ticks of one bead period at the link's width: 4, 8 or 16 (R144). -/
def beadTicks (s : State) (l : Nat) : Nat := 4 * 2 ^ rd s (rLNK_STATUS l) fLNK_STATUS_WIDTH
/-- The link is in Link quiet (R360): its idle unit is asleep. -/
def lnkQuiet (s : State) (l : Nat) : Bool := rd s (rPWR_IDLE (16 + l)) fPWR_IDLE_STATE ≠ 0
/-- The flux ratio N of a link from FWD_FLUX (R114): 8, 16 or 32; the reserved code is read as 16. -/
def fluxN (s : State) (l : Nat) : Nat :=
  let r := (rd s rFWD_FLUX fFWD_FLUX_RATIO >>> (2 * l)) % 4
  if r = 0 then 8 else if r = 2 then 32 else 16
def isFlux (n slot : Nat) : Bool := decide (slot % n = n - 1)
/-- The positions a context owns on a link (R113). -/
def ownMask (s : State) (c l : Nat) : W64 := regGet s (rFWD_OWN c l)
/-- The contexts whose plan, in one of the states `p` accepts, holds positions on a link. -/
def ctxsOn (s : State) (l : Nat) (p : Ctx → Bool) : List CtxId :=
  allCtx.filter fun c => decide (ownMask s c l ≠ 0) && p (getCtx s c) &&
    (match (getCtx s c).image with | some i => i.beads.any (fun b => b.link = l) | none => false)

/-! ### Cane pushes (R339, R340, R345) -/

/-- Stages of an instance (R345). -/
def caneDepth (i : Nat) : Nat := if i = 0 then 16 else 32

/-- Ticks from one edge to the next of a Cane's writer and reader clocks (log 9). -/
def caneWrPeriod (i : Nat) : Nat := if i = 1 || i = 3 then 2 else if i = 2 then 96 else 1
def caneRdPeriod (i : Nat) : Nat := if i = 1 then 1 else if i = 3 then 96 else 2

def caneReset (i : Nat) : Cane where
  items := []
  freed := []
  timer := 0
  fired := false
  held := none
  flagMd := decide (i < 2)
  lastEmpty := false
  lastEnd := false
  lastPoison := false
  tmo := false
  ovr := false
  dropped := 0
  parity := 0

def getCane (s : State) (i : Nat) : Cane := tget caneReset s.canes i
def setCane (s : State) (i : Nat) (x : Cane) : State := { s with canes := tset caneReset s.canes i x }

/-- Whether `n` edges of a clock of period p fall after tick a and no later than tick b. -/
def edgesSince (p n a b : Nat) : Bool := decide (n ≤ b / p - a / p)

/-- Free stages as the writer sees them (R340). -/
def caneFree (i : Nat) (now : Nat) (x : Cane) : Nat :=
  caneDepth i - x.items.length - (x.freed.filter (fun t => !edgesSince (caneWrPeriod i) 3 t now)).length

/-- Even parity over data, end mark and the parity bit (R339). -/
def caneParity (d : W64) (last : Bool) : Bool :=
  (List.range 64).foldl (fun a i => a != d.getLsbD i) last

def mkCaneIt (d : W64) (last poison : Bool) (now : Nat) : CaneIt :=
  { data := d, last := last, par := caneParity d last, poison := poison, at_ := now }

/-- An item put in the tail; the timer starts when the FIFO was empty (R342). -/
def canePut (x : Cane) (it : CaneIt) (now : Nat) : Cane :=
  { x with items := x.items ++ [it], timer := if x.items.isEmpty then now else x.timer, fired := x.fired && !x.items.isEmpty }

/-! ### Fault records (R280 to R283) -/

/-- Words 0 to 6 of a record; word 7 gets its SEQ when it is logged (R280). -/
def recWords (r : FaultRec) : List W64 :=
  let c := match r.ctx with | some c => c.val | none => 0
  [ BitVec.ofNat 64 (r.code.toNat * 2 ^ 48 + (if r.stop then 2 ^ 47 else 0) + (if r.ctx.isSome then 2 ^ 46 else 0) +
      c * 2 ^ 43 + r.gen.toNat * 2 ^ 35 + (r.engine % 16) * 2 ^ 31 + r.peer.toNat * 2 ^ 16 + r.unit % 2 ^ 16),
    BitVec.ofNat 64 r.count, BitVec.ofNat 64 (r.step % 2 ^ 48), BitVec.ofNat 64 r.offset,
    BitVec.ofNat 64 r.d0, BitVec.ofNat 64 r.d1, BitVec.ofNat 64 r.d2, 0 ]

/-- The fault channel of a record: its zone's for a tile or zone, else the tick side's (R345). -/
def faultChan (engine unit : Nat) : CaneId :=
  if 1 ≤ engine && engine ≤ 5 then Fin.ofNat 21 (4 + unit / 16 % 16)
  else if engine = 10 then Fin.ofNat 21 (4 + unit % 16)
  else 20

/-- The eight items of a record put in its channel; under BACKPRESSURE a record that finds no room is held by its unit, or
counted in MORE where the unit holds one already; under FLAG items that find no room are dropped (R343, R345). -/
def faultPush (s : State) (r : FaultRec) : State :=
  let i := faultChan r.engine r.unit
  let x := getCane s i
  if x.flagMd then
    let ws := recWords r
    let s1 := setCane s i ((List.range 8).foldl (fun y k =>
      if 1 ≤ caneFree i s.now y then canePut y (mkCaneIt (ws.getD k 0) (decide (k = 7)) false s.now) s.now
      else { y with ovr := true, dropped := BitVec.ofNat 32 (min (y.dropped.toNat + 1) (2 ^ 32 - 1)) }) x)
    if 8 ≤ caneFree i s.now x then s1 else flagSet s1 (rSBD_CANE_STAT i) fSBD_CANE_STAT_OVR
  else if 8 ≤ caneFree i s.now x then
    let ws := recWords r
    let y := (List.range 8).foldl (fun y k => canePut y (mkCaneIt (ws.getD k 0) (decide (k = 7)) false s.now) s.now) x
    setCane s i y
  else if s.faultHeld.any (fun h => h.item.engine = r.engine && h.item.unit = r.unit) then
    match r.ctx with
    | some c => modCtx s c fun x => { x with more := min (x.more + 1) (2 ^ 32 - 1) }
    | none => s
  else { s with faultHeld := s.faultHeld ++ [{ chan := i, item := r }] }

/-- What a fault says besides its context (R280, R281). -/
structure FaultInfo where
  code   : BitVec 16
  engine : Nat
  unit   : Nat
  offset : Nat
  d0     : Nat
  d1     : Nat
  d2     : Nat
  peer   : BitVec 8 := 0
  deriving DecidableEq, Repr

def faultInfo (code : BitVec 16) (engine unit offset : Nat) : FaultInfo :=
  { code := code, engine := engine, unit := unit, offset := offset, d0 := 0, d1 := 0, d2 := 0 }

def mkRec (s : State) (c : Option CtxId) (stop : Bool) (f : Nat) (i : FaultInfo) : FaultRec :=
  { code := i.code, stop := stop, ctx := c
    gen := (match c with | some c => (getCtx s c).gen | none => 0)
    engine := i.engine, peer := i.peer, unit := i.unit, count := f
    step := (match c with | some c => (if 0x1001 ≤ i.code.toNat && i.code.toNat ≤ 0x1016 then 0 else stepNum s c) | none => 0)
    offset := i.offset, d0 := i.d0, d1 := i.d1, d2 := i.d2 }

/-- A record with no stop: a module-level record, or one that only tells (R283, R299). -/
def note (s : State) (c : Option CtxId) (i : FaultInfo) : State := faultPush s (mkRec s c false s.now i)

/-- A purge of the context has begun (R283, R286). -/
def purging (x : Ctx) : Bool := x.purge.isSome || x.wiping

/-- A fault against a context with fault tick f: the plan enters FAULTED, and the record goes to its channel; once a
purge has begun it is only counted (R244, R282, R283). -/
def raiseAt (s : State) (c : CtxId) (f : Nat) (i : FaultInfo) : State :=
  let x := getCtx s c
  if purging x then
    modCtx s c fun x => { x with more := min (x.more + 1) (2 ^ 32 - 1) }
  else
    let s1 := faultPush s (mkRec s (some c) true f i)
    modCtx s1 c fun x =>
      { x with plan := .faulted, faultTick := (match x.faultTick with | some g => some (min f g) | none => some f) }

/-- A fault raised on the tick side, at the present tick (R282). -/
def raise (s : State) (c : CtxId) (i : FaultInfo) : State := raiseAt s c s.now i

def raiseAll (s : State) (cs : List CtxId) (i : FaultInfo) : State := cs.foldl (fun s c => raise s c i) s

/-! ### Sync network (R53) -/

/-- An increment that enters the network at tick e, applied 8 ticks later (R53). -/
def syncPush (s : State) (e : Nat) (r : CtrRef) (op : PunOp) : State :=
  { s with syncNet := s.syncNet ++ [{ due := e + 8, ctr := r, op := op }] }

/-- All the operations that reach one counter together: the largest PSET, then the sum of the increments (R52). -/
def punApply (v : W32) (ops : List PunOp) : W32 :=
  let sets := ops.filterMap fun o => match o with | .set w => some w.toNat | .inc _ => none
  let base := match sets with | [] => v.toNat | w :: ws => ws.foldl max w
  BitVec.ofNat 32 (base + ops.foldl (fun a o => match o with | .inc n => a + n | .set _ => a) 0)

/-- A chip-wide counter as it stood at tick t (R53). -/
def chipAt (s : State) (n t : Nat) : W32 :=
  match (tget (fun _ => []) s.chip n).find? (fun e => decide (e.1 ≤ t)) with
  | some e => e.2
  | none => 0

def chipNow (s : State) (n : Nat) : W32 := chipAt s n s.now

/-- A chip-wide counter given a new value at the present tick; old values older than 64 ticks are forgotten. -/
def chipSet (s : State) (n : Nat) (v : W32) : State :=
  let h := tget (fun _ => []) s.chip n
  let keep := h.filter (fun e => decide (s.now < e.1 + 64)) ++ ((h.filter (fun e => decide (e.1 + 64 ≤ s.now))).take 1)
  let h' := if keep = [] && v = 0 then [] else (s.now, v) :: keep
  { s with chip := tset (fun _ => []) s.chip n h' }

/-- A wait on target t is met when (counter - t) mod 2^32 < 2^31 (R51). -/
def punMet (v t : W32) : Bool := decide ((v - t).toNat < 2 ^ 31)

end Machine
end Sys2Proof
end

