-- ==== Sys2Proof/Machine/CaneOps.lean ====
section
/-! DEFINITION. Writes and reads of a Cane FIFO (14 R339 to R344). -/
namespace Sys2Proof
namespace Machine

/-- The item nothing stores (R341). -/
def idleItem : W64 := 0xFFFFFFFFFFFFFFFE

def satAdd32 (v : W32) (n : Nat) : W32 := BitVec.ofNat 32 (min (v.toNat + n) (2 ^ 32 - 1))

/-- A stored item of a written one: `flip` is a parity bit that went wrong on the way (R339, R341). -/
def caneItOf (w : CaneItem) (now : Nat) : CaneIt :=
  let it := mkCaneIt w.data w.last w.poison now
  { it with par := it.par != w.flip }

/-- OVR of an instance was raised by its hardware (R10, R343). -/
def caneOvr (s : State) (i : Nat) : State := flagSet s (rSBD_CANE_STAT i) fSBD_CANE_STAT_OVR

/-- A write: into the tail, or dropped and counted under FLAG, or held by the writer under BACKPRESSURE (R343). -/
def caneWrite (s : State) (i : Nat) (w : CaneItem) : State :=
  let x := getCane s i
  if 1 ≤ caneFree i s.now x then setCane s i (canePut x (caneItOf w s.now) s.now)
  else if x.flagMd then caneOvr (setCane s i { x with ovr := true, dropped := satAdd32 x.dropped 1 }) i
  else if x.held.isNone then setCane s i { x with held := some w }
  else s

/-- A clean item whose end mark is set, as every item of CN00 and CN01 has. -/
def caneOne (s : State) (i : Nat) (d : W64) : State := caneWrite s i { data := d, last := true, poison := false, flip := false }

/-- Something put on an interface of the module. -/
def emit (s : State) (m : OutMsg) : State := { s with outs := m :: s.outs }

/-- The target asks to be read, once it has a dynamic address (R332, R333). -/
def askRead (s : State) : State := if rd s rSBD_STATUS fSBD_STATUS_I3C = 1 then emit s .ibi else s

/-- A message over MCTP, with the in-band interrupt of a pending read (R333). -/
def mctpSend (s : State) (who type : Nat) (bytes : List Nat) : State := askRead (emit s (.mctp who type bytes))

/-- An event for the host (R309, R310): one item in CN01, with the PF vector when the channel was empty. -/
def hostEvent (s : State) (kind arg : Nat) : State :=
  let first := (getCane s 1).items.isEmpty
  let s1 := caneOne s 1 (BitVec.ofNat 64 (kind * 2 ^ 56 + arg % 2 ^ 16 * 2 ^ 40 + s.now % 2 ^ 40))
  if first && rd s rHST_EVT_CTL fHST_EVT_CTL_ENABLE = 1 then emit s1 (.vector 0 (rd s rHST_EVT_CTL fHST_EVT_CTL_VECTOR)) else s1

/-- Items the reader can see: written three reader edges ago (R340). -/
def caneSeen (i now : Nat) (x : Cane) : List CaneIt := x.items.filter fun it => edgesSince (caneRdPeriod i) 3 it.at_ now

/-- The held write, once a stage shows free (R343). -/
def caneSettle (s : State) (i : Nat) : State :=
  let x := getCane s i
  match x.held with
  | some w => if 1 ≤ caneFree i s.now x then setCane s i { canePut x (caneItOf w s.now) s.now with held := none } else s
  | none => s

/-- A read: the head item if the reader sees one, else the idle item (R341). -/
def caneRead (s : State) (i : Nat) : W64 × Bool × Bool × State :=
  let x := getCane s i
  match x.items with
  | it :: rest =>
    if edgesSince (caneRdPeriod i) 3 it.at_ s.now then
      let bad := it.par != caneParity it.data it.last
      let x' := { x with items := rest, freed := s.now :: x.freed.filter (fun t => !edgesSince (caneWrPeriod i) 3 t s.now)
                         timer := s.now, fired := false, lastEmpty := false, lastEnd := it.last, lastPoison := it.poison || bad
                         parity := if bad then satAdd32 x.parity 1 else x.parity }
      (it.data, it.last, it.poison || bad, caneSettle (setCane s i x') i)
    else (idleItem, false, false, setCane s i { x with lastEmpty := true, lastEnd := false, lastPoison := false })
  | [] => (idleItem, false, false, setCane s i { x with lastEmpty := true, lastEnd := false, lastPoison := false })

end Machine
end Sys2Proof
end

