-- ==== Sys2Proof/Machine/Program.lean ====
section
/-! DEFINITION. The slot program of a plan (R111, R115, R116, R234, R250): which step a tick falls in, which phase and
entry a slot falls on, and the payload and header forms of a bead (R108, R109, R125). -/
namespace Sys2Proof
namespace Machine

/-- Step index from launch and its first tick from launch, of d ticks after launch (R234, R264). -/
def stepWalk : List Nat → Nat → Nat → Nat × Nat
  | [], _, k => (k, 0)
  | l :: ls, d, k =>
    if d < l then (k, 0)
    else
      let r := stepWalk ls (d - l) (k + 1)
      (r.1, r.2 + l)

def stepAt (p : Plan) (rs d : Nat) : Nat × Nat :=
  let n := p.lens.length
  let rot := (p.lens.drop (rs % n) ++ p.lens.take (rs % n)).map (·.1)
  if rot.sum = 0 then (0, 0)
  else
    let q := d / rot.sum
    let r := stepWalk rot (d % rot.sum) 0
    (q * n + r.1, q * rot.sum + r.2)

/-- Slots from the start of slot `slot`'s step, while the plan of a context has steps there (R116, R250). -/
def slotInStep (p : Plan) (x : Ctx) (rs slot : Nat) : Option Nat :=
  if !x.ran || decide (4 * slot < x.launchAt) then none
  else
    let d := 4 * slot - x.launchAt
    let k := stepAt p rs d
    if p.stepCount ≠ 0 && p.stepCount ≤ rs + k.1 then none else some ((d - k.2) / 4)

/-- Phase and slot of its frame, n slots after the step's first (R116). -/
def phaseAt : List Phase → Nat → Nat → Option (Nat × Nat)
  | [], _, _ => none
  | h :: hs, i, n => if n < h.frame * h.reps then some (i, n % h.frame) else phaseAt hs (i + 1) (n - h.frame * h.reps)

/-- Flux ratio of a code (R114). -/
def fluxOf (c : Nat) : Nat := if c = 0 then 8 else if c = 2 then 32 else 16

/-- Owned positions that are not flux positions, rising (R115). -/
def planPositions (b : BeadSec) : List Nat :=
  (List.range 64).filter fun q => b.mask.getLsbD q && !isFlux (fluxOf b.flux) q

/-- Entry index of a frame slot within its run, if it has one (R115). -/
def entryIdx (b : BeadSec) (f : Nat) : Option Nat :=
  let ps := planPositions b
  if ps.contains (f % 64) then some (f / 64 * ps.length + ps.idxOf (f % 64)) else none

def beadSec (p : Plan) (l : Nat) : Option BeadSec := p.beads.find? (·.link = l)

/-- The transmit entry of a slot on a link: phase, entry index, entry (R115 to R117). -/
def txEntry (p : Plan) (x : Ctx) (rs l slot : Nat) : Option (Nat × Nat × TxE) := do
  let b ← beadSec p l
  let n ← slotInStep p x rs slot
  let (h, f) ← phaseAt p.phases 0 n
  let k ← entryIdx b f
  let e ← (b.tx.getD h [])[k]?
  pure (h, k, e)

/-- The receive entry of a slot on a link (R115, R116, R118). -/
def rxEntry (p : Plan) (x : Ctx) (rs l slot : Nat) : Option (Nat × Nat × RxE) := do
  let b ← beadSec p l
  let n ← slotInStep p x rs slot
  let (h, f) ← phaseAt p.phases 0 n
  let k ← entryIdx b f
  let e ← (b.rx.getD h [])[k]?
  pure (h, k, e)

/-- OFFSET of a record of the forwarding plane (R252). -/
def planOffset (h k : Nat) : Nat := h * 2 ^ 40 + k

/-! ### Beads (R109, R125) -/

def bits (w : W64) (hi lo : Nat) : Nat := (w.toNat >>> lo) % 2 ^ (hi + 1 - lo)

def hClass (h : W64) : Nat := bits h 63 60
def hRpl (h : W64) : Bool := h.getLsbD 59
def hFil (h : W64) : Bool := h.getLsbD 58
def hLseq (h : W64) : Nat := bits h 57 46
def hAck (h : W64) : Nat := bits h 45 34
def hNak (h : W64) : Bool := h.getLsbD 33
def hStok (h : W64) : Nat := bits h 32 29
def hGen (h : W64) : Nat := bits h 28 21
def hSlot (h : W64) : Nat := bits h 20 13
def hEpoch (h : W64) : Nat := bits h 12 1

/-- A bead header without its ACK and NAK (R109). -/
def mkHdr (cls : Nat) (rpl fil : Bool) (lseq stok gen slot epoch : Nat) : W64 :=
  BitVec.ofNat 64 (cls * 2 ^ 60 + (if rpl then 2 ^ 59 else 0) + (if fil then 2 ^ 58 else 0) + lseq % 4096 * 2 ^ 46 +
    stok % 16 * 2 ^ 29 + gen % 256 * 2 ^ 21 + slot % 256 * 2 ^ 13 + epoch % 4096 * 2)

/-- ACK and NAK put into a header (R154). -/
def withAck (h : W64) (ack : Nat) (nak : Bool) : W64 :=
  BitVec.ofNat 64 (h.toNat - bits h 45 33 * 2 ^ 33 + (ack % 4096 * 2 + (if nak then 1 else 0)) * 2 ^ 33)

/-- Lane i of w bits of a payload. -/
def payLane (p : BitVec 2560) (w i : Nat) : Nat := (p.toNat >>> (w * i)) % 2 ^ w

def payOf (w : Nat) (ls : List Nat) : BitVec 2560 := BitVec.ofNat 2560 (ls.foldr (fun v a => v % 2 ^ w + 2 ^ w * a) 0)

/-- Mesh word w of a payload (R108). -/
def payWord (p : BitVec 2560) (w : Nat) : BitVec 512 := BitVec.ofNat 512 (payLane p 512 w)

end Machine
end Sys2Proof
end

