-- ==== Sys2Proof/Machine/NiOps.lean ====
section
/-! DEFINITION. Shared operations of the network interface (chapter 7): packet and bead forms, Rank entries, completion of
a request, and the memory an open-class access reaches. -/
namespace Sys2Proof
namespace Machine

/-! ### Packets (R175 to R177) -/

/-- Whether an opcode is one of R176. -/
def opKnown (op : Nat) : Bool :=
  decide (op = 1) || decide (op = 2) || (decide (8 ≤ op) && decide (op ≤ 15)) || decide (op = 0x20) || decide (op = 0x30) || decide (op = 0x31)
def opResp (op : Nat) : Bool := op = 0x20 || op = 0x31
def opMgmt (op : Nat) : Bool := op = 0x30 || op = 0x31

/-- Payload words a packet carries: LEN, but none in a GET request (R176). -/
def NiPkt.dataLen (p : NiPkt) : Nat := if p.op = 1 then 0 else p.len

/-- Response payload bytes a request asks for (R176); those of a management request are not known before it runs (R184). -/
def respBytes (p : NiPkt) : Nat :=
  if p.op = 1 then 8 * p.len
  else if p.op = 2 then 0
  else if p.op = 0x30 then 4096
  else if p.op = 0x0E || p.op = 0x0F then 8
  else if p.len = 1 && !(p.op = 0x0A && p.dm) then 8 else 0

/-- Bytes a data request touches at its target (R176, R183). -/
def tgtBytes (p : NiPkt) : Nat :=
  if p.op = 0x0A && p.dm then 16 * p.len else if p.op = 0x0F then 8 else 8 * p.len

/-- Bytes of a packet: header, target word of a request, payload (R175). -/
def NiPkt.bytes (p : NiPkt) : Nat := 16 + (if opResp p.op then 0 else 8) + 8 * p.dataLen
/-- Beads of b bytes (R177). -/
def beadsOf (b : Nat) : Nat := (b + 311) / 312

def NiPkt.words (p : NiPkt) : List W64 :=
  let b (x : Bool) (n : Nat) : Nat := if x then 2 ^ n else 0
  [ BitVec.ofNat 64 (p.op % 64 * 2 ^ 58 + b p.ep 57 + b p.mc 56 + p.dest % 2 ^ 20 * 2 ^ 36 + b p.cm 35 + b p.dm 34 +
      p.len % 1024 * 2 ^ 24 + p.birth % 2 ^ 16 * 2 ^ 8 + p.gen.toNat),
    BitVec.ofNat 64 (p.seq % 2 ^ 24 * 2 ^ 40 + p.job % 4096 * 2 ^ 28 +
      (if p.job = 0 then p.srank % 2 ^ 20 * 2 ^ 8 else p.srank % 2 ^ 16 * 2 ^ 12) + b p.ce 7 + p.status % 128) ]
  ++ (if opResp p.op then [] else [p.tgt]) ++ (p.data ++ List.replicate p.dataLen 0).take p.dataLen

/-- A packet read from its words. -/
def pktOf (ws : List W64) : NiPkt :=
  let h := ws.getD 0 0
  let g := ws.getD 1 0
  let op := bits h 63 58
  let job := bits g 39 28
  let p : NiPkt :=
    { op := op, ep := h.getLsbD 57, mc := h.getLsbD 56, dest := bits h 55 36, cm := h.getLsbD 35, dm := h.getLsbD 34
      len := bits h 33 24, birth := bits h 23 8, gen := BitVec.ofNat 8 (bits h 7 0), seq := bits g 63 40, job := job
      srank := if job = 0 then bits g 27 8 else bits g 27 12, ce := g.getLsbD 7, status := bits g 6 0
      tgt := if opResp op then 0 else ws.getD 2 0, data := ws.drop (if opResp op then 2 else 3) }
  { p with data := p.data.take p.dataLen }

/-- Frame word of bead k of n (R177). -/
def frameWord (k n : Nat) : Nat := 312 * k + (if k + 1 = n then 2 ^ 16 else 0)
def fOffset (p : BitVec 2560) : Nat := payLane p 16 0
def fLast (p : BitVec 2560) : Bool := p.getLsbD 16
def fAbort (p : BitVec 2560) : Bool := p.getLsbD 17

/-- The beads of a packet (R177). -/
def NiPkt.beads (p : NiPkt) : List (BitVec 2560) :=
  let ws := p.words
  let n := beadsOf p.bytes
  (List.range n).map fun k =>
    payOf 64 (frameWord k n :: ((ws.drop (39 * k)).take 39).map (·.toNat))

/-- The packet that a run of beads carries. -/
def pktOfBeads (bs : List (BitVec 2560)) : NiPkt :=
  pktOf (bs.flatMap fun b => (List.range 39).map fun i => BitVec.ofNat 64 (payLane b 64 (i + 1)))

/-- A packet older than its lifetime (R181). -/
def expired (s : State) (birth : Nat) : Bool := decide (18 ≤ (s.now / 2 ^ 16 + 2 ^ 16 - birth % 2 ^ 16) % 2 ^ 16)

def ownGid (s : State) : Nat := rd s rGAF_LOCATION fGAF_LOCATION_GID

/-! ### Rank entries (R105, R178, R179) -/

def rankAddr (c r : Nat) : Nat := tableAddr (0x2000000 + 0x400000 * c + 64 * r)

def tableWord (s : State) (a : Nat) : W64 := BitVec.ofNat 64 (memRead s a 8)

/-- Words 0 to 4 of a Rank entry in the cache. -/
def rankCached (s : State) (c r : Nat) : Option (List W64) := (s.rankC.find? (·.1 = 65536 * c + r)).map (·.2)

/-- A Rank entry's words changed, in the cache or, uncached, in the table region. -/
def rankMod (s : State) (c r : Nat) (f : List W64 → List W64) : State :=
  match rankCached s c r with
  | some _ => { s with rankC := s.rankC.map fun e => if e.1 = 65536 * c + r then (e.1, f e.2) else e }
  | none =>
    let ws := f ((List.range 5).map fun i => tableWord s (rankAddr c r + 8 * i))
    (List.range 4).foldl (fun s i => memWrite s (rankAddr c r + 8 * (i + 1)) 8 (ws.getD (i + 1) 0).toNat) s

def setField (ws : List W64) (i : Nat) (f : Fld) (v : Nat) : List W64 := ws.set i (fset f (ws.getD i 0) v)
def getField (ws : List W64) (i : Nat) (f : Fld) : Nat := fget f (ws.getD i 0)

def rkState : Fld := ⟨63, 62⟩
def rkGid : Fld := ⟨19, 0⟩
def rkOutSeq : Fld := ⟨63, 40⟩
def rkInbHigh : Fld := ⟨23, 0⟩
def rkIssued : Fld := ⟨63, 32⟩
def rkDone : Fld := ⟨31, 0⟩
def rkRate : Fld := ⟨42, 32⟩
def rkTokens : Fld := ⟨31, 16⟩
def rkCalm : Fld := ⟨15, 0⟩
def rkEcho : Fld := ⟨63, 48⟩

/-! ### Descriptors (R173) -/

def dWord (d : BitVec 512) (i : Nat) : W64 := BitVec.ofNat 64 (d.toNat >>> (64 * i))
def dOp (d : BitVec 512) : Nat := bits (dWord d 0) 63 58
def dOrd (d : BitVec 512) : Nat := bits (dWord d 0) 57 56
def dMc (d : BitVec 512) : Bool := (dWord d 0).getLsbD 55
def dDest (d : BitVec 512) : Nat := bits (dWord d 0) 51 32
def dLen (d : BitVec 512) : Nat := bits (dWord d 0) 9 0
def dAlloyE (d : BitVec 512) : Nat := bits (dWord d 1) 63 48
def dOffset (d : BitVec 512) : Nat := bits (dWord d 1) 40 0
def dTile (d : BitVec 512) : Nat := bits (dWord d 2) 26 19
def dU (d : BitVec 512) : Nat := bits (dWord d 2) 18 0
def dSc (d : BitVec 512) : Nat := bits (dWord d 3) 33 32
def dTarget (d : BitVec 512) : Nat := bits (dWord d 3) 31 16
def dAmount (d : BitVec 512) : Nat := bits (dWord d 3) 15 8

/-- A completion counter as PINC codes it, for the tile a local kind means (R33, R173). -/
def ctrRefOf (sc target tile : Nat) : Option CtrRef :=
  if sc = 0 then (if target < 64 then some (.tile (Fin.ofNat 256 tile) target) else none)
  else if sc = 1 then (if target / 64 % 4 = 0 then some (.tile (Fin.ofNat 256 (target / 256)) (target % 64)) else none)
  else if sc = 2 then (if target < 4096 then some (.chip target) else none)
  else none

/-- The context may reach a counter (R55). -/
def ctrOwned (s : State) (c : Nat) : CtrRef → Bool
  | .chip n => decide ((getCtx s c).ctrBase ≤ n) && decide (n < (getCtx s c).ctrBase + (getCtx s c).ctrLen)
  | .tile t _ => (getCtx s c).tiles.getLsbD t

/-! ### Open-class memory (R16, R48, R81 to R83, R89) -/

/-- LPDDR region r of a context: its first byte and its end, if valid (R83). -/
def rgnOf (s : State) (c r : Nat) : Option (Nat × Nat) :=
  if rd s (rMEM_CTX_RGN c r) fMEM_CTX_RGN_VALID = 1 then
    some (2 ^ 21 * rd s (rMEM_CTX_RGN c r) fMEM_CTX_RGN_UNIT,
      2 ^ 21 * (rd s (rMEM_CTX_RGN_LIM c r) fMEM_CTX_RGN_LIM_UNIT + 1))
  else none

/-- Every byte from a up to `e` lies in one of the ranges, of which it takes at most f to get there. -/
def coveredBy (rs : List (Nat × Nat)) (e : Nat) : Nat → Nat → Bool
  | 0, a => decide (e ≤ a)
  | f + 1, a => decide (e ≤ a) || (match rs.find? fun r => decide (r.1 ≤ a) && decide (a < r.2) with | some r => coveredBy rs e f r.2 | none => false)

/-- The LPDDR regions of a context (R83). -/
def rgnsOf (s : State) (c : Nat) : List (Nat × Nat) := (List.range 8).filterMap (rgnOf s c)

/-- Every byte of a range of n lies in an LPDDR region of the context; a range of none begins in or at the end of one (R83). -/
def inRegions (s : State) (c a n : Nat) : Bool :=
  if n = 0 then (rgnsOf s c).any fun r => decide (r.1 ≤ a) && decide (a ≤ r.2) else coveredBy (rgnsOf s c) (a + n) 8 a

/-- A range of n bytes lies in the SRAM of tiles the context holds (R82, R83). -/
def inTiles (s : State) (c a n : Nat) : Bool :=
  decide (0x10000000000 ≤ a) && decide (a + n ≤ 0x10200000000) &&
    (List.range 256).all fun t =>
      (getCtx s c).tiles.getLsbD t || decide (a + n ≤ sramAddr t 0) || decide (sramAddr (t + 1) 0 ≤ a)

def inBounds (s : State) (c a n : Nat) : Bool := inRegions s c a n || inTiles s c a n

/-- A management request names management space, and in it the table region or the register window (R81, R82). -/
def mgmtOk (p : NiPkt) : Bool :=
  let a := bits p.tgt 40 0
  let n := 8 * p.len
  bits p.tgt 43 41 = 1 &&
    ((decide (0xE000000000 ≤ a) && decide (a < 0xF000000000) && decide (a + n ≤ 0xF000000000)) ||
      (decide (0x1FFFC000000 ≤ a) && decide (a + n ≤ 2 ^ 41)))

/-- Data space of R82: context LPDDR and tile SRAM. -/
def inDataSpace (a n : Nat) : Bool :=
  decide (a + n ≤ 0xE000000000) || (decide (0x10000000000 ≤ a) && decide (a + n ≤ 0x10200000000))

/-- The channel of an LPDDR byte (R87). -/
def chanOf (a : Nat) : Nat := a / 64 / 30 % 128
/-- The controller group of a channel (R87). -/
def groupOf (ch : Nat) : Nat := ch / 32

def isSram (a : Nat) : Bool := decide (0x10000000000 ≤ a)

/-- Whether a need is one of tile t's SRAM, or of controller group g's LPDDR. -/
def Need.onTile (t : Nat) : Need → Bool
  | .sram n _ => n / 2 ^ 19 = t
  | .period _ => false
def Need.onGroup (g : Nat) : Need → Bool
  | .sram _ _ => false
  | .period ch => groupOf ch = g

/-- The accesses a range needs: one per SRAM line, one period per LPDDR block (R48, R89). -/
def accessesOf (a n : Nat) (write : Bool) : List Need :=
  if n = 0 then []
  else if isSram a then
    (List.range ((a + n - 1) / 64 - a / 64 + 1)).map fun k => .sram ((a - 0x10000000000) / 64 + k) write
  else
    (List.range ((a + n - 1) / 1920 - a / 1920 + 1)).map fun k => .period ((a / 1920 + k) % 128)

/-- The accesses of a data request: an atomic reads and writes its SRAM lines, and takes one period of each LPDDR block (R89, R185). -/
def reqNeeds (p : NiPkt) : List Need :=
  let a := bits p.tgt 40 0
  let n := tgtBytes p
  if p.op = 1 then accessesOf a n false
  else if p.op = 2 then accessesOf a n true
  else accessesOf a n false ++ (if isSram a then accessesOf a n true else [])

/-- A block that corrected a symbol: its group's ring entry, the oldest overwritten (R101). -/
def ceLog (s : State) (n : Nat) (sym : Nat × Nat) : State :=
  let g := groupOf (chanOf (64 * n))
  let i := tget (fun _ => 0) s.ceNext g
  let s1 := if rd s (rMEM_CE_LOG g i) fMEM_CE_LOG_VALID = 1 then bump s (rMEM_LP_ERR g) fMEM_LP_ERR_CE_LOG_OVW else s
  let w := fset fMEM_CE_LOG_VALID (fset fMEM_CE_LOG_LINE (fset fMEM_CE_LOG_SYMBOL (BitVec.ofNat 64 (n / 30)) (sym.2 + 128 * sym.1)) (n % 30)) 1
  { regSet s1 (rMEM_CE_LOG g i) w with ceNext := tset (fun _ => 0) s1.ceNext g ((i + 1) % 16) }

/-- What reading data line n of LPDDR finds: a corrected line is counted and logged, and its row's 16th correction or any
uncorrectable line records the row for post-package repair (R101, R102). -/
def lpNote (s : State) (n : Nat) (fixed : List (Nat × Nat)) (bad : Bool) : State :=
  let k := n / 30
  let s1 := match fixed with
    | [] => s
    | f :: _ =>
      let s0 := ceLog (bump s (rMEM_LP_ERR (groupOf (chanOf (64 * n)))) fMEM_LP_ERR_CE) n f
      { s0 with rowErr := tset (fun _ => 0) s0.rowErr k (tget (fun _ => 0) s0.rowErr k + 1) }
  if bad || decide (16 ≤ tget (fun _ => 0) s1.rowErr k) then { s1 with ppr := tset (fun _ => false) s1.ppr k true } else s1

/-- One line met by an open-class read: its corrections counted, and whether it is uncorrectable or poisoned (R100, R101). -/
def openLine (s : State) (a : Nat) : BitVec 512 × Bool × State :=
  let (d, fixed, bad) := lineRead s (64 * (a / 64))
  if isSram a then
    let t := (a - 0x10000000000) / 0x2000000
    let p := physOf s t
    let s1 := bumpBy s (rTIL_SRAM_CE p) fTIL_SRAM_CE_COUNT fixed.length
    if bad then (d, true, markFailed (bump s1 (rTIL_SRAM_CE p) fTIL_SRAM_CE_UE_OPEN) p) else (d, false, s1)
  else
    let n := a / 64
    let s1 := lpNote s n fixed bad
    if bad || linePoisoned s n then (d, true, bump s1 (rMEM_LP_ERR (groupOf (chanOf a))) fMEM_LP_ERR_UE_OPEN)
    else (d, false, s1)

/-- n bytes read by an open-class access, line by line: the bytes as one number, and whether any line is bad. -/
def openReadLines (s : State) (a : Nat) : Nat → Nat × Bool × State
  | 0 => (0, false, s)
  | k + 1 =>
    let (d, bad, s1) := openLine s a
    let (v, bad2, s2) := openReadLines s1 (a + 64) k
    (d.toNat + 2 ^ 512 * v, bad || bad2, s2)

def openRead (s : State) (a n : Nat) : Nat × Bool × State :=
  if n = 0 then (0, false, s)
  else
    let (v, bad, s1) := openReadLines s (64 * (a / 64)) ((a + n - 1) / 64 - a / 64 + 1)
    ((v >>> (8 * (a % 64))) % 2 ^ (8 * n), bad, s1)

/-- n bytes written by an open-class access; an LPDDR line's poison bits are cleared (R101). -/
def openWrite (s : State) (a n v : Nat) : State :=
  let s1 := memWrite s a n v
  { s1 with poison := s1.poison.filter fun e => !(decide (a ≤ 64 * e.1 + 63) && decide (64 * e.1 < a + n)) }

/-! ### Completion (R186) -/

def dropOutst (s : State) (key : Nat) : State := { s with outst := s.outst.filter (·.key ≠ key) }

/-- The rate decrease of an echo or a RETRY: the first in a window lowers RATE and clears CALM (R184, R189). -/
def rateDown (s : State) (c r : Nat) : State :=
  let k := 65536 * c + r
  if s.echoed.contains k then s
  else
    let lo := rd s rOPN_CC_CTL fOPN_CC_CTL_RATE_MIN
    let sh := rd s rOPN_CC_CTL fOPN_CC_CTL_DEC_SHIFT
    rankMod { s with echoed := s.echoed ++ [k] } c r fun ws =>
      let v := getField ws 3 rkRate
      setField (setField ws 3 rkRate (max lo (v - v >>> sh))) 3 rkCalm 0

/-- A change made in a Rank entry (R186, R189). -/
def rankDo (s : State) (c r : Nat) : RankNote → State
  | .done => rankMod s c r fun ws => setField ws 2 rkDone (getField ws 2 rkDone + 1)
  | .echo => rateDown (rankMod s c r fun ws => setField ws 4 rkEcho (min (getField ws 4 rkEcho + 1) 0xFFFF)) c r
  | .slow => rateDown s c r

/-- Work that needs an entry which is not cached waits for it (R179). -/
def rankWait (s : State) (c : CtxId) (r : Nat) (w : RankWork) : State := { s with rankQ := s.rankQ ++ [{ ctx := c, rank := r, work := w }] }

/-- A change to a Rank entry, now or once the entry is cached (R179). -/
def rankNote (s : State) (c : CtxId) (r : Nat) (n : RankNote) : State :=
  if (rankCached s c r).isSome then rankDo s c r n else rankWait s c r (.note n)

/-- A completion, whatever its status: DONE of the rank and of the context (R186); a multicast counts for the context only. -/
def countDone (s : State) (o : Outst) : State :=
  let s1 := wr s (rOPN_CTX_CNT o.ctx) fOPN_CTX_CNT_DONE (rd s (rOPN_CTX_CNT o.ctx) fOPN_CTX_CNT_DONE + 1)
  if o.pkt.mc then s1 else rankNote s1 o.ctx o.rank .done

/-- The record of an OPEN fault (R193, R280, R281). -/
def openFault (n : Nat) (d : ReqDesc) (rank seq : Nat) : FaultInfo :=
  { code := BitVec.ofNat 16 (0x5000 + n), engine := 11, unit := dTile d.word, offset := d.chan * 2 ^ 32 + d.index
    d0 := rank % 2 ^ 16, d1 := seq % 2 ^ 24, d2 := 0 }

/-- A request completes in error: the OPEN fault of its status, no increment (R186). -/
def failReq (s : State) (o : Outst) (status : Nat) : State :=
  raise (countDone (dropOutst s o.key) o) o.ctx (openFault status o.desc o.rank o.pkt.seq)

/-- A request completes OK: its increment enters the sync network at tick e (R53, R186). -/
def okReq (s : State) (o : Outst) (e : Nat) : State :=
  let s1 := countDone (dropOutst s o.key) o
  match ctrRefOf (dSc o.desc.word) (dTarget o.desc.word) (dTile o.desc.word) with
  | some r => syncPush s1 e r (.inc (dAmount o.desc.word))
  | none => s1

def failKey (s : State) (key status : Nat) : State :=
  match s.outst.find? (·.key = key) with
  | some o => failReq s o status
  | none => s

/-- A copy of a multicast, or the whole of another request, is discarded at this module before it departed (R164, R166). -/
def discardKey (s : State) (key : Option Nat) : State :=
  match key with
  | some k => failKey s k 0x11
  | none => s

end Machine
end Sys2Proof
end

