-- ==== Sys2Proof/Machine/LinkOps.lean ====
section
/-! DEFINITION. Shared operations of the link layer (chapter 6): sequence and replay state, the open receive buffer, what
every received bead does, and a link going DOWN. -/
namespace Sys2Proof
namespace Machine

/-- The value congruent to x modulo m that lies nearest r. -/
def unwrap (r x m : Nat) : Nat :=
  let b := r - r % m + x % m
  if b + m / 2 < r then b + m else if r + m / 2 < b ∧ m ≤ b then b - m else b

/-- EXP of a link: FWD_EXP, or the measured hop where no plan uses the link (R128, R131). -/
def expOf (s : State) (l : Nat) : Nat :=
  let e := rd s (rFWD_EXP l) fFWD_EXP_EXP
  if e = 0 then rd s (rLNK_HOP l) fLNK_HOP_HOP else e

/-- The slot whose departure lies nearest arrival - EXP; halfway, the earlier (R128). -/
def nearestSlot (d : Nat) : Nat := (d + 1) / 4

/-- A bead slot acts as a flux slot: a flux position at x4, every carried slot at reduced width (R111, R144). -/
def fluxSlot (s : State) (l slot : Nat) : Bool :=
  isFlux (fluxN s l) slot || decide (rd s (rLNK_STATUS l) fLNK_STATUS_WIDTH ≠ 0)

/-! ### Faults of links and of the forwarding plane -/

/-- A fault the forwarding plane or link layer raises: the slot rules of R136 apply from the next bead boundary (R166, R282). -/
def fwdRaise (s : State) (c : CtxId) (i : FaultInfo) : State :=
  modCtx (raise s c i) c fun x =>
    { x with fwdStop := (match x.fwdStop with | some b => some b | none => some (4 * (s.now / 4 + 1))) }

/-- LINK 0x001 carries the kind of a PEER_RESET word of the last 1,200,000 ticks (R163). -/
def peerKind (s : State) (l : Nat) : BitVec 8 :=
  if rd s (rLNK_PEER l) fLNK_PEER_KIND ≠ 0 && decide (s.now ≤ rd s (rLNK_PEER l) fLNK_PEER_COUNT + 1200000) then
    BitVec.ofNat 8 (rd s (rLNK_PEER l) fLNK_PEER_KIND)
  else 0

/-! ### Accepted sequences (R154, R159) -/

def insertNat (n : Nat) : List Nat → List Nat
  | [] => [n]
  | m :: ms => if n < m then n :: m :: ms else if n = m then m :: ms else m :: insertNat n ms

/-- The cumulative mark moved over sequences already accepted. -/
def advCum : Nat → Nat → List Nat → Nat × List Nat
  | 0, c, l => (c, l)
  | f + 1, c, l => if l.contains c then advCum f (c + 1) (l.filter (· ≠ c)) else (c, l)

/-- Sequence q is accepted. -/
def Link.accept (x : Link) (q : Nat) : Link :=
  let acc := insertNat q x.rxAcc
  let r := advCum (acc.length + 1) x.rxCum acc
  { x with rxCum := r.1, rxAcc := r.2, rxNext := max x.rxNext (q + 1)
           rxErr := x.rxErr.filter (·.1 ≠ q), naks := x.naks.filter (·.1 ≠ q), nakOut := x.nakOut.filter (· ≠ q) }

/-- Sequence q is in the accepted map (R159). -/
def Link.has (x : Link) (q : Nat) : Bool := decide (q < x.rxCum) || x.rxAcc.contains q

def insertNak (q t : Nat) : List (Nat × Nat) → List (Nat × Nat)
  | [] => [(q, t)]
  | e :: es => if q < e.1 then (q, t) :: e :: es else if q = e.1 then e :: es else e :: insertNak q t es

/-- Every sequence below q that is not accepted is NAKed, outstanding ones again (R155). -/
def Link.nakBelow (x : Link) (q t : Nat) : Link :=
  let miss := (List.range (q - x.rxCum)).filterMap fun k => if x.has (x.rxCum + k) then none else some (x.rxCum + k)
  { x with naks := miss.foldl (fun ns m => insertNak m t ns) x.naks, nakOut := x.nakOut.filter fun m => !miss.contains m, unsure := false }

/-! ### The open receive buffer (R161, R164, R177) -/

/-- n beads left the buffer: their credits are pending return (R161). -/
def creditRet (s : State) (l n : Nat) : State :=
  if n = 0 then s
  else modLink s l fun x =>
    { x with retCum := (x.retCum + n) % 2 ^ 16, retPend := x.retPend + n, retFirst := if x.retPend = 0 then s.now else x.retFirst }

def bufNote (s : State) (l : Nat) : State :=
  let n := (getLink s l).held.length + (getLink s l).obuf.length
  keepMax (wr s (rLNK_CREDIT l) fLNK_CREDIT_BUF_NOW n) (rLNK_CREDIT l) fLNK_CREDIT_BUF_HIGH n

/-- The beads at the end of the buffer that belong to a packet whose LAST bead is not there. -/
def openTail (bs : List OpenB) : List OpenB := (bs.reverse.takeWhile fun b => !fLast b.pay).reverse

/-- Jobs of every link that take their beads from link l's buffer: those whose head has departed end with ABORT, the
others are dropped (R183). -/
def abortFrom (s : State) (l : Nat) : State :=
  (List.range 24).foldl (fun s m =>
    modLink s m fun y =>
      { y with txq := y.txq.filterMap fun j =>
          if j.src = some (Fin.ofNat 24 l) then (if j.pos = 0 then none else some { j with abort := true }) else some j }) s

/-- The packet in progress of link l's buffer is discarded (R156, R164, R177). -/
def cutPacket (s : State) (l : Nat) : State :=
  let x := getLink s l
  let tail := openTail x.obuf
  let whole := x.obuf.any fun b => fLast b.pay
  let s1 := if x.fexp ≠ 0 && !whole && x.route.isSome then modLink (abortFrom s l) l fun y => { y with route := none } else s
  creditRet (modLink s1 l fun y => { y with obuf := y.obuf.take (y.obuf.length - tail.length), fexp := 0 }) l tail.length

/-- A bead leaves the buffer in sequence order: it continues its packet, or it is discarded with the rest of it. A bead at OFFSET 0
starts a packet, whatever became of the one before. On a fenced link an OPEN bead cuts its packet; a fill bead passes, unless its
packet is cut (R164; log 122). -/
def frameBead (s : State) (l : Nat) (b : OpenB) : State :=
  let x := getLink s l
  let drop (s : State) : State := creditRet (modLink s l fun y => { y with fexp := 0, fdrop := !fLast b.pay }) l 1
  if x.fdrop && fOffset b.pay ≠ 0 then drop s
  else if rd s (rLNK_FENCE l) fLNK_FENCE_ENABLE = 1 && !b.mgmt && !b.fil then
    drop (bump (cutPacket s l) (rLNK_FENCE_DROP l) fLNK_FENCE_DROP_FENCE_OPEN)
  else if fAbort b.pay || fOffset b.pay ≠ x.fexp then drop (bump (cutPacket s l) rOPN_DROP3 fOPN_DROP3_FRAMING)
  else modLink s l fun y => { y with obuf := y.obuf ++ [b], fexp := if fLast b.pay then 0 else y.fexp + 312, fdrop := false }

/-- Held beads no longer behind a missing sequence go on to the NI (R161). -/
def releaseHeld (s : State) (l : Nat) : State :=
  let x := getLink s l
  let go := x.held.filter fun b => decide (b.seq < x.rxCum)
  let s1 := modLink s l fun y => { y with held := y.held.filter fun b => !decide (b.seq < x.rxCum) }
  bufNote (go.foldl (fun s b => frameBead s l b) s1) l

def insertOpen (b : OpenB) : List OpenB → List OpenB
  | [] => [b]
  | c :: cs => if b.seq < c.seq then b :: c :: cs else c :: insertOpen b cs

/-! ### A link goes DOWN (R165, R166) -/

/-- The beads of a link's buffer that belong to the packet at its front, and whether its LAST bead is there. -/
def frontCount (x : Link) : Nat × Bool :=
  let n := (x.obuf.takeWhile fun b => !fLast b.pay).length
  if n < x.obuf.length then (n + 1, true) else (n, false)

/-- Beads discarded with a job of link l (R166): the endpoint's own that have not departed, or those of a transit packet that wait in
the buffer it comes from and have no other copy to leave with. -/
def jobBeads (s : State) (l : Nat) (j : TxJob) : Nat :=
  match j.src with
  | none => j.nb - j.pos
  | some m =>
    let x := getLink s m
    match x.route with
    | some r => if r.loc || r.outs.filter (fun o => o.val ≠ l) ≠ [] then 0 else (frontCount x).1
    | none => 0

/-- Transit packets queued on link l are dropped from the buffers they wait in (R166). -/
def dropSource (s : State) (l : Nat) (j : TxJob) : State :=
  match j.src with
  | none => discardKey s j.req
  | some m =>
    let x := getLink s m
    let (n, whole) := frontCount x
    match x.route with
    | some r =>
      if r.loc || r.outs.filter (fun o => o.val ≠ l) ≠ [] then modLink s m fun y => { y with route := some { r with outs := r.outs.filter fun o => o.val ≠ l } }
      else
        creditRet (modLink s m fun y =>
          { y with obuf := y.obuf.drop n, route := none, fdrop := if whole then y.fdrop else true, fexp := if whole then y.fexp else 0 }) m n
    | none => s

/-- What remains of a link that is DOWN: stored coefficients, failed lanes, requests and the map for the next training. -/
def Link.downed (x : Link) (now : Nat) : Link :=
  { Link.zero with coeff := x.coeff, laneFails := [], laneMap := x.laneMap, ownReq := x.ownReq, nextId := x.nextId
                   stateAt := now, retryAt := now, lastLclk := x.lastLclk, lanes := x.lanes }

/-- The state of a link changes; what it measured of its neighbour's time since it came UP no longer stands, but for a drain (R233). -/
def setLnkState (s : State) (l n : Nat) : State :=
  let s1 := if n = 7 then s else wr s (rTIM_NBR_OFF l) fTIM_NBR_OFF_VALID 0
  modLink (hostEvent (wr s1 (rLNK_STATUS l) fLNK_STATUS_STATE n) 2 (n * 256 + l)) l fun x => { x with stateAt := s.now }

/-- The contexts whose parison or running plan holds positions on a link (R150, R166). -/
def planCtxs (s : State) (l : Nat) : List CtxId := ctxsOn s l holdsPlan

/-- A link goes DOWN with a cause (R165, R166): its queues are discarded and counted, the requests the NI holds complete
in error, and LINK 0x007 is raised. A link that is DOWN or DISABLED already stays as it is. -/
def linkDownEff (s : State) (l cause : Nat) : State :=
  if lnkState s l = 8 || lnkState s l = 0 then s
  else
    let x := getLink s l
    let lehrN := (x.lehr.filter fun e => e.2.isSome).length
    let beads := x.ring.length + x.rplq.length + x.held.length + x.obuf.length + lehrN + (x.txq.map (jobBeads s l)).sum
    let inPkts := (x.obuf.filter fun b => fLast b.pay).length + (if openTail x.obuf = [] then 0 else 1)
    let s1 := abortFrom s l
    let s2 := x.txq.foldl (fun s j => dropSource s l j) s1
    let s3 := bumpBy (bumpBy s2 (rLNK_DROP l) fLNK_DROP_DOWN_BEADS beads) (rLNK_DROP l) fLNK_DROP_DOWN_PKTS (x.txq.length + inPkts)
    let s4 := setLink s3 l ((getLink s3 l).downed s.now)
    let s45 := wr (wr (wr s4 (rLNK_STATUS l) fLNK_STATUS_INCOMPAT 0) (rLNK_STATUS l) fLNK_STATUS_FENCED 0) (rLNK_NBR0 l) fLNK_NBR0_VALID 0
    let s5 := wr (wr (wr (wr s45 (rLNK_STATUS l) fLNK_STATUS_DOWN_CAUSE cause) (rLNK_STATUS l) fLNK_STATUS_LOCK 0)
      (rLNK_CREDIT l) fLNK_CREDIT_AVAIL 0) (rLNK_CREDIT l) fLNK_CREDIT_BUF_NOW 0
    let s6 := bump (wr s5 (rFWD_LNK_LEHR l) fFWD_LNK_LEHR_NOW 0) (rLNK_EVENTS l) fLNK_EVENTS_DOWNS
    let s7 := setLnkState s6 l (if rd s (rLNK_CTL l) fLNK_CTL_ENABLE = 1 then 8 else 0)
    (planCtxs s l).foldl (fun s c => fwdRaise s c (faultInfo 0x4007 9 l 0)) s7

/-! ### Every received bead (R153 to R155, R159, R165) -/

/-- A received bead that is clean: counts, the ACK of its header, its place in the sequence. Its sequence if it is new. -/
def rxBead (s : State) (l : Nat) (h : W64) (fixed : Nat) : Option Nat × State :=
  let s0 := if fixed = 0 then s
    else bump (bump s (rLNK_FEC l) fLNK_FEC_CORRECTED) (rLNK_FEC_HIST l (fixed - 1)) fLNK_FEC_HIST_COUNT
  let x := getLink s0 l
  let x1 := { x with rxCount := x.rxCount + 1, consec := 0, lastRx := s.now }
  let ack := unwrap x.txAck (hAck h + 1) 4096
  let x2 := if hNak h || decide (x.txSeq < ack) || decide (ack ≤ x.txAck) then x1 else { x1 with txAck := ack, nakIn := x1.nakIn.filter fun n => decide (ack ≤ n) }
  let q := unwrap x.rxNext (hLseq h) 4096
  let x3 := if x2.unsure || decide (x2.rxNext < q) then x2.nakBelow q s.now else x2
  if x3.has q then (none, bump (setLink s0 l x3) (rLNK_RPL1 l) fLNK_RPL1_DUP)
  else (some q, setLink s0 l (x3.accept q))

/-- A new sequence is settled without a bead of the open class: what was held behind it goes on. -/
def rxDone (r : Option Nat × State) (l : Nat) : State :=
  match r.1 with
  | some _ => releaseHeld r.2 l
  | none => r.2

/-- The link receives beads: trained far enough, and not stopped (R146, R151). -/
def rxLive (s : State) (l : Nat) : Bool := decide (4 ≤ lnkState s l) && decide (lnkState s l ≤ 7)

/-- A PLANNED or VOID bead is foreign to a fenced link (R164). -/
def fencedOut (s : State) (l : Nat) (h : W64) : Bool :=
  rd s (rLNK_FENCE l) fLNK_FENCE_ENABLE = 1 &&
    (rd s (rLNK_FENCE l) fLNK_FENCE_TAG = 0 || decide (rd s (rLNK_FENCE l) fLNK_FENCE_TAG ≠ hEpoch h))

/-- Transmit credits: 256 since the link came UP, less those out and not returned (R161). -/
def credits (x : Link) : Nat := 256 - (x.credOut + 2 ^ 16 - x.credBack) % 2 ^ 16

def credNote (s : State) (l : Nat) : State := wr s (rLNK_CREDIT l) fLNK_CREDIT_AVAIL (credits (getLink s l))

/-- A control word waits for the next CTRL bead (R162). -/
def ctrlPush (s : State) (l : Nat) (w : Nat) : State := modLink s l fun x => { x with ctrlq := x.ctrlq ++ [BitVec.ofNat 64 w] }

/-- A control word on every UP link (R163). -/
def ctrlAll (s : State) (w : Nat) : State :=
  (List.range 24).foldl (fun s l => if lnkState s l = 6 then ctrlPush s l w else s) s

/-! ### Replay requests (R134, R156) -/

/-- The window of 256 slots a tick lies in (R111). -/
def slotWindow (t : Nat) : Nat := t / 1024

/-- LINK 0x003 against the running plans on a link (R134). -/
def fluxOut (s : State) (l : Nat) : State :=
  (ctxsOn s l isRunning).foldl (fun s c => fwdRaise s c { faultInfo 0x4003 8 l 0 with d0 := s.now / 4 }) s

/-- One more replay request in its window; one too many exhausts the flux budget (R133, R134). -/
def countReq (s : State) (l : Nat) : State :=
  let x := getLink s l
  let w := slotWindow s.now
  let n := if x.reqWin = w then rd s (rFWD_LNK_FLUX l) fFWD_LNK_FLUX_WIN_NOW else 0
  let s1 := modLink s l fun x => { x with reqWin := w }
  let s2 := keepMax (wr s1 (rFWD_LNK_FLUX l) fFWD_LNK_FLUX_WIN_NOW (min (n + 1) 255)) (rFWD_LNK_FLUX l) fFWD_LNK_FLUX_WIN_MAX (n + 1)
  if 256 / fluxN s l ≤ n then fluxOut s2 l else s2

/-- A NAK for sequence q, explicit or implicit: ignored, queued, or answered with SKIP (R156). -/
def nakEff (s0 : State) (l q : Nat) : State :=
  let s := modLink s0 l fun x => { x with nakIn := insertNat q x.nakIn }
  let x := getLink s l
  if x.rplq.any fun r => r.bead.seq = q then s
  else match x.ring.find? (·.seq = q) with
    | some b => countReq (modLink s l fun x => { x with rplq := x.rplq ++ [{ bead := b, req := s.now }] }) l
    | none => bump (ctrlPush s l (7 * 2 ^ 56 + q % 4096)) (rLNK_RPL2 l) fLNK_RPL2_SKIP_SENT

end Machine
end Sys2Proof
end

