-- ==== Sys2Proof/Machine/Numeric.lean ====
section
/-! DEFINITION. Element formats, rounding and exact arithmetic (chapter 3, R59 to R70): values are exact
(sign, magnitude, power of two), and each result is narrowed once. -/
namespace Sys2Proof
namespace Machine

/-- An exact value: NaN, an infinity, or (-1)^neg * m * 2^e. -/
inductive Num where
  | nan
  | inf (neg : Bool)
  | fin (neg : Bool) (m : Nat) (e : Int)
  deriving DecidableEq, Repr

/-- How a floating-point format treats its top codes (R59). -/
inductive Top where
  /-- Infinities and NaNs as IEEE 754. -/
  | ieee
  /-- Only the all-ones code is NaN; no infinity (E4M3). -/
  | nanOnly
  /-- Every code is finite (the MX elements). -/
  | allFinite
  deriving DecidableEq, Repr

/-- A floating-point format: exponent and mantissa bits, bias, top codes, and whether finite overflow saturates (R59, R65). -/
structure FFmt where
  eb   : Nat
  mb   : Nat
  bias : Nat
  top  : Top
  sat  : Bool
  deriving DecidableEq, Repr

def fmtE4M3 : FFmt := ⟨4, 3, 7, .nanOnly, true⟩
def fmtE5M2 : FFmt := ⟨5, 2, 15, .ieee, true⟩
def fmtE2M1 : FFmt := ⟨2, 1, 1, .allFinite, true⟩
def fmtE3M2 : FFmt := ⟨3, 2, 3, .allFinite, true⟩
def fmtE2M3 : FFmt := ⟨2, 3, 1, .allFinite, true⟩
def fmtBF16 : FFmt := ⟨8, 7, 127, .ieee, false⟩
def fmtFP16 : FFmt := ⟨5, 10, 15, .ieee, false⟩
def fmtFP32 : FFmt := ⟨8, 23, 127, .ieee, false⟩

/-- The floating-point format of a format code (R59); the integer and reserved codes have none. -/
def ffmtOf (c : BitVec 4) : Option FFmt :=
  if c = 0x0 then some fmtE4M3
  else if c = 0x1 then some fmtE5M2
  else if c = 0x3 then some fmtE2M1
  else if c = 0x5 then some fmtE3M2
  else if c = 0x6 then some fmtE2M3
  else if c = 0x8 then some fmtBF16
  else if c = 0x9 then some fmtFP16
  else if c = 0xA then some fmtFP32
  else none

/-- Encoding, without the sign, of the largest finite value. -/
def maxFin (f : FFmt) : Nat :=
  match f.top with
  | .ieee => ((2 ^ f.eb - 1) <<< f.mb) - 1
  | .nanOnly => 2 ^ (f.eb + f.mb) - 2
  | .allFinite => 2 ^ (f.eb + f.mb) - 1

/-- The canonical NaN of a format (R61). -/
def canonNan (f : FFmt) : Nat :=
  match f.top with
  | .nanOnly => 2 ^ (f.eb + f.mb) - 1
  | _ => if f.eb = 5 && f.mb = 2 then 0x7F else ((2 ^ f.eb - 1) <<< f.mb) + 2 ^ (f.mb - 1)

/-- The value of an encoding (R59). -/
def decodeF (f : FFmt) (bits : Nat) : Num :=
  let neg := (bits >>> (f.eb + f.mb)) % 2 == 1
  let mag := bits % 2 ^ (f.eb + f.mb)
  let ex := mag >>> f.mb
  let fr := mag % 2 ^ f.mb
  if mag > maxFin f then
    (if f.top = .ieee && fr = 0 then .inf neg else .nan)
  else if ex = 0 then .fin neg fr (1 - (f.bias : Int) - f.mb)
  else .fin neg (2 ^ f.mb + fr) ((ex : Int) - f.bias - f.mb)

/-- Rounding of R37 and R70: the four IEEE directions, or stochastic with the lane's random word. -/
inductive Rnd where
  | nearest
  | zero
  | down
  | up
  | stoch (r : Nat)
  deriving DecidableEq, Repr

/-- Number of bits of a natural number. -/
def bitLen (n : Nat) : Nat := if n = 0 then 0 else Nat.log2 n + 1

/-- Whether the magnitude `lo + rem / 2^sh` rounds up to `lo + 1` (R66, R70). -/
def roundUp (rm : Rnd) (neg : Bool) (lo rem sh : Nat) : Bool :=
  if rem = 0 then false
  else match rm with
    | .nearest => decide (2 ^ sh < 2 * rem) || (decide (2 * rem = 2 ^ sh) && lo % 2 == 1)
    | .zero => false
    | .down => neg
    | .up => !neg
    | .stoch r => decide (2 ^ 32 ≤ (rem <<< 32) / 2 ^ sh + r)

/-- m * 2^e rounded to a multiple of 2^q, in units of 2^q. -/
def quantise (rm : Rnd) (neg : Bool) (m : Nat) (e q : Int) : Nat :=
  if q ≤ e then m <<< (e - q).toNat
  else
    let sh := (q - e).toNat
    let lo := m >>> sh
    let rem := m % 2 ^ sh
    if roundUp rm neg lo rem sh then lo + 1 else lo

/-- Magnitude of a finite overflow: the FP8 and MX formats saturate; BF16 and FP16 go to infinity whatever the rounding (R65, R68);
FP32 follows the direction (R66). -/
def overflowF (f : FFmt) (rm : Rnd) (neg : Bool) : Nat :=
  if f.sat || f.top ≠ .ieee then maxFin f
  else if f.mb ≠ 23 then maxFin f + 1
  else match rm with
    | .zero => maxFin f
    | .down => if neg then maxFin f + 1 else maxFin f
    | .up => if neg then maxFin f else maxFin f + 1
    | _ => maxFin f + 1

/-- The magnitude part of an encoding, rounded once. -/
def encodeMag (f : FFmt) (rm : Rnd) (neg : Bool) (m : Nat) (e : Int) : Nat :=
  if m = 0 then 0
  else
    let qmin : Int := 1 - (f.bias : Int) - f.mb
    let top : Int := (bitLen m : Int) - 1 + e
    let q := max (top - f.mb) qmin
    let r := quantise rm neg m e q
    let enc := ((q - qmin).toNat <<< f.mb) + r
    if enc > maxFin f then overflowF f rm neg else enc

/-- An exact value narrowed once to a format (R61, R65, R66, R68, R70). -/
def encodeF (f : FFmt) (rm : Rnd) (x : Num) : Nat :=
  let sgn (neg : Bool) : Nat := if neg then 2 ^ (f.eb + f.mb) else 0
  match x with
  | .nan => canonNan f
  | .inf neg => sgn neg + (if f.top = .ieee then (2 ^ f.eb - 1) <<< f.mb else maxFin f)
  | .fin neg m e => sgn neg + encodeMag f rm neg m e

def ofF32 (w : W32) : Num := decodeF fmtFP32 w.toNat
def toF32 (rm : Rnd) (x : Num) : W32 := BitVec.ofNat 32 (encodeF fmtFP32 rm x)
def nan32 : W32 := 0x7FC00000

/-- A signed magnitude as an exact value. -/
def ofInt (i : Int) (e : Int) : Num := .fin (decide (i < 0)) i.natAbs e

/-- The signed coefficient of a finite value. -/
def coef (neg : Bool) (m : Nat) : Int := if neg then -(m : Int) else m

/-- Exact sum, with the sign of an exact zero by the rounding direction (R66). -/
def addN (rm : Rnd) (x y : Num) : Num :=
  match x, y with
  | .nan, _ => .nan
  | _, .nan => .nan
  | .inf a, .inf b => if a = b then .inf a else .nan
  | .inf a, _ => .inf a
  | _, .inf b => .inf b
  | .fin a m e, .fin b n g =>
    let k := min e g
    let s := coef a (m <<< (e - k).toNat) + coef b (n <<< (g - k).toNat)
    if s = 0 then .fin (if m = 0 && n = 0 && a = b then a else decide (rm = .down)) 0 0
    else .fin (decide (s < 0)) s.natAbs k

def negN : Num → Num
  | .nan => .nan
  | .inf a => .inf (!a)
  | .fin a m e => .fin (!a) m e

/-- Exact product. -/
def mulN (x y : Num) : Num :=
  match x, y with
  | .nan, _ => .nan
  | _, .nan => .nan
  | .inf a, .inf b => .inf (a != b)
  | .inf a, .fin b m _ => if m = 0 then .nan else .inf (a != b)
  | .fin a m _, .inf b => if m = 0 then .nan else .inf (a != b)
  | .fin a m e, .fin b n g => .fin (a != b) (m * n) (e + g)

/-- Total order key of a non-NaN FP32 encoding, with -0 below +0 (R66). -/
def ordKey (w : W32) : Int := if w.msb then -((w.toNat % 2 ^ 31 : Nat) : Int) - 1 else w.toNat

def isNan (w : W32) : Bool := decide (ofF32 w = .nan)

def maxF (a b : W32) : W32 :=
  if isNan a || isNan b then nan32 else if ordKey a < ordKey b then b else a
def minF (a b : W32) : W32 :=
  if isNan a || isNan b then nan32 else if ordKey b < ordKey a then b else a

/-- FP32 comparison of R67: `none` when unordered. -/
def cmpF (a b : W32) : Option Ordering :=
  if isNan a || isNan b then none
  else
    let k (w : W32) : Int := if w.toNat % 2 ^ 31 = 0 then 0 else ordKey w
    some (compare (k a) (k b))

/-- An exact value rounded to an integer and saturated; NaN gives 0 (R68). -/
def toIntSat (rm : Rnd) (lo hi : Int) (x : Num) : Int :=
  match x with
  | .nan => 0
  | .inf neg => if neg then lo else hi
  | .fin neg m e => max lo (min hi (coef neg (quantise rm neg m e 0)))

/-- The value of an element held in `bits` in a format code, with INT8 and MXINT4 (R59, R60). -/
def elemVal (c : BitVec 4) (bits : Nat) : Num :=
  match ffmtOf c with
  | some f => decodeF f bits
  | none =>
    if c = 0x2 then ofInt (BitVec.ofNat 8 bits).toInt 0
    else ofInt (BitVec.ofNat 4 bits).toInt (-2)

/-- Narrowing of an FP32 value to a drain or store format (R65, R68). -/
def narrowTo (c : BitVec 4) (rm : Rnd) (x : Num) : Nat :=
  match ffmtOf c with
  | some f => encodeF f rm x
  | none => (BitVec.ofInt 8 (toIntSat rm (-128) 127 x)).toNat

/-- VCVT of one lane (R68): `src` 0xA, 0xB or 0xC. -/
def vcvtLane (src dst : BitVec 4) (rm : Rnd) (w : W32) : W32 :=
  let x : Num := if src = 0xA then ofF32 w
    else if src = 0xB then ofInt w.toInt 0
    else ofInt w.toNat 0
  if dst = 0xA then toF32 rm x
  else if dst = 0xB then BitVec.ofInt 32 (toIntSat rm (-(2 ^ 31)) (2 ^ 31 - 1) x)
  else if dst = 0xC then BitVec.ofInt 32 (toIntSat rm 0 (2 ^ 32 - 1) x)
  else if dst = 0x2 then toF32 .nearest (ofInt (toIntSat rm (-128) 127 x) 0)
  else match ffmtOf dst with
    | some f => toF32 .nearest (decodeF f (encodeF f rm x))
    | none => w

/-! ### The transcendental pipe (R69)

The exact result is bracketed by its two neighbours in FP32, and the part's fixed function picks one of them: an error below one
unit in the last place is no more and no less. A result that FP32 holds exactly is that result. -/

/-- The greatest r below 2^k, or of r's top bits added so far, with r^2 at most n. -/
def isqrtFrom (n : Nat) : Nat → Nat → Nat
  | 0, r => r
  | k + 1, r => isqrtFrom n k (if (r + 2 ^ k) * (r + 2 ^ k) ≤ n then r + 2 ^ k else r)

/-- The integer square root of a number below 2^(2k). -/
def isqrt (k n : Nat) : Nat := isqrtFrom n k 0

/-- m * 2^e, or a value strictly between it and (m + 1) * 2^e. -/
def stickyN (neg : Bool) (m : Nat) (e : Int) (exact_ : Bool) : Num :=
  if exact_ then .fin neg m e else .fin neg (2 * m + 1) (e - 1)

/-- One of the two neighbours of a result: the part's choice for this operation and input (log 103). -/
def pickUlp (op : Nat) (w : W32) (x : Num) : W32 :=
  if Config.ulpAway op w then toF32 (match x with | .fin true .. => .down | _ => .up) x else toF32 .zero x

/-- 1/(m * 2^e). -/
def rcpN (neg : Bool) (m : Nat) (e : Int) : Num := stickyN neg (2 ^ 200 / m) (-200 - e) (decide (2 ^ 200 % m = 0))

/-- 1/√(m * 2^e). -/
def rsqrtN (m : Nat) (e : Int) : Num :=
  let m2 := if e % 2 = 0 then m else 2 * m
  let e2 := if e % 2 = 0 then e / 2 else (e - 1) / 2
  let q := 2 ^ 400 / m2
  let r := isqrt 201 q
  stickyN false r (-200 - e2) (decide (r * r * m2 = 2 ^ 400))

/-- 2^(F / 2^160) as a multiple of 2^-200: the product of the roots 2^(2^-i) that the bits of F name, c being the root for i. -/
def exp2Frac (F : Nat) : Nat → Nat → Nat → Nat
  | 0, _, p => p
  | i + 1, c, p => exp2Frac F i (isqrt 201 (c * 2 ^ 200)) (if F.testBit i then p * c / 2 ^ 200 else p)

/-- 2^x for x a multiple of 2^-160. -/
def exp2N (x : Int) : Num :=
  let f := (x % 2 ^ 160).toNat
  stickyN false (exp2Frac f 160 (isqrt 201 (2 * 2 ^ 400)) (2 ^ 200)) (x / 2 ^ 160 - 200) (decide (f = 0))

/-- n bits of the fraction of log2 y, for y between 1 and 2 as a multiple of 2^-384. -/
def log2Frac : Nat → Nat → Nat → Nat
  | 0, _, a => a
  | n + 1, y, a =>
    let z := y * y / 2 ^ 384
    if 2 ^ 385 ≤ z then log2Frac n (z / 2) (2 * a + 1) else log2Frac n z (2 * a)

/-- log2 (m * 2^e). -/
def log2N (m : Nat) (e : Int) : Num :=
  let k := bitLen m - 1
  let whole : Int := (k + e) * 2 ^ 128
  if m = 2 ^ k then ofInt (k + e) 0
  else
    let v : Int := 2 * (whole + log2Frac 128 (m * 2 ^ (384 - k)) 0) + 1
    ofInt v (-129)

/-- VEXP2 (R69); 2^±0 is exactly 1 (log 115). -/
def exp2V (w : W32) : W32 :=
  match ofF32 w with
  | .nan => nan32
  | .inf neg => if neg then 0 else 0x7F800000
  | .fin neg m e =>
    if 128 ≤ (m <<< e.toNat) >>> (-e).toNat && !neg then 0x7F800000
    else if neg && 149 * 2 ^ (-e).toNat < m <<< e.toNat then 0
    else pickUlp 0 w (exp2N (coef neg m * 2 ^ (e + 160).toNat))

/-- VLOG2 (R69). -/
def log2V (w : W32) : W32 :=
  match ofF32 w with
  | .nan => nan32
  | .inf neg => if neg then nan32 else 0x7F800000
  | .fin neg m e =>
    if m = 0 then 0xFF800000
    else if neg then nan32
    else pickUlp 1 w (log2N m e)

/-- VRCP (R69). -/
def rcpV (w : W32) : W32 :=
  match ofF32 w with
  | .nan => nan32
  | .inf neg => if neg then 0x80000000 else 0
  | .fin neg m e => if m = 0 then (if neg then 0xFF800000 else 0x7F800000) else pickUlp 2 w (rcpN neg m e)

/-- VRSQRT (R69). -/
def rsqrtV (w : W32) : W32 :=
  match ofF32 w with
  | .nan => nan32
  | .inf neg => if neg then nan32 else 0
  | .fin neg m e =>
    if m = 0 then (if neg then 0xFF800000 else 0x7F800000)
    else if neg then nan32
    else pickUlp 3 w (rsqrtN m e)

/-! ### The dot product of the matrix array (R63, R64) -/

/-- Bit length position T of a term: smallest T with |term| < 2^T. -/
def termTop (x : Num) : Option Int :=
  match x with
  | .fin _ m e => if m = 0 then none else some ((bitLen m : Int) + e)
  | _ => none

/-- A term rounded toward minus infinity to a multiple of 2^q, and whether it lost bits. -/
def termFloor (q : Int) (x : Num) : Int × Bool :=
  match x with
  | .fin neg m e =>
    if q ≤ e then (coef neg (m <<< (e - q).toNat), false)
    else
      let sh := (q - e).toNat
      (Int.fdiv (coef neg m) (2 ^ sh), decide (m % 2 ^ sh ≠ 0))
  | _ => (0, false)

/-- Special values first (R64), then the fused sum of R63. -/
def dotF (terms : List Num) : W32 :=
  if terms.any (· = .nan) then nan32
  else
    let pi := terms.any (· = .inf false)
    let ni := terms.any (· = .inf true)
    if pi && ni then nan32
    else if pi then 0x7F800000
    else if ni then 0xFF800000
    else
      match (terms.filterMap termTop).foldl (fun o t => some (match o with | none => t | some u => max t u)) (none : Option Int) with
      | none => 0
      | some tp =>
        let q := tp - 64
        let parts := terms.map (termFloor q)
        let s : Int := parts.foldl (fun a p => a + p.1) (0 : Int)
        let sticky := parts.any (·.2)
        if s = 0 then 0
        else
          let wide : Int := s * ((2 ^ 300 : Nat) : Int) + (if sticky then 1 else 0)
          toF32 .nearest (.fin (decide (wide < 0)) wide.natAbs (q - 300))

/-! ### Alloy (R73 to R77) -/

/-- e(x) with the sentinels EZERO and ENAN (R73). -/
def alloyExp (w : W32) : Int :=
  match ofF32 w with
  | .fin _ m e => if m = 0 then -32768 else (bitLen m : Int) + e
  | _ => 32767

/-- VAENC of one lane at exponent E (R75). -/
def alloyEnc (ex : Int) (w : W32) : BitVec 64 :=
  match ofF32 w with
  | .fin neg m e => BitVec.ofInt 64 (coef neg (quantise .nearest neg m (e + 46 - ex) 0))
  | _ => 0

/-- VADEC of one lane (R77). -/
def alloyDec (ex : Int) (bf : Bool) (i : BitVec 64) : W32 :=
  if ex = 32767 then nan32
  else if ex = -32768 then 0
  else
    let x := ofInt i.toInt (ex - 46)
    if bf then toF32 .nearest (decodeF fmtBF16 (encodeF fmtBF16 .nearest x)) else toF32 .nearest x

end Machine
end Sys2Proof
end

