-- ==== Sys2Proof/Machine/SlotOps.lean ====
section
/-! DEFINITION. What leaves on a link in a bead period (05 R108 to R127, R136; 06 R154, R161, R162; 07 R183, R188; 01 R14, R15):
the planned bead, a replay, a control, discovery or sync bead, an open-class bead, or an empty one. -/
namespace Sys2Proof
namespace Machine

/-! ### Fold (R125, R126) -/

def signed (w v : Nat) : Int := if v % 2 ^ w < 2 ^ (w - 1) then (v % 2 ^ w : Nat) else ((v % 2 ^ w : Nat) : Int) - 2 ^ w

def foldWidth (fop : Nat) : Nat := if fop = 1 then 64 else if fop = 2 then 16 else 32

/-- One lane of a Fold; none when an ASUM64 sum leaves the signed 64-bit range. -/
def foldLane (fop a b : Nat) : Option Nat :=
  if fop = 1 then
    let v := signed 64 a + signed 64 b
    if v < -(2 ^ 63) ∨ 2 ^ 63 ≤ v then none else some (BitVec.ofInt 64 v).toNat
  else if fop = 2 then some (if signed 16 a < signed 16 b then b else a)
  else if fop = 3 then some ((a + b) % 2 ^ 32)
  else if fop = 4 then some (if signed 32 a < signed 32 b then b else a)
  else if fop = 5 then some (maxF (BitVec.ofNat 32 a) (BitVec.ofNat 32 b)).toNat
  else some (minF (BitVec.ofNat 32 a) (BitVec.ofNat 32 b)).toNat

/-- A Fold of two payloads: the result, or the lowest lane that overflows. -/
def foldBeads (fop : Nat) (a b : BitVec 2560) : BitVec 2560 ⊕ Nat :=
  let w := foldWidth fop
  let ls := (List.range (2560 / w)).map fun i => foldLane fop (payLane a w i) (payLane b w i)
  match ls.findIdx? Option.isNone with
  | some i => .inr i
  | none => .inl (payOf w (ls.map fun o => o.getD 0))

/-! ### Assembly buffer (R121) -/

def abufZero : ABufE := { pay := 0, valid := 0, full := 0, freeAt := none, old := none }
def getAbuf (s : State) (e : Nat) : ABufE := tget (fun _ => abufZero) s.abuf e
def setAbuf (s : State) (e : Nat) (x : ABufE) : State := { s with abuf := tset (fun _ => abufZero) s.abuf e x }

/-- The payload of an entry whose five valid bits are set at tick t. -/
def abufAt (x : ABufE) (t : Nat) : Option (BitVec 2560) :=
  if x.valid = 31 && decide (x.full ≤ t) && (match x.freeAt with | some f => decide (t < f) | none => true) then some x.pay
  else match x.old with
    | some (p, f, g) => if f ≤ t ∧ t < g then some p else none
    | none => none

/-- The entry is freed at tick t (R121 REL). -/
def abufFree (s : State) (e t : Nat) : State := setAbuf s e { getAbuf s e with freeAt := some t }

/-- An entry whose free tick has come is empty again. -/
def abufSettle (x : ABufE) (now : Nat) : ABufE :=
  match x.freeAt with
  | some f => if f ≤ now then { pay := 0, valid := 0, full := 0, freeAt := none, old := some (x.pay, x.full, f) } else x
  | none => x

/-- Module entry of an ABUF number of a plan (R121, R238). -/
def abufOf (p : Plan) (n : Nat) : Nat := 32 * p.bankBase + n

/-! ### The planned bead of a slot (R113 to R127, R136) -/

/-- The slots of a context go VOID at tick t: a fault of the plane from the next boundary, any other from 8 ticks on (R136, R282). -/
def voidAt (x : Ctx) (t : Nat) : Bool :=
  (match x.fwdStop with | some b => decide (b ≤ t) | none => false) ||
  (match x.faultTick with | some f => decide (4 * ((f + 11) / 4) ≤ t) | none => false)

/-- A context whose bead program keeps its timing: running, or faulted after it ran (R136). -/
def keepsProgram (x : Ctx) : Bool := x.ran && (x.plan = .running || x.plan = .faulted)

/-- Ticks from release to a FOLD departure or a receive Fold's first word (R119, R247). -/
def foldLat (p : Plan) : Nat := if p.lc2 then 8 else 12

/-- The record of a fault at a slot of a link (R140, R252, R281). -/
def slotFault (code : BitVec 16) (l h k d0 d1 : Nat) : FaultInfo :=
  { code := code, engine := 8, unit := l, offset := planOffset h k, d0 := d0, d1 := d1, d2 := 0 }

/-- The contexts whose program can place a bead: those with a plan, and those a recovery closed (R136, R137). -/
def programs (s : State) : List (CtxId × Ctx × Bool) :=
  (allCtx.map fun c : CtxId => (c, getCtx s c, false)) ++ s.recov.map fun e => (e.1, e.2, true)

/-- The transmit entry of the present slot on a link with a KIND other than none. -/
def plannedAt (s : State) (l slot : Nat) : Option (CtxId × Ctx × Plan × Bool × Nat × Nat × TxE) :=
  (programs s).findSome? fun e =>
    match e.2.1.image with
    | some p =>
      if keepsProgram e.2.1 then
        match txEntry p e.2.1 e.2.1.rs l slot with
        | some (h, k, t) => if t.kind = 0 then none else some (e.1, e.2.1, p, e.2.2, h, k, t)
        | none => none
      else none
    | none => none

/-- The bead of context c released from link l at tick t (R119). -/
def releasedAt (s : State) (c : CtxId) (l t : Nat) : Option (BitVec 2560) :=
  (s.rel.find? fun r => r.tick = t && r.link = l && r.ctx = c).map (·.pay)

/-- The payload of a planned slot, or none where it departs as VOID (R117, R121, R126, R127). -/
def planPayload (s : State) (l slot : Nat) (c : CtxId) (p : Plan) (h k : Nat) (e : TxE) : Option (BitVec 2560) × State :=
  if e.kind = 1 then
    let n := abufOf p e.abuf
    match abufAt (getAbuf s n) (s.now - 4) with
    | some b => (some b, if e.rel then abufFree s n s.now else s)
    | none => (none, fwdRaise (bump s (rFWD_LNK_TX l) fFWD_LNK_TX_NOTREADY) c (slotFault 0x4005 l h k slot 0))
  else if e.kind = 2 then (releasedAt s c e.srca (s.now - 4), s)
  else
    let t := s.now - foldLat p
    let b := if e.bsel then releasedAt s c e.srcb t
      else ((s.foldB.find? fun f => f.tick = s.now && f.link = l && f.ctx = c).map (·.pay)).join
    match releasedAt s c e.srca t, b with
    | some a, some b =>
      match foldBeads e.fop a b with
      | .inl v => (some v, s)
      | .inr lane => (none, fwdRaise s c (slotFault 0x2010 l h k lane slot))
    | _, _ => (none, s)

/-! ### Sending a bead (R109, R154) -/

/-- The reverse acknowledgement of a bead that departs now (R154): the oldest due NAK, or the cumulative ACK. -/
def ackOut (s : State) (l : Nat) : Nat × Bool × State :=
  let x := getLink s l
  match x.naks with
  | (q, t) :: rest =>
    if t + 4 ≤ s.now then
      (q + 4095, true, bump (setLink s l { x with naks := rest, nakOut := insertNat q x.nakOut }) (rLNK_RPL0 l) fLNK_RPL0_NAK_SENT)
    else (x.rxCum + 4095, false, s)
  | [] => (x.rxCum + 4095, false, s)

/-- Transmit stamps of a departing bead of a class (R228). -/
def stampOut (s : State) (l cls : Nat) : State :=
  if rd s rTIM_TS_ARM fTIM_TS_ARM_LINK ≠ l then s
  else
    let item (id : Nat) : W64 := BitVec.ofNat 64 (id * 2 ^ 48 + l * 2 ^ 43 + s.now / 4 % 2 ^ 43)
    let s1 := if s.tim.tsArm && (cls = 3 || cls = 4 || cls = 5) then
        { caneOne s 0 (item (rd s rTIM_TS_ARM fTIM_TS_ARM_ID)) with tim := { s.tim with tsArm := false } } else s
    if cls = 4 && rd s rTIM_TS_ARM fTIM_TS_ARM_SYNC_STAMP = 1 then caneOne s1 0 (item 0xFFFF) else s1

/-- A new bead departs: it takes the next LSEQ and enters the replay ring (R154, R155), and is counted (R329). -/
def sendBead (s : State) (l cls : Nat) (fil : Bool) (stok gen slot epoch : Nat) (pay : BitVec 2560) : State :=
  let (ack, nak, s0) := ackOut s l
  let s1 := if cls = 1 then { s0 with lnkPlan := tset (fun _ => 0) s0.lnkPlan l (tget (fun _ => 0) s0.lnkPlan l + 1) }
    else if cls = 2 || cls = 3 then { s0 with lnkOpen := tset (fun _ => 0) s0.lnkOpen l (tget (fun _ => 0) s0.lnkOpen l + 1) }
    else s0
  let x := getLink s1 l
  let h := withAck (mkHdr cls false fil x.txSeq stok gen (if fil then 0 else slot) epoch) ack nak
  let b : SentBead := { seq := x.txSeq, hdr := h, pay := pay, at_ := s.now }
  let s2 := setLink s1 l { x with txSeq := x.txSeq + 1, ring := (b :: x.ring).take 256, idleSince := if cls = 0 then x.idleSince else s.now
                                  out := some b }
  stampOut s2 l cls

/-- The copy of a replay that departs now: RPL set, the original LSEQ and SLOT, and the ACK and NAK of its own departure (R133). -/
def replayCopy (b : SentBead) (ack : Nat) (nak : Bool) (now : Nat) : SentBead :=
  { b with hdr := withAck (b.hdr ||| BitVec.ofNat 64 (2 ^ 59)) ack nak, at_ := now }

/-- A replay departs (R133). -/
def sendReplay (s : State) (l : Nat) (r : Replay) : State :=
  let (ack, nak, s1) := ackOut s l
  bump (modLink s1 l fun x => { x with rplq := x.rplq.filter fun q => q.bead.seq ≠ r.bead.seq, out := some (replayCopy r.bead ack nak s.now) })
    (rFWD_LNK_FLUX l) fFWD_LNK_FLUX_REPLAYS

/-! ### Control, HELLO and SYNC beads (R162, R168, R220) -/

/-- The start tick of a grant that departs now: the first multiple of 256 at least 2,048 ticks later (R149). -/
def grantStart (now : Nat) : Nat := 256 * ((now + 2048 + 255) / 256)

/-- The words of a CTRL bead as they depart: a MEASURE reply states its turnaround, held until then as the tick its probe
was present (R148), and a first RT_GO states the start tick it then sets (R149). -/
def ctrlOut (s : State) (w : W64) : Nat :=
  if bits w 63 56 = 8 && w.getLsbD 47 then w.toNat - bits w 31 0 + (s.now + 2 ^ 32 - bits w 31 0) % 2 ^ 32
  else if bits w 63 56 = 3 && bits w 44 0 = 0 then w.toNat + grantStart s.now / 256 % 2 ^ 45
  else w.toNat

/-- Probes that depart now are noted for the round trip (R148). -/
def probesOf (ws : List W64) (now : Nat) : List (Nat × Nat) :=
  ws.filterMap fun w => if bits w 63 56 = 8 && !(w.getLsbD 47) then some (bits w 55 48, now) else none

def sendCtrl (s : State) (l slot : Nat) : State :=
  let x := getLink s l
  let ws := x.ctrlq.take 40
  let g := if ws.any fun w => bits w 63 56 = 3 && bits w 44 0 = 0 then
      x.grant.map fun g => { g with start := grantStart s.now } else x.grant
  let s1 := setLink s l { x with ctrlq := x.ctrlq.drop 40, probes := probesOf ws s.now ++ x.probes, grant := g }
  sendBead s1 l 6 false 0 0 slot 0 (payOf 64 (ws.map (ctrlOut s)))

/-- The payload of a SYNC bead that departs now (R220). -/
def syncPayload (s : State) (l : Nat) : BitVec 2560 :=
  let st := rd s rTIM_STATUS fTIM_STATUS_STATE
  let role := rd s rTIM_ROLE fTIM_ROLE_ROLE
  let e := tget (fun _ => none) s.tim.echo l
  let (etc, etf, rxc, rxf) := e.getD (0, 0, 0, 0)
  let b (x : Bool) (n : Nat) : Nat := if x then 2 ^ n else 0
  let flags := b (st = 4) 0 + b (st = 4 || st = 2 || st = 3) 1 + b (rd s rTIM_ROLE fTIM_ROLE_STANDBY = 1) 2 + b (role = 2) 3 + b e.isSome 4
  let dep := rd s rTIM_STATUS fTIM_STATUS_DEPTH
  let rate := rd s rTIM_RATE fTIM_RATE_RATE
  let at_ (n v : Nat) : Nat := v * 2 ^ (8 * n)
  BitVec.ofNat 2560
    (at_ 0 (s.now % 2 ^ 64) + at_ 8 s.tim.frac + at_ 12 rxf + at_ 16 rxc + at_ 24 etc + at_ 32 etf + at_ 36 flags +
     at_ 37 (if dep = 31 then 255 else dep) + at_ 40 rate + at_ 48 (if s.tim.rateAt = 0 then rate else s.tim.nextRate) +
     at_ 56 s.tim.rateAt + at_ 64 (rd s rTIM_STATUS fTIM_STATUS_MASTER_GID) +
     at_ 68 (rd s rTIM_STATUS fTIM_STATUS_MASTER_EPOCH) + at_ 72 (s.tim.masterSeq % 2 ^ 32) +
     at_ 80 (regGet s rTIM_TOD_SEC).toNat + at_ 88 (rd s rTIM_TOD_NS fTIM_TOD_NS_NS) + at_ 92 (rd s rTIM_TOD_NS fTIM_TOD_NS_FRAC) +
     at_ 96 (regGet s rTIM_TOD_INC).toNat)

def sendSpecial (s : State) (l slot : Nat) (e : BitVec 4 × BitVec 2560) : State :=
  let s1 := modLink s l fun x => { x with special := x.special.erase e }
  sendBead s1 l e.1.toNat false 0 0 slot 0 (if e.1 = 4 then syncPayload s1 l else e.2)

/-! ### Open-class beads (R161, R183, R188, R190, R191) -/

/-- The port of a link (R138); 0xF is none. -/
def portOf (s : State) (l : Nat) : Nat :=
  if l < 16 then (rd s rFWD_PORT_MAP0 fFWD_PORT_MAP0_PORT >>> (4 * l)) % 16
  else (rd s rFWD_PORT_MAP1 fFWD_PORT_MAP1_PORT >>> (4 * (l - 16))) % 16

/-- Beads queued for a port (R181, R188). -/
def portBeads (s : State) (p : Nat) : Nat :=
  ((List.range 24).map fun l => if portOf s l = p then ((getLink s l).txq.map fun j => j.nb - j.pos).sum else 0).sum

/-- The congestion-map entry of the present window (R190). -/
def cmapReg (s : State) (p : Nat) : Nat := rOPN_CMAP (s.now / 76800 % 256) p

/-- PEAK of a port follows the beads queued for it (R190). -/
def cmapPeak (s : State) (p : Nat) : State := if p < 8 then keepMax s (cmapReg s p) fOPN_CMAP_PEAK (portBeads s p) else s

/-- The next bead of a job, if it may depart now (R183). -/
def jobNext (s : State) (j : TxJob) : Option (BitVec 2560) :=
  if j.abort then some (BitVec.ofNat 2560 (312 * j.pos + 2 ^ 16 + 2 ^ 17))
  else match j.src with
    | none => if j.ready ≤ s.now then j.beads.head? else none
    | some m =>
      match (getLink s m).obuf[if j.mc then j.pos else 0]? with
      | some b => if b.at_ + 8 ≤ s.now then some b.pay else none
      | none => none

/-- The link may grant the head of a job: UP, compatible, not fenced against it, with credits for all its beads and, on
entering a ring, 14 more (R151, R169, R183). -/
def mayGrant (s : State) (l : Nat) (j : TxJob) : Bool :=
  lnkState s l = 6 && rd s (rLNK_STATUS l) fLNK_STATUS_INCOMPAT = 0 &&
    decide (j.nb + (if j.ring then 14 else 0) ≤ credits (getLink s l))

/-- The buffer a departed bead came from: a unicast bead leaves it at once, a multicast packet with its last copy (R161, R191). -/
def departSrc (s : State) (l : Nat) (j : TxJob) (last : Bool) : State :=
  match j.src with
  | none =>
    match last && j.mc, j.req with
    | true, some k =>
      let s1 := { s with outst := s.outst.map fun (o : Outst) => if o.key = k then { o with copies := o.copies - 1 } else o }
      match s1.outst.find? (·.key = k) with
      | some o => if o.copies = 0 then okReq s1 o (s.now + 1) else s1
      | none => s1
    | _, _ => s
  | some m =>
    if j.mc then
      if last then
        match (getLink s m).route with
        | some r =>
          let outs := r.outs.filter fun o => o.val ≠ l
          if outs = [] && !r.loc then
            bufNote (creditRet (modLink s m fun y => { y with obuf := y.obuf.drop r.nb, route := none }) m r.nb) m
          else modLink s m fun y => { y with route := some { r with outs := outs } }
        | none => s
      else s
    else
      bufNote (creditRet (modLink s m fun y => { y with obuf := y.obuf.drop 1, route := if last then none else y.route }) m 1) m

/-- A bead of the job departs: one credit is charged (R161), the port's map counts it (R190). -/
def sendOpen (s : State) (l : Nat) (fil : Bool) (slot : Nat) (j : TxJob) (b : BitVec 2560) : State :=
  let p := portOf s l
  let mark := j.pos = 0 && decide (rd s rOPN_CC_CTL fOPN_CC_CTL_MARK_THRESH < portBeads s p)
  let pay := if mark then b ||| BitVec.ofNat 2560 (2 ^ 99) else b
  let last := j.abort || fLast pay
  let s1 := if mark then bump s (cmapReg s p) fOPN_CMAP_MARKS else s
  let s2 := bump (cmapPeak s1 p) (cmapReg s p) fOPN_CMAP_BEADS
  let s3 := modLink s2 l fun x =>
    { x with credOut := (x.credOut + 1) % 2 ^ 16
             txq := if last then x.txq.erase j
               else { j with pos := j.pos + 1, beads := j.beads.drop 1, cm := j.cm || mark } :: x.txq.erase j }
  let s4 := if j.abort then s3 else departSrc s3 l j last
  credNote (sendBead s4 l (if j.mgmt then 3 else 2) fil 0 0 slot 0 pay) l

/-- A fenced link discards the job: an open packet whose head has not departed (R164). -/
def fencedJob (s : State) (l : Nat) (j : TxJob) : Bool := j.pos = 0 && !j.mgmt && decide (rd s (rLNK_FENCE l) fLNK_FENCE_ENABLE = 1)

/-- Open packets routed to a fenced link are discarded whole, and their requesters told (R164). -/
def fenceTx (s : State) (l : Nat) : State :=
  let x := getLink s l
  (x.txq.filter (fencedJob s l)).foldl
    (fun s j => dropSource (bump s (rLNK_FENCE_DROP l) fLNK_FENCE_DROP_FENCE_OPEN) l j)
    (setLink s l { x with txq := x.txq.filter fun j => !fencedJob s l j })

/-- The context of a job's request has stopped (R282). -/
def stoppedJob (s : State) (j : TxJob) : Bool :=
  match j.req with
  | some k => (match s.outst.find? (·.key = k) with | some o => (getCtx s o.ctx).stopped | none => false)
  | none => false

/-- The packet whose turn it is: the one in progress, else the oldest that waits; a stopped context starts no packet head (R183, R282). -/
def txTurn (s : State) (q : List TxJob) : Option TxJob :=
  match q.head? with
  | some j => if j.pos = 0 then q.find? fun k => !stoppedJob s k else some j
  | none => none

/-- A link carries open and management traffic: UP or draining, in a port, and toward a compatible neighbour (R138, R151, R169). -/
def carriesOpen (s : State) (l : Nat) : Bool :=
  lnkUp s l && decide (portOf s l < 8) && rd s (rLNK_STATUS l) fLNK_STATUS_INCOMPAT = 0

/-- The open-class bead the link may send now. -/
def openReady (s : State) (l : Nat) : Option (TxJob × BitVec 2560) :=
  match txTurn s (getLink s l).txq with
  | some j =>
    if !carriesOpen s l || (j.pos = 0 && !mayGrant s l j) then none
    else match jobNext s j with | some b => some (j, b) | none => none
  | none => none

/-! ### The slot (R14, R15, R112, R144) -/

/-- What a slot that is not planned carries (R14, R162): a replay in a flux slot, control, discovery, sync, open, empty. -/
def freeSlot (s : State) (l slot : Nat) : State :=
  let s0 := fenceTx s l
  let x := getLink s0 l
  let incompat := rd s0 (rLNK_STATUS l) fLNK_STATUS_INCOMPAT = 1
  let drain := lnkState s0 l = 7
  match (if fluxSlot s0 l slot then x.rplq.find? (fun r => decide (r.req + 4 ≤ s.now)) else none) with
  | some r => sendReplay s0 l r
  | none =>
    if x.ctrlq ≠ [] then sendCtrl s0 l slot
    else match x.special.find? (fun e => !(drain && e.1 = 5) && !(incompat && e.1 = 4)) with
      | some e => sendSpecial s0 l slot e
      | none =>
        match openReady s0 l with
        | some (j, b) => sendOpen s0 l false slot j b
        | none => sendBead s0 l 0 false 0 0 slot 0 0

/-- Key of a link's twin signature: the link, the step from launch and the window of 1,024 slots (R270). -/
def linkKey (l k w : Nat) : Nat := l + 24 * (k * 2 ^ 22 + w)

/-- The record of a PLANNED or VOID bead that departs in the twinned context's positions (R270). -/
def linkSig (s : State) (l slot : Nat) (c : CtxId) (x : Ctx) (p : Plan) (cls pay : Nat) : State :=
  if !twinOn s c then s
  else match slotInStep p x (resumeStep s c) slot with
    | none => s
    | some off =>
      let k := linkKey l (stepAt p (resumeStep s c) (4 * slot - x.launchAt)).1 (off / 1024)
      let h := crc64 (bytesLE 8 (off + cls * 2 ^ 32) ++ bytesLE 320 pay)
      { s with twin := { s.twin with sigs := tset (fun _ => 0) s.twin.sigs k (tget (fun _ => 0) s.twin.sigs k + h) } }

/-- The bead of a planned slot (R15, R113, R127, R136). -/
def plannedSlot (s : State) (l slot : Nat) (c : CtxId) (x : Ctx) (p : Plan) (dead : Bool) (h k : Nat) (e : TxE) : State :=
  let (pay, s1) := if dead || voidAt x s.now then (none, s) else planPayload s l slot c p h k e
  match pay with
  | some b => sendBead (linkSig s1 l slot c x p 1 b.toNat) l 1 false e.stok.toNat x.gen.toNat slot x.job.toNat b
  | none => sendBead (bump (linkSig s1 l slot c x p 7 0) (rFWD_LNK_TX l) fFWD_LNK_TX_VOID_OUT) l 7 false 0 x.gen.toNat slot x.job.toNat 0

/-- The bead of slot `slot` on a link (R14): formed at its boundary, and held for the raw bead period that carries it (R215). -/
def slotBead (s : State) (l slot : Nat) : State :=
  let s1 := modLink s l fun x => { x with lastSlot := some slot, txWait := true }
  if fluxSlot s l slot || !lnkUp s l || rd s (rLNK_STATUS l) fLNK_STATUS_INCOMPAT = 1 then freeSlot s1 l slot
  else match plannedAt s l slot with
    | some (c, x, p, dead, h, k, e) => plannedSlot s1 l slot c x p dead h k e
    | none => freeSlot s1 l slot

/-- A fill bead: open-class data if there is any, else empty (R112). -/
def fillBead (s : State) (l : Nat) : State :=
  let s1 := fenceTx s l
  match openReady s1 l with
  | some (j, b) => sendOpen s1 l true 0 j b
  | none => sendBead s1 l 0 true 0 0 0 0 0

/-- The bead that departed last goes onto the lanes in the raw bead period that begins (R143, R144). -/
def ontoLanes (s : State) (l : Nat) : State :=
  modLink s l fun x =>
    let r := match x.out with
      | some b => laneSend x.laneMap (activeLanes x.laneMap x.lanesOk (rd s (rLNK_STATUS l) fLNK_STATUS_WIDTH)) x.lanes (wireOf b.hdr b.pay)
      | none => ([], x.lanes)
    { x with lastLclk := s.lclk + 1, txWait := false, line := r.1, lanes := r.2 }

/-- A raw bead period of a link: every fourth LCLK edge from reset, or every eighth or sixteenth at reduced width (R112, R144; log 123). -/
def rawPeriod (s : State) (l : Nat) : Bool := s.lclk % beadTicks s l = 0 && decide ((getLink s l).lastLclk ≠ s.lclk + 1)

/-- The slot whose boundary is the present tick, if its bead has not been formed (R111, R144). -/
def slotDue (s : State) (l : Nat) : Bool := s.now % beadTicks s l = 0 && decide ((getLink s l).lastSlot ≠ some (s.now / 4))

/-- A link at a tick: the bead of the slot that begins is formed; a raw bead period carries the bead that waits, or a fill bead where
none does (R112, R215). A link in Link quiet, or that sends no beads, sends none (R146, R360). -/
def linkPeriod (s : State) (l : Nat) : State :=
  if !rxLive s l || lnkQuiet s l then s
  else
    let s1 := if slotDue s l then slotBead s l (s.now / 4) else s
    if rawPeriod s1 l then ontoLanes (if (getLink s1 l).txWait then s1 else fillBead s1 l) l else s1

end Machine
end Sys2Proof
end

