-- ==== Sys2Proof/Machine/TileCore.lean ====
section
/-! DEFINITION. The life of a tile in compute cycles (chapter 2): what each cc does, how a bundle is opened, and how a
tile faults. A control slot command opens the next bundle; another slot's command joins the open bundle while its
engine's slot is free, and otherwise opens a bundle of its own whose control slot is NOP (log 2). -/
namespace Sys2Proof
namespace Machine

/-! ### Registers of a tile (R24) -/

def lanes256 : List Nat := List.range 256
def zeros256 : List W32 := List.replicate 256 0
def accZero : AccRow := { lanes := List.replicate 128 0, isInt := false }
def wbZero : WBuf := { elems := 0, scales := 0, fmt := 0 }

def vreg (x : Tile) (r : Nat) : List W32 := tget (fun _ => zeros256) x.v (r % 32)
def setVreg (x : Tile) (r : Nat) (l : List W32) : Tile := { x with v := tset (fun _ => zeros256) x.v (r % 32) l }
/-- Q0 reads as all ones (R24). -/
def qreg (x : Tile) (q : Nat) : BitVec 256 := if q = 0 then BitVec.allOnes 256 else tget (fun _ => 0) x.q q
/-- A write to Q0 is ignored (R24). -/
def setQreg (x : Tile) (q : Nat) (b : BitVec 256) : Tile := if q = 0 then x else { x with q := tset (fun _ => 0) x.q q b }
/-- AD0 reads as 0 (R24). -/
def adreg (x : Tile) (a : Nat) : BitVec 20 := if a = 0 then 0 else tget (fun _ => 0) x.ad a
/-- A write to AD0 is ignored (R24). -/
def setAdreg (x : Tile) (a : Nat) (v : BitVec 20) : Tile := if a = 0 then x else { x with ad := tset (fun _ => 0) x.ad a v }
def accRow (x : Tile) (af row : Nat) : AccRow := tget (fun _ => accZero) x.acc (256 * af + row)
def setAccRow (x : Tile) (af row : Nat) (r : AccRow) : Tile := { x with acc := tset (fun _ => accZero) x.acc (256 * af + row) r }
def wbuf (x : Tile) (b : Nat) : WBuf := tget (fun _ => wbZero) x.wb b
def setWbuf (x : Tile) (b : Nat) (w : WBuf) : Tile := { x with wb := tset (fun _ => wbZero) x.wb b w }
def boxGet (b : Tbl (Option BoxWord)) (e : Nat) : Option BoxWord := tget (fun _ => none) b (e % 128)
def boxSet (b : Tbl (Option BoxWord)) (e : Nat) (w : Option BoxWord) : Tbl (Option BoxWord) := tset (fun _ => none) b (e % 128) w
def localCtr (x : Tile) (c : Nat) : W32 := tget (fun _ => 0) x.punty c

/-- Stream offset of a bundle-store index: the place of its block in the stream (R30, R58 TIL_POS). -/
def streamOff (x : Tile) (idx : Nat) : Nat := tget (fun b => 32 * b) x.blkOff (idx / 32) + idx % 32

/-- Work that the open bundle schedules: a fault of the bundle in its own cc takes it back (R56). -/
def sched (x : Tile) (at_ : Nat) (a : Act) : Tile := { x with made := x.made ++ [(at_, a)] }

/-- Work that an operation issued earlier goes on to. -/
def later (x : Tile) (at_ : Nat) (a : Act) : Tile := { x with acts := x.acts ++ [(at_, a)] }

/-- The capture tick of the present cc: the tick of its edge where the edge falls on the tick edge, else the next one (R200). -/
def captureAt (s : State) (t : Nat) : Nat :=
  if (getZone s (zoneOf t)).edge0 && (getTile s t).ran = (s.now, 1) then s.now else s.now + 1

/-- Steps from launch whose first boundary the tile's zone has seen pass (R54, R72, R200, R234). -/
def zoneSteps (s : State) (t : Nat) : Nat :=
  match (getTile s t).own with
  | some c =>
    match (getCtx s c).image with
    | some p => if (getCtx s c).launchAt + XI ≤ s.now then (stepAt p (resumeStep s c) (s.now - XI - (getCtx s c).launchAt)).1 else 0
    | none => 0
  | none => 0

/-- The latency class of the context that holds the tile (R248). -/
def isLc2 (s : State) (x : Tile) : Bool :=
  match x.own with
  | some c => (match (getCtx s c).image with | some p => p.lc2 | none => false)
  | none => false

/-! ### Faults of a tile (R56, R57) -/

/-- What the open bundle has not changed yet, kept for a fault of it. -/
def undoOf (x : Tile) : Undo where
  loops := x.loops
  fmts := ((wbuf x 0).fmt, (wbuf x 1).fmt)
  draw := x.draw
  mmaEnd := x.mmaEnd
  mmaWb := x.mmaWb
  mmaAf := x.mmaAf
  drainEnd := x.drainEnd
  trEnd := x.trEnd
  sendEnd := x.sendEnd
  recvEnd := x.recvEnd
  blkFrom := x.blkFrom

/-- The tile without its open bundle, which counts as not issued (R56). -/
def unissue (x : Tile) : Tile :=
  let x := setWbuf (setWbuf x 0 { wbuf x 0 with fmt := x.undo.fmts.1 }) 1 { wbuf x 1 with fmt := x.undo.fmts.2 }
  { x with made := [], bidx := x.cur, issued := x.issued - 1, stepIssue := x.stepIssue - 1, isOpen := false, sent := none
           loops := x.undo.loops, draw := x.undo.draw, mmaEnd := x.undo.mmaEnd, mmaWb := x.undo.mmaWb, mmaAf := x.undo.mmaAf
           drainEnd := x.undo.drainEnd, trEnd := x.undo.trEnd, sendEnd := x.undo.sendEnd, recvEnd := x.undo.recvEnd
           blkFrom := x.undo.blkFrom }

/-- The sync network without an operation that the faulting bundle put into it (R56). -/
def unsend (s : State) (i : Option SyncItem) : State :=
  match i with
  | some e => { s with syncNet := s.syncNet.erase e }
  | none => s

/-- The tile stops with the faulting bundle, which issues nothing: what its slots have scheduled, changed or sent so far is
taken back (R47, R56). The fault tick is the capture tick plus XO (R282). -/
def tileFault (s : State) (t : Nat) (slot : Nat) (code : BitVec 16) (d0 d1 : Nat) : State :=
  let x := getTile s t
  if x.st = .faulted then s
  else
    let s1 := if x.isOpen then setTile (unsend s x.sent) t { unissue x with st := .faulted, stall := none }
      else setTile s t { x with st := .faulted, stall := none }
    match x.own with
    | some c => raiseAt s1 c (captureAt s t + XO)
        { code := code, engine := slot, unit := t, offset := streamOff x (if x.isOpen then x.cur else x.bidx), d0 := d0, d1 := d1, d2 := 0 }
    | none => s1

/-! ### SRAM access of one cc (R45 to R49) -/

def bankOf (u : Nat) : Nat := 16 * (u / 2 ^ 18 % 2) + u % 16

/-- The engine slot of an act, as ENGINE of R280 codes it. -/
def Act.slot : Act → Nat
  | .rdV .. => 4 | .rdS .. => 4 | .rdWt .. => 2 | .rdA .. => 2 | .drop .. => 5 | .rdSc .. => 2 | .rdW .. => 2 | .wbLand .. => 2 | .rdB .. => 1
  | .rdOut .. => 5 | .rdC .. => 4 | .wr _ _ e _ => e | .wrIn .. => 5 | .drain .. => 2 | .setV p .. => if p = 0 then 3 else if p = 1 then 4 else 2
  | .setQ .. => 3 | .setAd .. => 1 | .seed .. => 1 | .pun .. => 1 | .accMma .. => 2 | .accClr .. => 2

/-- The lines an act reads and writes in its cc. -/
def Act.lines : Act → List Nat × List Nat
  | .rdV u n .. => ((List.range n).map (u + ·), [])
  | .rdS u st .. => ((List.range 16).map (fun k => u + k * st), [])
  | .rdA u _ => ([u], [])
  | .rdSc u => ([u], [])
  | .rdW u n .. => ((List.range n).map (u + ·), [])
  | .rdB u _ => ((List.range 16).map (u + ·), [])
  | .rdOut u .. => ([u], [])
  | .rdC u n .. => ((List.range n).map (u + ·), [])
  | .wr u d .. => ([], (List.range d.length).map (u + ·))
  | .wrIn u .. => ([], [u])
  | _ => ([], [])

/-- Banks involved when the limits of R46 are broken (R47), over the acts of one cc. -/
def involved (as : List Act) : List Nat :=
  let rs := as.flatMap (fun a => (Act.lines a).1.map bankOf)
  let ws := as.flatMap (fun a => (Act.lines a).2.map bankOf)
  (List.range 32).filter fun b =>
    decide (1 < rs.count b + ws.count b) || (decide (16 < rs.length) && rs.contains b) || (decide (16 < ws.length) && ws.contains b)

/-- The first two acts that use one bank, for the record of EXEC 0x001 (R47). -/
def slotsOn (as : List Act) (b : Nat) : List Nat :=
  as.flatMap fun a => ((Act.lines a).1 ++ (Act.lines a).2).filterMap fun u => if bankOf u = b then some (Act.slot a) else none

/-- The acts of a list that are due in cc c. -/
def dueIn (c : Nat) (l : List (Nat × Act)) : List Act := l.filterMap fun e => if e.1 = c then some e.2 else none

/-- What uses the SRAM in the present cc: operations issued earlier, and the open bundle's. -/
def actsNow (x : Tile) : List Act := dueIn x.cc x.acts ++ dueIn x.cc x.made

/-- EXEC 0x001 if the planned accesses of the present cc break R46: the banks involved stay marked for the cc (R47). The
record names the first two slots on the lowest bank involved; where a line limit alone is passed and the bank has one
access, it names that slot twice (log 106). -/
def bankCheck (s : State) (t : Nat) : State :=
  let x := getTile s t
  let as := actsNow x
  match involved as with
  | [] => s
  | b :: bs =>
    let sl := slotsOn as b
    tileFault (modTile s t fun x => { x with blocked := b :: bs }) t (sl.getD 0 4) 0x2001 ((sl.getD 1 (sl.getD 0 4)) * 16 + b * 2 ^ 16) 0

/-- One planned line read: corrected reads are counted, an uncorrectable one stops the tile and marks it (R47, R49, R100). -/
def planLine (s : State) (t slot : Nat) (inv : List Nat) (u : Nat) : BitVec 512 × State :=
  if inv.contains (bankOf u) then draw s
  else
    let p := physOf s t
    let (d, fixed, bad) := lineRead s (sramAddr t u)
    let s1 := bumpBy s (rTIL_SRAM_CE p) fTIL_SRAM_CE_COUNT fixed.length
    if bad then (d, tileFault (markFailed s1 p) t slot 0x3002 (bankOf u * 2 ^ 16 + u * 2 ^ 32) 0) else (d, s1)

def planLines (s : State) (t slot : Nat) (inv : List Nat) : List Nat → List (BitVec 512) × State
  | [] => ([], s)
  | u :: us =>
    let (d, s1) := planLine s t slot inv u
    let (ds, s2) := planLines s1 t slot inv us
    (d :: ds, s2)

/-- Lines as one number, the first line lowest. -/
def packLines (ds : List (BitVec 512)) : Nat := ds.foldr (fun d a => d.toNat + 2 ^ 512 * a) 0

def word32 (n : Nat) (l : Nat) : W32 := BitVec.ofNat 32 (n >>> (32 * l))

/-- A line write by the tile, with its twin record while twin mode is on (R270). -/
def planWrite (s : State) (t win u : Nat) (inv : List Nat) (d : BitVec 512) : State :=
  if inv.contains (bankOf u) then s
  else
    let s1 := lineWrite s (sramAddr t u) d
    match (getTile s t).own with
    | some c =>
      if twinOn s c && decide ((getTile s t).wclosed ≤ win) then
        modTile s1 t fun x =>
          { x with sigs := tset (fun _ => 0) x.sigs win (tget (fun _ => 0) x.sigs win + crc64 (bytesLE 8 u ++ bytesLE 64 d.toNat)) }
      else s1
    | none => s1

def planWrites (s : State) (t win u : Nat) (inv : List Nat) : List (BitVec 512) → State
  | [] => s
  | d :: ds => planWrites (planWrite s t win u inv d) t win (u + 1) inv ds

/-- Element width in bits of a format code (R43). -/
def elemBits (f : BitVec 4) : Nat :=
  if f = 0x3 || f = 0x4 then 4 else if f = 0x5 || f = 0x6 then 6 else if f = 0x8 || f = 0x9 then 16 else if f = 0xA then 32 else 8

/-- Depth K per cc (R43). -/
def depthK (f : BitVec 4) : Nat :=
  if f = 0x3 || f = 0x4 then 128 else if f = 0x8 || f = 0x9 then 32 else if f = 0xA then 8 else 64

/-- Blocks of 32 along K for the scaled formats (R60). -/
def hasScales (f : BitVec 4) : Bool := f = 0x3 || f = 0x4 || f = 0x5 || f = 0x6

def bitsAt (n pos w : Nat) : Nat := (n >>> pos) % 2 ^ w

/-- A chunk loaded by MWLT put in row order: element (k, n) at bit (128k + n) x width (R62). -/
def untranspose (f : BitVec 4) (raw : Nat) : Nat :=
  let w := elemBits f
  let kk := depthK f
  (List.range kk).foldl (fun a k =>
    (List.range 128).foldl (fun a n => a + (bitsAt raw ((n * kk + k) * w) w) <<< ((128 * k + n) * w)) a) 0

/-- Element (k, n) of a weight buffer, and its block scale (R62). -/
def wElem (b : WBuf) (f : BitVec 4) (k n : Nat) : Nat := bitsAt b.elems.toNat ((128 * k + n) * elemBits f) (elemBits f)
def wScale (b : WBuf) (k n : Nat) : Nat := bitsAt b.scales.toNat (8 * (128 * (k / 32) + n)) 8

/-- The scale of row r of a group, block b, in an A scale line (R62). -/
def aScale (f : BitVec 4) (line : BitVec 512) (r k : Nat) : Nat :=
  let per := if f = 0x3 || f = 0x4 then 4 else 2
  bitsAt line.toNat (8 * (per * (r % 16) + k / 32)) 8

/-- An E8M0 scale: 0xFF is NaN (R60). -/
def scaleVal (b : Nat) : Num := if b = 255 then .nan else .fin false 1 ((b : Int) - 127)

/-- One product of R63, with its scales. -/
def mmaTerm (m : MmaRow) (a scale : BitVec 512) (n k : Nat) : Num :=
  let f := m.fmt
  let p := mulN (elemVal f (bitsAt a.toNat (k * elemBits f) (elemBits f))) (elemVal m.buf.fmt (wElem m.buf f k n))
  if hasScales f then mulN p (mulN (scaleVal (aScale f scale m.j k)) (scaleVal (wScale m.buf k n))) else p

/-- The new value of lane n of an accumulator row (R44, R63, R64), and whether INT8 saturated. -/
def mmaLane (m : MmaRow) (a scale : BitVec 512) (old : W32) (n : Nat) : W32 × Bool :=
  let ks := List.range (depthK m.fmt)
  if m.fmt = 0x2 then
    let sum := ks.foldl (fun (acc : Int) k =>
      acc + (BitVec.ofNat 8 (bitsAt a.toNat (8 * k) 8)).toInt * (BitVec.ofNat 8 (wElem m.buf m.fmt k n)).toInt)
      (if m.accz then 0 else old.toInt)
    let sat := max (-(2 ^ 31)) (min (2 ^ 31 - 1) sum)
    (BitVec.ofInt 32 sat, decide (sat ≠ sum))
  else (dotF ((if m.accz then Num.fin false 0 0 else ofF32 old) :: ks.map (mmaTerm m a scale n)), false)

/-- A row's result lands at the end of its cc. -/
def mmaLand (x old : Tile) (m : MmaRow) (a scale : BitVec 512) : Tile :=
  let o := accRow old m.af m.row
  let res := (List.range 128).map fun n => mmaLane m a scale (o.lanes.getD n 0) n
  let x1 := setAccRow x m.af m.row { lanes := res.map (·.1), isInt := decide (m.fmt = 0x2) }
  if res.any (·.2) then { x1 with isat := true } else x1

/-- The value of an accumulator lane as a drain converts it (R65). -/
def accVal (r : AccRow) (n : Nat) : Num :=
  let w := r.lanes.getD n 0
  if r.isInt then ofInt w.toInt 0 else ofF32 w

/-- The bytes of a row pair, as MDR or MDRC write them (R44, R65). -/
def drainPack (lo hi : AccRow) (fmt : Option (BitVec 4)) : Nat :=
  let lane (i : Nat) : AccRow × Nat := if i < 128 then (lo, i) else (hi, i - 128)
  match fmt with
  | none => (List.range 256).foldr (fun i a => ((lane i).1.lanes.getD (lane i).2 0).toNat + 2 ^ 32 * a) 0
  | some f =>
    let w := elemBits f
    (List.range 256).foldr (fun i a => narrowTo f .nearest (accVal (lane i).1 (lane i).2) + 2 ^ w * a) 0

/-- A number cut into n lines. -/
def cutLines (n v : Nat) : List (BitVec 512) := (List.range n).map fun k => BitVec.ofNat 512 (v >>> (512 * k))

/-- A word of an outbox entry enters the outbound crossing buffer of 64 words; at a full one it waits in its entry (R202; log 107). -/
def crossOut (x : Tile) (entry : Nat) : Tile := if x.xout.length < 64 then { x with xout := x.xout ++ [entry % 128] } else x

/-- One act of the cc that is ending, other than the landing of accumulator rows. -/
def runAct (s : State) (t : Nat) (inv : List Nat) (a : Act) : State :=
  let c := (getTile s t).cc
  match a with
  | .rdV u n r fmt land =>
    let (ds, s1) := planLines s t 4 inv ((List.range n).map (u + ·))
    let v := packLines ds
    let vals := match fmt with
      | none => (List.range (16 * n)).map fun l => (l, word32 v l)
      | some f => (List.range 256).map fun l => (l, toF32 .nearest (elemVal f (bitsAt v (l * elemBits f) (elemBits f))))
    modTile s1 t fun x => later x land (.setV 1 r vals)
  | .rdS u st r land =>
    let (ds, s1) := planLines s t 4 inv ((List.range 16).map fun k => u + k * st)
    let v := packLines ds
    modTile s1 t fun x => later x land (.setV 1 r ((List.range 256).map fun l => (l, word32 v l)))
  | .rdWt u m => modTile s t fun x => later x (c + 1) (.rdA u { m with buf := wbuf x m.wb })
  | .rdA u m =>
    let (d, s1) := planLine s t 2 inv u
    modTile s1 t fun x => later x m.land (.accMma m d x.scaleLine)
  | .rdSc u =>
    let (d, s1) := planLine s t 2 inv u
    modTile s1 t fun x => { x with scaleLine := d }
  | .rdW u n key pos =>
    let (ds, s1) := planLines s t 2 inv ((List.range n).map (u + ·))
    modTile s1 t fun x =>
      let old := (tget (fun _ => (0 : BitVec 69632)) x.wst key).toNat
      let mask := (2 ^ (512 * n) - 1) <<< pos
      { x with wst := tset (fun _ => 0) x.wst key (BitVec.ofNat 69632 ((old - (old &&& mask)) ||| (packLines ds <<< pos))) }
  | .rdB u block =>
    let (ds, s1) := planLines s t 1 inv ((List.range 16).map (u + ·))
    let v := packLines ds
    modTile s1 t fun x =>
      { x with store := (List.range 32).foldl (fun st i => tset (fun _ => 0) st (32 * block + i) (BitVec.ofNat 256 (v >>> (256 * i)))) x.store
               blkOff := tset (fun b => 32 * b) x.blkOff block (2048 + (sramAddr t u - x.codeBase) / 32) }
  | .rdOut u entry chan =>
    let (d, s1) := planLine s t 5 inv u
    match boxGet (getTile s1 t).outbox entry with
    | some _ => tileFault s1 t 5 0x2005 0 0
    | none => modTile s1 t fun x => crossOut { x with outbox := boxSet x.outbox entry (some { word := d, chan := chan, ready := captureAt s t + XO, poison := false }) } entry
  | .drop entry =>
    modTile s t fun x => { x with inbox := boxSet x.inbox entry none, freedAt := tset (fun _ => 0) x.freedAt (entry % 128) (captureAt s t + XO) }
  | .rdC u n dst win =>
    let (ds, s1) := planLines s t 4 inv ((List.range n).map (u + ·))
    modTile s1 t fun x => later x (c + 1) (.wr dst ds 4 win)
  | .wr u ds _ win => planWrites s t win u inv ds
  | .wrIn u entry win =>
    match boxGet (getTile s t).inbox entry with
    | none => tileFault s t 5 0x2004 0 0
    | some w =>
      let s1 := planWrite s t win u inv w.word
      modTile s1 t fun x => { x with inbox := boxSet x.inbox entry none, freedAt := tset (fun _ => 0) x.freedAt (entry % 128) (captureAt s t + XO) }
  | .drain af row dst fmt toReg wait win =>
    modTile s t fun x =>
      let lo := accRow x af row
      let hi := accRow x af (row + 1)
      let v := drainPack lo hi fmt
      if toReg then later x (c + wait) (.setV 2 dst ((List.range 256).map fun l => (l, word32 v l)))
      else
        let n := match fmt with | none => 16 | some f => if elemBits f = 16 then 8 else 4
        later x (c + wait) (.wr dst (cutLines n v) 2 win)
  | _ => s

def runActs (s : State) (t : Nat) (inv : List Nat) : List Act → State
  | [] => s
  | a :: as => runActs (runAct s t inv a) t inv as

/-- Issue cc of an accumulator write; two that land together leave the later-issued one (R42). -/
def Act.issuedAt : Act → Nat
  | .accMma m _ _ => m.iss
  | .accClr _ _ _ i => i
  | _ => 0

def insertAcc (a : Act) : List Act → List Act
  | [] => [a]
  | b :: bs => if Act.issuedAt a < Act.issuedAt b then a :: b :: bs else b :: insertAcc a bs

def landAcc (old x : Tile) (a : Act) : Tile :=
  match a with
  | .accMma m d sc => mmaLand x old m d sc
  | .accClr af row n _ => (List.range n).foldl (fun x k => setAccRow x af (row + k) accZero) x
  | _ => x

/-- What the open bundle does in its own cc, then what it scheduled for later ones; nothing of it is left where it faults. -/
def closeMade (s : State) (t : Nat) : State :=
  let x := getTile s t
  let s1 := runActs s t x.blocked (dueIn x.cc x.made)
  modTile s1 t fun y => { y with acts := y.acts ++ y.made.filter fun e => decide (e.1 ≠ x.cc), made := [], isOpen := false, sent := none }

/-- The end of the present cc: the SRAM accesses and drain reads of operations issued earlier, then the open bundle's own,
then the accumulator rows that become final. -/
def closeCc (s : State) (t : Nat) : State :=
  let x := getTile s t
  let as := dueIn x.cc x.acts
  let s1 := setTile s t { x with acts := x.acts.filter fun e => decide (e.1 ≠ x.cc) }
  let s2 := closeMade (runActs s1 t x.blocked as) t
  let accs := as.foldl (fun l a => match a with | .accMma .. => insertAcc a l | .accClr .. => insertAcc a l | _ => l) []
  let old := getTile s2 t
  let new := accs.foldl (landAcc old) { old with isat := false }
  let s3 := setTile s2 t { new with isat := old.isat || new.isat }
  if new.isat then flagSet s3 (rTIL_STATUS (physOf s t)) fTIL_STATUS_ISAT else s3

/-! ### What lands at the start of a cc -/

/-- Register writes of this cc by port; two ports on one register make neither write (R31). -/
def portClash (as : List Act) (r : Nat) : Bool :=
  let ports := as.filterMap fun a => match a with | .setV p r' _ => if r' = r then some p else none | _ => none
  (List.range 3).countP (fun p => ports.contains p) > 1

/-- The 256 lanes with those listed replaced. -/
def setLanes (old : List W32) (vals : List (Nat × W32)) : List W32 :=
  lanes256.map fun l => match vals.find? (fun p => p.1 = l) with | some p => p.2 | none => old.getD l 0

/-- One register result lands. Two results of one port on one register in one cc are no fault of R31: the later scheduled one
stands (the model's choice, log 108). -/
def landAct (as : List Act) (x : Tile) (a : Act) : Tile :=
  match a with
  | .setV _ r vals => if portClash as r then x else setVreg x r (setLanes (vreg x r) vals)
  | .setQ q bits msk => setQreg x q ((bits &&& msk) ||| (qreg x q &&& ~~~ msk))
  | .setAd a v => setAdreg x a v
  | .seed st => { x with stream := st, draw := 0 }
  | .wbLand wb key f tr =>
    let raw := (tget (fun _ => (0 : BitVec 69632)) x.wst key).toNat
    let el := raw % 2 ^ 65536
    let w : WBuf := { elems := BitVec.ofNat 65536 (if tr then untranspose f el else el), scales := BitVec.ofNat 4096 (raw >>> 65536), fmt := (wbuf x wb).fmt }
    setWbuf { x with wst := tset (fun _ => 0) x.wst key 0 } wb w
  | _ => x

/-- Whether an act takes effect at the start of its cc rather than in it. -/
def Act.isLand : Act → Bool
  | .setV .. => true | .setQ .. => true | .setAd .. => true | .seed .. => true | .wbLand .. => true | .pun .. => true
  | _ => false

/-- Counter operations of this cc, applied together per counter (R52). -/
def landPuns (x : Tile) (ops : List (Nat × PunOp)) : Tile :=
  (List.range 64).foldl (fun x c =>
    match ops.filterMap (fun o => if o.1 = c then some o.2 else none) with
    | [] => x
    | os => { x with punty := tset (fun _ => 0) x.punty c (punApply (localCtr x c) os) }) x

/-- The oldest word of the inbound crossing buffer that the zone sees moves into its inbox entry, and its counter rises (R50, R202, R240). -/
def takeXin (x : Tile) (now : Nat) : Tile × List (Nat × PunOp) :=
  match x.xin with
  | [] => (x, [])
  | w :: ws =>
    if w.seen ≤ now then
      ({ x with xin := ws, inbox := boxSet x.inbox w.entry (some { word := w.word, chan := 0, ready := now, poison := w.poison }) }, [(w.ctr, .inc 1)])
    else (x, [])

/-- The number of the present cc among those the tile has had in the tick of its edge. -/
def ranNext (x : Tile) (now : Nat) : Nat × Nat := (now, (if x.ran.1 = now then x.ran.2 else 0) + 1)

/-- The tile in its next cc, before anything lands in it. A step boundary that the zone sees by now restarts the draw index and
the issue index (R72, R267). -/
def nextCc (s : State) (t : Nat) : Tile :=
  let x := getTile s t
  let k := zoneSteps s t
  let y := { x with cc := x.cc + 1, used := 0, memBusy := false, memIdle := x.memIdle + (if x.memBusy then 0 else 1)
                    blocked := [], openRd := [], openWr := [], ran := ranNext x s.now }
  if k = x.stepSeen then y else { y with stepSeen := k, draw := 0, stepIssue := 0 }

/-- The start of the next cc: what was scheduled for it lands; increments the zone now sees reach their counters in this cc,
so that the next cc sees them (R50, R52, R53). -/
def openCc (s : State) (t : Nat) : State :=
  let x1 := nextCc s t
  let lands := (dueIn x1.cc x1.acts).filter Act.isLand
  let x2 := { x1 with acts := x1.acts.filter fun e => !(decide (e.1 = x1.cc) && Act.isLand e.2) }
  let clash := lands.any fun a => match a with | .setV _ r _ => portClash lands r | _ => false
  let x3 := lands.foldl (landAct lands) x2
  let (x4, ops) := takeXin x3 s.now
  let seen := x4.incs.filter fun e => decide (e.1 ≤ s.now)
  let x5 := { x4 with incs := x4.incs.filter fun e => !decide (e.1 ≤ s.now)
                      acts := x4.acts ++ (ops ++ seen.map (fun e => e.2)).map fun o => (x4.cc + 1, .pun o.1 o.2) }
  let own := lands.filterMap fun a => match a with | .pun c o => some (c, o) | _ => none
  let x6 := landPuns x5 own
  let s1 := setTile s t x6
  bankCheck (if clash then tileFault s1 t 3 0x2009 0 0 else s1) t

/-- One cc of a tile: the present cc ends and the next begins. -/
def advanceCc (s : State) (t : Nat) : State := openCc (closeCc s t) t

/-! ### Bundles -/

/-- The tile's zone runs: not stopped for a step change (R198), not asleep (R360). -/
def zoneRuns (s : State) (z : Nat) : Bool :=
  decide (rd s (rCLK_ZONE_CTL z) fCLK_ZONE_CTL_STOPPED = 0) && decide (rd s (rPWR_IDLE z) fPWR_IDLE_STATE = 0)

/-- The zone has seen the launch of the plan that holds the tile (R200, R230). -/
def launchSeen (s : State) (t : Nat) : Bool :=
  match (getTile s t).own with
  | some c => decide ((getCtx s c).launchAt + XI ≤ s.now)
  | none => true

/-- The stop of its context has reached the tile (R282). -/
def stopSeen (s : State) (t : Nat) : Bool :=
  match (getTile s t).own with
  | some c => (match (getCtx s c).faultTick with | some f => decide (f + 8 + XI ≤ s.now) | none => false)
  | none => false

/-- The tile can issue in its next cc. -/
def canIssue (s : State) (t : Nat) : Bool :=
  decide ((getTile s t).st = .issuing) && zoneRuns s (zoneOf t) && launchSeen s t && !stopSeen s t

/-- The bundle after index b, with the loops it ends (R34). -/
def seqNext (b : Nat) : List LoopLv → Nat × List LoopLv
  | [] => ((b + 1) % 2048, [])
  | l :: ls =>
    if l.last = b then
      (if 1 < l.left then (l.first, { l with left := l.left - 1 } :: ls) else seqNext b ls)
    else ((b + 1) % 2048, l :: ls)

/-- The breakpoint of the tile's context names the bundle about to issue (R267). -/
def breakHit (s : State) (t : Nat) (x : Tile) : Option CtxId :=
  match x.own with
  | some c =>
    if rd s (rDET_BRK_CTL c) fDET_BRK_CTL_ENABLE = 1 && rd s (rDET_BRK_CTL c) fDET_BRK_CTL_TILE = t &&
       rd s (rDET_BRK_CTL c) fDET_BRK_CTL_STEP = resumeStep s c + x.stepSeen && rd s (rDET_BRK_ISSUE c) fDET_BRK_ISSUE_ISSUE = x.stepIssue
    then some c else none
  | none => none

/-- Key of a twin window: the tile's step and the window of an issue index (R270, R271). -/
def winKey (x : Tile) (i : Nat) : Nat := x.stepSeen * 2 ^ 22 + i / 4096 % 2 ^ 22

/-- First stream offset of the open twin window, one more than its last, and the cc in which its last index issued (R270, R272). -/
def notePos (x : Tile) : Tile :=
  let k := winKey x x.stepIssue
  let off := streamOff x x.bidx
  let e := tget (fun _ => (0, 0, 0)) x.wpos k
  let first := if x.stepIssue % 4096 = 0 then off else e.1
  { x with wpos := tset (fun _ => (0, 0, 0)) x.wpos k (first, off + 1, if x.stepIssue % 4096 = 4095 then x.cc else 0) }

/-- The next bundle issues in the present cc: breakpoint (R267), a block still being loaded (R30), then the counts. A loop level
is popped as the last bundle of its final run issues, so that a JMP or LOOP in that bundle is judged outside it (log 109). -/
def takeBundle (s : State) (t : Nat) : State :=
  let x := getTile s t
  match breakHit s t x with
  | some c =>
    let off := streamOff x x.bidx
    let s1 := wr (raiseFlag s (rDET_BRK_HIT c) fDET_BRK_HIT_HIT) (rDET_BRK_HIT c) fDET_BRK_HIT_OFFSET off
    tileFault s1 t 1 0x201A x.stepIssue 0
  | none =>
    if x.cc < tget (fun _ => 0) x.blkFrom (x.bidx / 32) then tileFault s t 1 0x200B 0 0
    else
      let nx := seqNext x.bidx x.loops
      let twin := match x.own with | some c => twinOn s c | none => false
      let x := if twin then notePos x else x
      setTile s t { x with st := .issuing, stall := none, used := 0, isOpen := true, cur := x.bidx, bidx := nx.1, loops := nx.2
                           undo := undoOf x, sent := none, issued := (x.issued + 1) % 2 ^ 64, stepIssue := x.stepIssue + 1 }

/-- The next cc, and its bundle issued if the tile did not fault on the way. -/
def openBundle (s : State) (t : Nat) : State :=
  let s1 := advanceCc s t
  if (getTile s1 t).st = .issuing then takeBundle s1 t else s1

/-- A bundle is open in the present cc and the tile has not faulted. -/
def bundleOpen (s : State) (t : Nat) : Bool := (getTile s t).isOpen && decide ((getTile s t).st = .issuing)

/-- Bits of `used` of the engine slots: 0 matrix, 1 vector, 2 memory, 3 mesh. -/
def slotFree (x : Tile) (k : Nat) : Bool := !(x.used.getLsbD k)

/-- A control slot command opens the next bundle and then acts; a tile that cannot issue does nothing. -/
def ctlSlot (s : State) (t : Nat) (f : State → State) : State :=
  if canIssue s t then
    let s1 := openBundle s t
    if bundleOpen s1 t then f s1 else s1
  else s

/-- The slot of the bundle open in the present cc can still be taken; a HALT bundle's other slots issue too. -/
def joinable (s : State) (t k : Nat) : Bool :=
  let x := getTile s t
  x.isOpen && slotFree x k && (x.st = .issuing || x.st = .halted)

def markSlot (s : State) (t k : Nat) : State :=
  modTile s t fun x => { x with used := x.used ||| BitVec.ofNat 4 (1 <<< k) }

/-- An engine slot command joins the open bundle where its slot is free, else issues in the next bundle with a NOP
control slot (log 2), and then acts; a tile that cannot issue does nothing. -/
def engSlot (s : State) (t k : Nat) (f : State → State) : State :=
  if joinable s t k then f (markSlot s t k)
  else if canIssue s t then
    let s1 := openBundle s t
    if bundleOpen s1 t then f (markSlot s1 t k) else s1
  else s

/-- EXEC 0x00D (R32 to R41, R80). -/
def badEnc (s : State) (t slot : Nat) : State := tileFault s t slot 0x200D 0 0

/-- MEM 0x001 (R35, R55). -/
def outOfBounds (s : State) (t slot : Nat) : State := tileFault s t slot 0x3001 0 0

/-- The effective unit address of an engine slot (R35): the exact sum of register and offset (log 10). -/
def effAddr (x : Tile) (ad : BitVec 3) (off : BitVec 19) : Nat := (adreg x ad.toNat).toNat + off.toNat

/-- The twin window of the open bundle (R270). -/
def bundleWin (x : Tile) : Nat := winKey x (x.stepIssue - 1)

end Machine
end Sys2Proof
end

