-- ==== Sys2Proof/Machine/Fabric.lean ====
section
/-! DEFINITION. The sync network's hub, the tile mesh and the forwarding plane (02 R50 to R53, 05 R119 to R137, 10 R238 to
R240): the commands SYNC_INCREMENT_APPLIED to VOID_BEAD_ARRIVAL. An event command acts on what is due at the present
tick or before it, and changes nothing where nothing is due (log 14). -/
namespace Sys2Proof
namespace Machine

/-! ### SYNC_INCREMENT_APPLIED (R52, R53) -/

/-- The operations due on one chip-wide counter, tick by tick, oldest tick first (R52). -/
def applyChip (s : State) (n : Nat) (ops : List (Nat × PunOp)) : State :=
  let ts := ops.foldl (fun l o => insertNat o.1 l) []
  ts.foldl (fun s t => chipSet s n (punApply (chipNow s n) (ops.filterMap fun o => if o.1 = t then some o.2 else none))) s

/-- Every increment whose tick has come is applied: to a chip-wide counter at the hub, to a local counter of a tile where
its zone sees it XI ticks later (R53, R200). -/
def syncApply (s : State) : State :=
  let due := s.syncNet.filter fun i => decide (i.due ≤ s.now)
  let s1 := { s with syncNet := s.syncNet.filter fun i => !decide (i.due ≤ s.now) }
  let chips := due.foldl (fun l i => match i.ctr with | .chip n => insertNat n l | .tile .. => l) []
  let s2 := chips.foldl (fun s n =>
    applyChip s n (due.filterMap fun i => if i.ctr = .chip n then some (i.due, i.op) else none)) s1
  due.foldl (fun s i =>
    match i.ctr with
    | .tile t c => modTile s t fun x => { x with incs := x.incs ++ [(i.due + XI, c, i.op)] }
    | .chip _ => s) s2

/-- SYNC_INCREMENT_APPLIED (R53). -/
def execSyncIncrementApplied (s : State) : Out := .next (syncApply s)

/-! ### Channels (R239, R240) -/

/-- The context whose channel table a source endpoint uses: the holder of the tile or engine. -/
def epCtx (s : State) (ep : Nat) : Option CtxId :=
  if ep < 0x100 then (getTile s ep).own
  else if ep < 0x120 then (getEng s (ep - 0x100)).own
  else none

/-- Channel `ch` of a source endpoint in an image (R239). -/
def chanAt (p : Plan) (ep ch : Nat) : Option Chan :=
  match p.chans.find? (·.1 = ep) with
  | some e => e.2[ch]?
  | none => none

/-- Key of a word index: by context, endpoint and channel. -/
def wKey (c ep ch : Nat) : Nat := (c * 1024 + ep) * 512 + ch

def wordIdx (s : State) (c ep ch : Nat) : Nat := tget (fun _ => 0) s.chanW (wKey c ep ch)
def setWordIdx (s : State) (c ep ch n : Nat) : State := { s with chanW := tset (fun _ => 0) s.chanW (wKey c ep ch) n }

/-- Departure of word w of a channel, from step start (R240). -/
def wordDeparts (e : Chan) (w : Nat) : Nat := e.first + w / (e.burst + 1) * e.period + w % (e.burst + 1)

/-- The context's mesh channels run: its plan was launched and its stop has not reached the mesh (R250, R282). -/
def meshRuns (x : Ctx) : Bool := keepsProgram x && !x.stopped

/-- The record of a mesh-channel fault (R252, R280). -/
def chanFault (code : BitVec 16) (ep ch w d0 : Nat) : FaultInfo :=
  { code := code, engine := 6, unit := ep, offset := ch * 2 ^ 32 + w % 2 ^ 32, d0 := d0, d1 := 0, d2 := 0 }

/-- The oldest word of a channel in a tile's outbox that the tick side can use at tick t (R50, R200, R240). -/
def oldestOut (x : Tile) (ch t : Nat) : Option (Nat × BoxWord) :=
  x.outbox.foldl (fun best e =>
    match e.2 with
    | some w =>
      if w.chan = ch && decide (w.ready ≤ t) && x.xout.contains e.1 then
        (match best with | some b => if w.ready < b.2.ready then some (e.1, w) else best | none => some (e.1, w))
      else best
    | none => best) none

/-- The data line a gather read hands out next on a channel: the next line of the active descriptor, if that is a read that
names the channel and has one left (R95, R240). -/
def lineDue (x : Engine) (ch : Nat) : Option Nat :=
  match x.list[x.idx]? with
  | some d =>
    if x.active && d.op = 1 && d.chan = ch && decide (x.sent < (d.rows + 1) * (d.rlen + 1)) then
      some (d.base + x.sent / (d.rlen + 1) * d.stride + x.sent % (d.rlen + 1))
    else none
  | none => none

/-- That line, if it is in staging at tick t (R96). -/
def nextLine (x : Engine) (ch t : Nat) : Option GLine :=
  match lineDue x ch with
  | some n => x.staging.find? fun g => !g.mesh && g.line = n && decide (g.tick ≤ t)
  | none => none

/-- A word leaves its outbox entry and the outbound crossing buffer; the oldest word that waits for room there enters it at
the present tick (R202; log 107). -/
def takeOut (x : Tile) (now n : Nat) : Tile :=
  let y := { x with outbox := boxSet x.outbox n none, xout := x.xout.erase n }
  match y.outbox.foldl (fun (best : Option (Nat × BoxWord)) e =>
    match e.2 with
    | some w => if y.xout.contains e.1 then best
      else (match best with | some b => if w.ready < b.2.ready then some (e.1, w) else best | none => some (e.1, w))
    | none => best) none with
  | some (k, w) => crossOut { y with outbox := boxSet y.outbox k (some { w with ready := max w.ready (now + XO) }) } k
  | none => y

def putFlight (s : State) (f : Flight) : State := { s with flight := s.flight ++ [f] }

/-- A word of a delivery endpoint: departures follow R122. -/
def delivDepart (s : State) (l ch : Nat) : State :=
  match s.deliv.find? fun d => d.link = l && d.chan = ch && decide (d.tick ≤ s.now) && !(getCtx s d.ctx).stopped with
  | some d =>
    let w := wordIdx s d.ctx (0x200 + l) ch
    let s1 := setWordIdx { s with deliv := s.deliv.erase d } d.ctx (0x200 + l) ch (w + 1)
    putFlight s1 { arrive := d.tick + MESH, src := 0x200 + l, chan := ch, index := w, ctx := d.ctx, word := d.word, poison := false }
  | none => s

/-- A word of a tile or gather engine leaves at its scheduled tick; one that is absent raises EXEC 0x003 or MEM 0x005. -/
def schedDepart (s : State) (ep ch : Nat) (c : CtxId) (e : Chan) : State :=
  let x := getCtx s c
  let w := wordIdx s c ep ch
  let t := x.stepStart + wordDeparts e w
  if !meshRuns x || e.dkind = 0 || decide ((e.burst + 1) * e.count ≤ w) || decide (s.now < t) then s
  else
    let s1 := setWordIdx s c ep ch (w + 1)
    if ep < 0x100 then
      match oldestOut (getTile s ep) ch t with
      | some (n, b) =>
        putFlight (modTile s1 ep fun y => { takeOut y s.now n with portOut := s.now + 1 })
          { arrive := t + MESH, src := ep, chan := ch, index := w, ctx := c, word := b.word, poison := b.poison }
      | none => raise s1 c (chanFault 0x2003 ep ch w 0)
    else
      let g := ep - 0x100
      match nextLine (getEng s g) ch t with
      | some ln =>
        putFlight (modEng s1 g fun y => { y with staging := y.staging.erase ln, sent := y.sent + 1, lastEnd := t })
          { arrive := t + MESH, src := ep, chan := ch, index := w, ctx := c, word := ln.word, poison := ln.poison }
      | none =>
        raise (modEng s1 g fun y => { y with st := .faulted }) c
          { code := 0x3005, engine := 7, unit := g, offset := (getEng s g).idx, d0 := 0, d1 := 0, d2 := 0 }

/-- MESH_WORD_DEPARTURE (R240). -/
def execMeshWordDeparture (ep : BitVec 10) (chan : BitVec 9) (s : State) : Out :=
  let e := ep.toNat
  if 0x200 ≤ e then .next (if e < 0x218 then delivDepart s (e - 0x200) chan.toNat else s)
  else match epCtx s e with
    | some c =>
      match (getCtx s c).image with
      | some p => match chanAt p e chan.toNat with
        | some ch => .next (schedDepart s e chan.toNat c ch)
        | none => .next s
      | none => .next s
    | none => .next s

/-! ### Arrivals (R50, R121, R202, R240) -/

/-- A word for a tile inbox enters the tile's inbound crossing buffer (R50, R202). -/
def arriveInbox (s : State) (f : Flight) (e : Chan) : State :=
  let t := e.dest
  let x := getTile s t
  let entry := (e.base + f.index % (e.ring + 1)) % 128
  if 64 ≤ x.xin.length then
    raise s f.ctx { chanFault 0x2012 f.src f.chan f.index t with engine := 0xA, unit := zoneOf t, offset := s.now }
  else if (boxGet x.inbox entry).isSome || x.xin.any (·.entry = entry) || decide (f.arrive < tget (fun _ => 0) x.freedAt entry) then
    raise s f.ctx (chanFault 0x2005 f.src f.chan f.index 0)
  else
    setTile s t { x with portIn := s.now + 1, xin := x.xin ++ [{ seen := f.arrive + XI, entry := entry, ctr := e.ctr, word := f.word, poison := f.poison }] }

/-- A word for an assembly entry; a word position already valid raises LINK 0x006 and is not written (R121). -/
def arriveAbuf (s : State) (f : Flight) (e : Chan) (p : Plan) : State :=
  let r := e.dest + f.index / 5 % (e.ring + 1)
  let w := f.index % 5
  let n := abufOf p r
  let x := abufSettle (getAbuf s n) f.arrive
  if x.valid.getLsbD w then
    fwdRaise (setAbuf s n x) f.ctx (chanFault 0x4006 f.src f.chan f.index (r % 1024 + w * 2 ^ 16))
  else
    let v := x.valid ||| BitVec.ofNat 5 (1 <<< w)
    setAbuf s n { x with pay := x.pay ||| BitVec.ofNat 2560 (f.word.toNat <<< (512 * w)), valid := v
                         full := if v = 31 then f.arrive else x.full }

/-- A word joins an engine's staging; at a full buffer it raises MEM 0x006 and is lost (R93, R96). -/
def arriveStaging (s : State) (f : Flight) (e : Chan) : State :=
  let x := getEng s e.dest
  if 128 ≤ x.staging.length then
    raise (setEng s e.dest { x with st := .faulted }) f.ctx { code := 0x3006, engine := 7, unit := e.dest, offset := x.idx, d0 := 0, d1 := 0, d2 := 0 }
  else
    setEng s e.dest { x with staging := x.staging ++ [{ line := 0, tick := f.arrive, word := f.word, poison := f.poison, chan := f.chan, fixed := [], bad := false, mesh := true }] }

/-- Operations whose result depends on order, refused under DET_MODE (R263). -/
def orderOp (op : Nat) : Bool := op = 0x0E || op = 0x0F

/-- A descriptor well formed by R173: OP, ORD, DEST, LEN, OFFSET, AMOUNT and reserved bits. -/
def descOk (d : BitVec 512) : Bool :=
  let op := dOp d
  let w0 := dWord d 0
  let w1 := dWord d 1
  let w2 := dWord d 2
  let w3 := dWord d 3
  (op = 1 || op = 2 || (decide (8 ≤ op) && decide (op ≤ 15))) && decide (dOrd d ≠ 3) &&
    (dMc d || bits w0 51 48 = 0) && (!dMc d || op = 2) && bits w0 54 52 = 0 && bits w0 31 10 = 0 && bits w1 47 41 = 0 &&
    bits w2 63 27 = 0 && bits w3 63 34 = 0 && bits w3 7 0 = 0 && decide (dSc d ≠ 3) && decide (1 ≤ dAmount d) &&
    (if op = 0x0E then dLen d = 1 else if op = 0x0F then dLen d = 2 else decide (1 ≤ dLen d) && decide (dLen d ≤ 512)) &&
    dOffset d % 8 = 0 && (List.range 4).all fun i => dWord d (4 + i) = 0

/-- Bytes of the local buffer of a descriptor (R173). -/
def descBytes (d : BitVec 512) : Nat := 8 * dLen d

/-- The descriptor's buffer and counter lie within the context's bounds (R55, R83, R173). -/
def descBounds (s : State) (c : Nat) (d : BitVec 512) : Bool :=
  (getCtx s c).tiles.getLsbD (dTile d) && decide (64 * dU d + descBytes d ≤ 0x2000000) &&
    (match ctrRefOf (dSc d) (dTarget d) (dTile d) with | some r => ctrOwned s c r | none => false)

/-- A word is one request descriptor: it joins its context's queue of 256, or raises OPEN 0x020, 0x021, 0x022 or
MEM 0x001 (R173, R174, R263). -/
def arriveNi (s : State) (f : Flight) : State :=
  let q := tget (fun _ => []) s.reqq f.ctx
  let d : ReqDesc := { word := f.word, src := f.src, chan := f.chan, index := f.index, at_ := f.arrive }
  let info (n : Nat) : FaultInfo := openFault n d (dDest f.word) 0
  if !descOk f.word then raise s f.ctx (info 0x21)
  else if (getCtx s f.ctx).dm && orderOp (dOp f.word) then raise s f.ctx (info 0x22)
  else if !descBounds s f.ctx f.word then raise s f.ctx { info 0 with code := 0x3001, d0 := 0 }
  else if 256 ≤ q.length then raise s f.ctx (info 0x20)
  else { s with reqq := tset (fun _ => []) s.reqq f.ctx (q ++ [d]) }

/-- MESH_WORD_ARRIVAL (R240): the oldest word of the channel that has crossed the mesh. -/
def execMeshWordArrival (ep : BitVec 10) (chan : BitVec 9) (s : State) : Out :=
  match s.flight.find? fun f => f.src = ep.toNat && f.chan = chan.toNat && decide (f.arrive ≤ s.now) with
  | some f =>
    let s1 := { s with flight := s.flight.erase f }
    match (getCtx s f.ctx).image with
    | some p =>
      match chanAt p f.src f.chan with
      | some e =>
        if e.dkind = 1 then .next (arriveInbox s1 f e)
        else if e.dkind = 2 then .next (arriveAbuf s1 f e p)
        else if e.dkind = 3 then .next (arriveStaging s1 f e)
        else .next (arriveNi s1 f)
      | none => .next s1
    | none => .next s1
  | none => .next s

/-! ### SLOT_DEPARTURE (R14, R119) -/

/-- SLOT_DEPARTURE (R119). -/
def execSlotDeparture (l : LinkId) (s : State) : Out := .next (linkPeriod s l)

/-! ### DUE_TICK_RELEASE (R119, R121 to R123, R126, R129) -/

def lehrGet (s : State) (l i : Nat) : Option LehrE := tget (fun _ => none) (getLink s l).lehr (i % 512)

def lehrSet (s : State) (l i : Nat) (e : Option LehrE) : State :=
  let s1 := modLink s l fun x => { x with lehr := tset (fun _ => none) x.lehr (i % 512) e }
  let n := (getLink s1 l).lehr.length
  keepMax (wr s1 (rFWD_LNK_LEHR l) fFWD_LNK_LEHR_NOW n) (rFWD_LNK_LEHR l) fFWD_LNK_LEHR_HIGH n

/-- Receive entries of a context on a link that are due at tick t: DUE is below 4,096 on any link a plan can use (R132, R158). -/
def dueEntries (p : Plan) (x : Ctx) (rs l t : Nat) : List (Nat × Nat × Nat × RxE) :=
  (List.range 1024).filterMap fun k =>
    if t / 4 < k then none
    else match rxEntry p x rs l (t / 4 - k) with
      | some (h, i, e) => if e.kind = 1 && 4 * (t / 4 - k) + e.due = t then some (t / 4 - k, h, i, e) else none
      | none => none

/-- Five words handed to a delivery channel, one per tick from t (R122). -/
def deliver (s : State) (l ch t : Nat) (c : CtxId) (b : BitVec 2560) : State :=
  { s with deliv := s.deliv ++ (List.range 5).map fun w => { tick := t + w, link := l, chan := ch, ctx := c, word := payWord b w } }

/-- Sync tokens of a released bead (R123). -/
def tokens (s : State) (e : RxE) (stok : BitVec 4) : State :=
  (List.range 4).foldl (fun s i => if stok.getLsbD i then syncPush s s.now (.chip (e.tokctr + i)) (.inc 1) else s) s

/-- Delivery of a released bead, or of its receive Fold (R121, R122, R126, R127). -/
def deliverRx (s : State) (l slot : Nat) (c : CtxId) (p : Plan) (h k : Nat) (e : RxE) (b : BitVec 2560) : State :=
  if e.rfld then
    let n := abufOf p e.abuf
    match abufAt (getAbuf s n) s.now with
    | none => fwdRaise (bump s (rFWD_LNK_TX l) fFWD_LNK_TX_NOTREADY) c (slotFault 0x4005 l h k slot 0)
    | some o =>
      let s1 := if e.rel then abufFree s n (s.now + 4) else s
      match foldBeads e.fop b o with
      | .inl v => if e.dlv then deliver s1 l e.chan (s.now + foldLat p) c v else s1
      | .inr lane => fwdRaise s1 c (slotFault 0x2010 l h k (lane + 2 ^ 8) slot)
  else if e.dlv then deliver s l e.chan (s.now + 4) c b else s

/-- Operands B of the transmit Folds that take this bead as operand A are read at its release (R119, R121). -/
def readFoldBs (s : State) (l : Nat) (c : CtxId) (x : Ctx) (p : Plan) : State :=
  let t := s.now + foldLat p
  (List.range 24).foldl (fun s m =>
    match txEntry p x (resumeStep s c) m (t / 4) with
    | some (h, k, e) =>
      if e.kind = 3 && e.srca = l && !e.bsel then
        let n := abufOf p e.abuf
        let b := abufAt (getAbuf s n) s.now
        let s1 := { s with foldB := { tick := t, link := m, ctx := c, pay := b } :: s.foldB.filter fun f => decide (s.now ≤ f.tick) }
        match b with
        | some _ => if e.rel then abufFree s1 n (s.now + 4) else s1
        | none => fwdRaise (bump s1 (rFWD_LNK_TX m) fFWD_LNK_TX_NOTREADY) c (slotFault 0x4005 m h k (t / 4) 0)
      else s
    | none => s) s

/-- A receive entry at its due tick: its bead is released, or is missing (R119, R129). -/
def releaseOne (s : State) (l : Nat) (c : CtxId) (x : Ctx) (p : Plan) (r : Nat × Nat × Nat × RxE) : State :=
  let (slot, h, k, e) := r
  match (lehrGet s l slot).filter fun b => b.slot = slot && decide (b.at_ < s.now) with
  | some b =>
    let s1 := lehrSet s l slot none
    let s2 := { s1 with rel := { tick := s.now, link := l, ctx := c, pay := b.pay } :: s1.rel.filter fun q => decide (s.now ≤ q.tick + 12) }
    readFoldBs (deliverRx (tokens s2 e b.stok) l slot c p h k e b.pay) l c x p
  | none =>
    fwdRaise (bump s (rFWD_LNK_RX0 l) fFWD_LNK_RX0_MISSING) c { slotFault 0x4001 l h k slot 0 with peer := peerKind s l }

/-- Whether a release of this link at this tick has been made already. -/
def releasedNow (s : State) (l : Nat) (c : CtxId) : Bool := s.rel.any fun q => q.tick = s.now && q.link = l && q.ctx = c

/-- DUE_TICK_RELEASE (R119). -/
def execDueTickRelease (l : LinkId) (s : State) : Out :=
  .next (allCtx.foldl (fun s (c : CtxId) =>
    let x := getCtx s c
    match x.image with
    | some p =>
      if keepsProgram x && !voidAt x s.now && !releasedNow s l c then
        (dueEntries p x (resumeStep s c) l s.now).foldl (fun s r => releaseOne s l c x p r) s
      else s
    | none => s) s)

/-! ### Arrivals of planned beads (R128 to R130, R164) -/

/-- The slot congruent to x modulo 256 whose departure tick lies nearest d; halfway, the earlier (R128). -/
def nearestOf (d x : Nat) : Nat :=
  if d / 4 < x then x
  else
    let q := d / 4 - (d / 4 - x) % 256
    if d - 4 * q ≤ 4 * (q + 256) - d then q else q + 256

/-- The slot of an arriving planned bead (R128): a replay's from the record of the sequence, or else the latest that fits. -/
def arrivalSlot (s : State) (l : Nat) (h : W64) (rec_ : Option Nat) : Nat :=
  let d := s.now - expOf s l
  if hRpl h then
    match rec_ with
    | some n => n
    | none =>
      let n := d / 4
      if hSlot h ≤ n then n - (n - hSlot h) % 256 else hSlot h
  else nearestOf d (hSlot h)

/-- The context that owns a position, with its plan (R113); of those a recovery closed, the one whose image holds it. -/
def ownerOf (s : State) (l slot : Nat) : Option CtxId := allCtx.find? fun c => (ownMask s c l).getLsbD (slot % 64)

/-- The receive entry a slot had in the plan of a context that a recovery closed (R20, R137). -/
def recovOwner (s : State) (c : CtxId) (l slot : Nat) : Option RxE :=
  (s.recov.find? fun e => decide (e.1 = c)).bind fun e => e.2.image.bind fun p => (rxEntry p e.2 e.2.rs l slot).map (·.2.2)

/-- What becomes of a PLANNED or VOID bead in its slot (R129, R130). During a recovery one that a closed context's entry would
have delivered is counted in RECOV_DROP, a VOID as well as a planned bead (R20, R137; log 105). -/
def planArrive (s : State) (l slot : Nat) (h : W64) (pay : BitVec 2560) : State :=
  match ownerOf s l slot with
  | none => bump s (rFWD_LNK_RX2 l) fFWD_LNK_RX2_UNOWNED
  | some c =>
    let x := getCtx s c
    match x.image with
    | none =>
      match recovOwner s c l slot with
      | some e => bump s (rFWD_LNK_RX2 l) (if e.dlv then fFWD_LNK_RX2_RECOV_DROP else fFWD_LNK_RX2_UNOWNED)
      | none => bump s (rFWD_LNK_RX2 l) fFWD_LNK_RX2_UNOWNED
    | some p =>
      if !keepsProgram x || voidAt x s.now then bump s (rFWD_LNK_RX2 l) fFWD_LNK_RX2_UNOWNED
      else
        let en := rxEntry p x (resumeStep s c) l slot
        let (hh, k) := match en with | some (a, b, _) => (a, b) | none => (0, 0)
        let bad (s : State) : State :=
          fwdRaise (bump s (rFWD_LNK_RX0 l) fFWD_LNK_RX0_UNPLANNED) c (slotFault 0x4002 l hh k slot 0)
        if hEpoch h ≠ x.job.toNat then bad s
        else if isFlux (fluxN s l) slot && !(hRpl h) then bad s
        else match en with
          | some (_, _, e) =>
            if e.kind ≠ 1 then bad s
            else if hGen h ≠ x.gen.toNat then bump s (rFWD_LNK_RX1 l) fFWD_LNK_RX1_STALE
            else if 4 * slot + e.due ≤ s.now then bump s (rFWD_LNK_RX1 l) fFWD_LNK_RX1_LATE
            else if hClass h = 7 then
              fwdRaise (bump s (rFWD_LNK_RX0 l) fFWD_LNK_RX0_MISSING) c { slotFault 0x4001 l hh k slot 1 with d0 := slot, d1 := 1, peer := peerKind s l }
            else match lehrGet s l slot with
              | some _ => fwdRaise s c (slotFault 0x4004 l hh k slot 0)
              | none => lehrSet s l slot (some { slot := slot, at_ := s.now, stok := BitVec.ofNat 4 (hStok h), pay := pay })
          | none => bad s

/-- A PLANNED or VOID bead as the link layer and then the plane take it. -/
def rxPlan (s : State) (l : Nat) (h : W64) (pay : BitVec 2560) (fixed : Nat) : State :=
  if !rxLive s l then s
  else
    let rec_ := ((getLink s l).rxErr.find? fun e => e.1 % 4096 = hLseq h).map (·.2)
    let r := rxBead s l h fixed
    match r.1 with
    | none => r.2
    | some _ =>
      let s1 := rxDone r l
      if fencedOut s l h then bump s1 (rLNK_FENCE_DROP l) fLNK_FENCE_DROP_FOREIGN
      else planArrive s1 l (arrivalSlot s l h rec_) h pay

/-- PLANNED_BEAD_ARRIVAL (R128 to R130). -/
def execPlannedBeadArrival (l : LinkId) (h : BitVec 64) (pay : BitVec 2560) (err : BitVec 2816) (s : State) : Out :=
  .next (match rxDecode { h := h, pay := pay, err := err } with
    | .ok h pay fixed => if hClass h = 1 then rxPlan s l h pay fixed else s
    | .bad _ => s)

/-- VOID_BEAD_ARRIVAL (R129). -/
def execVoidBeadArrival (l : LinkId) (h : BitVec 64) (r : BeadBody) (s : State) : Out :=
  .next (match rxDecode { r with h := h } with
    | .ok h _ fixed => if hClass h = 7 then rxPlan s l h 0 fixed else s
    | .bad _ => s)

end Machine
end Sys2Proof
end

