-- ==== Sys2Proof/Machine/Bundle.lean ====
section
/-! DEFINITION. The bundle (R28, R33, R36 to R40): the command that each slot of a 256-bit bundle spells. An undefined opcode
spells none. -/
namespace Sys2Proof
namespace Machine

/-- Bits hi to lo of a number. -/
def fld (w hi lo : Nat) : Nat := w / 2 ^ lo % 2 ^ (hi + 1 - lo)

/-! ### Slot fields (R36 to R39) -/

def matOf (w : Nat) : MatSlot :=
  { fmt := BitVec.ofNat 4 (fld w 57 54), wb := BitVec.ofNat 1 (fld w 53 53), af := BitVec.ofNat 1 (fld w 52 52)
    rep := BitVec.ofNat 8 (fld w 51 44), accrow := BitVec.ofNat 8 (fld w 43 36), accz := BitVec.ofNat 1 (fld w 35 35)
    ad := BitVec.ofNat 3 (fld w 34 32), off := BitVec.ofNat 19 (fld w 31 13), soff := BitVec.ofNat 13 (fld w 12 0) }

def vecOf (w : Nat) : VecSlot :=
  { vd := BitVec.ofNat 5 (fld w 55 51), va := BitVec.ofNat 5 (fld w 50 46), vb := BitVec.ofNat 5 (fld w 45 41)
    vc := BitVec.ofNat 5 (fld w 40 36), ty := BitVec.ofNat 4 (fld w 35 32), rm := BitVec.ofNat 3 (fld w 31 29)
    msk := BitVec.ofNat 3 (fld w 28 26), imm := BitVec.ofNat 26 (fld w 25 0) }

def memOf (w : Nat) : MemSlot :=
  { vr := BitVec.ofNat 5 (fld w 42 38), ad := BitVec.ofNat 3 (fld w 37 35), off := BitVec.ofNat 19 (fld w 34 16)
    size := BitVec.ofNat 3 (fld w 15 13), ty := BitVec.ofNat 4 (fld w 12 9), stride := BitVec.ofNat 9 (fld w 8 0) }

def meshOf (w : Nat) : MeshSlot :=
  { entry := BitVec.ofNat 7 (fld w 43 37), ad := BitVec.ofNat 3 (fld w 36 34), off := BitVec.ofNat 19 (fld w 33 15)
    len := BitVec.ofNat 4 (fld w 14 11), chan := BitVec.ofNat 9 (fld w 10 2), rsv := BitVec.ofNat 2 (fld w 1 0) }

/-! ### Commands by opcode -/

/-- The control slot, bits [255:224] of the bundle (R28, R33). -/
def ctlCmd (t : TileId) (b : Nat) : Option Instr :=
  let w := fld b 255 224
  let sc := BitVec.ofNat 2 (fld w 25 24)
  let target := BitVec.ofNat 16 (fld w 23 8)
  let k := BitVec.ofNat 8 (fld w 7 0)
  let idx := BitVec.ofNat 10 (fld w 9 0)
  let ad := BitVec.ofNat 3 (fld w 25 23)
  let r3 := BitVec.ofNat 3 (fld w 22 20)
  let v := BitVec.ofNat 20 (fld w 19 0)
  match fld w 31 26 with
  | 0x00 => some (.nop t (BitVec.ofNat 26 (fld w 25 0)))
  | 0x01 => some (.pinc t sc target k)
  | 0x02 => some (.pset t sc target k)
  | 0x03 => some (.pwait t (decide (fld w 25 25 = 1)) (BitVec.ofNat 12 (fld w 24 13)) (BitVec.ofNat 3 (fld w 12 10)) idx)
  | 0x04 => some (.twait t (BitVec.ofNat 16 (fld w 25 10)) idx)
  | 0x05 => some (.step t (BitVec.ofNat 26 (fld w 25 0)))
  | 0x06 => some (.loop t (BitVec.ofNat 14 (fld w 25 12)) (BitVec.ofNat 1 (fld w 11 11)) (BitVec.ofNat 11 (fld w 10 0)))
  | 0x07 => some (.jmp t (BitVec.ofNat 15 (fld w 25 11)) (BitVec.ofNat 11 (fld w 10 0)))
  | 0x08 => some (.bload t (BitVec.ofNat 6 (fld w 25 20)) (BitVec.ofNat 5 (fld w 19 15)) (BitVec.ofNat 15 (fld w 14 0)))
  | 0x09 => some (.aadd t ad r3 v)
  | 0x0A => some (.aset t ad r3 v)
  | 0x0B => some (.seed t (BitVec.ofNat 10 (fld w 25 16)) (BitVec.ofNat 16 (fld w 15 0)))
  | 0x0C => some (.halt t (BitVec.ofNat 26 (fld w 25 0)))
  | _ => none

/-- The matrix slot, bits [223:160] (R28, R36, R40). -/
def matCmd (t : TileId) (b : Nat) : Option Instr :=
  let w := fld b 223 160
  let f := matOf w
  match fld w 63 58 with
  | 0x00 => some (.mnop t) | 0x01 => some (.mwl t f) | 0x02 => some (.mwlt t f) | 0x03 => some (.mma t f)
  | 0x04 => some (.mdr t f) | 0x05 => some (.mdrc t f) | 0x06 => some (.mdrv t f) | 0x07 => some (.mclr t f)
  | _ => none

/-- The vector slot, bits [159:96] (R28, R37, R40). -/
def vecCmd (t : TileId) (b : Nat) : Option Instr :=
  let w := fld b 159 96
  let f := vecOf w
  match fld w 63 56 with
  | 0x00 => some (.vnop t) | 0x01 => some (.vadd t f) | 0x02 => some (.vsub t f) | 0x03 => some (.vmul t f) | 0x04 => some (.vfma t f)
  | 0x05 => some (.vmax t f) | 0x06 => some (.vmin t f) | 0x07 => some (.vcmp t f) | 0x08 => some (.vsel t f) | 0x09 => some (.vcvt t f)
  | 0x0A => some (.vlogic t f) | 0x0B => some (.vshf t f) | 0x0C => some (.vred t f) | 0x10 => some (.vexp2 t f) | 0x11 => some (.vlog2 t f)
  | 0x12 => some (.vrcp t f) | 0x13 => some (.vrsqrt t f) | 0x18 => some (.vrng t f) | 0x20 => some (.vamx t f) | 0x21 => some (.vaenc t f)
  | 0x22 => some (.vadec t f)
  | _ => none

/-- The memory slot, bits [95:48] (R28, R38, R40). -/
def memCmd (t : TileId) (b : Nat) : Option Instr :=
  let w := fld b 95 48
  let f := memOf w
  match fld w 47 43 with
  | 0x00 => some (.memnop t) | 0x01 => some (.vld t f) | 0x02 => some (.vst t f) | 0x03 => some (.vldx t f) | 0x04 => some (.vstx t f)
  | 0x05 => some (.vlds t f) | 0x06 => some (.mcpy t f) | 0x07 => some (.mzero t f)
  | _ => none

/-- The mesh slot, bits [47:0] (R28, R39, R40); an XNOP whose RSV is not 0 spells none. -/
def meshCmd (t : TileId) (b : Nat) : Option Instr :=
  let w := fld b 47 0
  let f := meshOf w
  match fld w 47 44 with
  | 0x0 => if f.rsv = 0 then some (.xnop t) else none
  | 0x1 => some (.xsend t f) | 0x2 => some (.xrecv t f) | 0x3 => some (.xdrop t f)
  | _ => none

end Machine
end Sys2Proof
end

