-- ==== Sys2Proof/Machine/TileCtl.lean ====
section
/-! DEFINITION. The control slot (R30, R33 to R35, R51 to R55): each command opens the tile's next bundle. -/
namespace Sys2Proof
namespace Machine

/-- NOP (R40): the bundle issues with no sequencer action; RSV must be 0 (R33). -/
def execNop (t : TileId) (rsv : BitVec 26) (s : State) : Out :=
  .next (ctlSlot s t fun s => if rsv ≠ 0 then badEnc s t 1 else s)

/-- The context that holds a tile owns the tile or the chip-wide counter named (R55). -/
def ownsTile (s : State) (t : Nat) (u : Nat) : Bool :=
  match (getTile s t).own with
  | some c => (getCtx s c).tiles.getLsbD u
  | none => false

def ownsChip (s : State) (t : Nat) (n : Nat) : Bool :=
  match (getTile s t).own with
  | some c => decide ((getCtx s c).ctrBase ≤ n) && decide (n < (getCtx s c).ctrBase + (getCtx s c).ctrLen)
  | none => false

/-- An operation enters the sync network at the capture tick plus XO (R200), and the tile keeps which one its bundle sent. -/
def sendSync (s : State) (t : TileId) (r : CtrRef) (op : PunOp) : State :=
  modTile (syncPush s (captureAt s t + XO) r op) t fun x => { x with sent := some { due := captureAt s t + XO + 8, ctr := r, op := op } }

/-- PINC and PSET share their targets (R33, R53, R55): an own local counter changes in the next cc, any other through
the sync network, entered at the capture tick plus XO (R200). -/
def punTarget (s : State) (t : TileId) (sc : BitVec 2) (target : BitVec 16) (op : PunOp) : State :=
  let n := target.toNat
  if sc = 0 then
    if n < 64 then modTile s t fun x => sched x (x.cc + 1) (.pun n op) else badEnc s t 1
  else if sc = 1 then
    if n / 64 % 4 ≠ 0 then badEnc s t 1
    else if ownsTile s t (n / 256) then sendSync s t (.tile (Fin.ofNat 256 (n / 256)) (n % 64)) op
    else outOfBounds s t 1
  else if sc = 2 then
    if 4096 ≤ n then badEnc s t 1
    else if ownsChip s t n then sendSync s t (.chip n) op
    else outOfBounds s t 1
  else badEnc s t 1

/-- PINC (R53): amount 1 to 255 (R33). -/
def execPinc (t : TileId) (sc : BitVec 2) (target : BitVec 16) (amount : BitVec 8) (s : State) : Out :=
  .next (ctlSlot s t fun s => if amount = 0 then badEnc s t 1 else punTarget s t sc target (.inc amount.toNat))

/-- PSET (R52). -/
def execPset (t : TileId) (sc : BitVec 2) (target : BitVec 16) (value : BitVec 8) (s : State) : Out :=
  .next (ctlSlot s t fun s => punTarget s t sc target (.set (BitVec.ofNat 32 value.toNat)))

/-- The condition of a wait, as the tile's zone sees it now (R51, R53, R54). -/
def condHolds (s : State) (t : Nat) (c : WaitFor) : Bool :=
  match c with
  | .local n v => punMet (localCtr (getTile s t) n) v
  | .chip n v => punMet (chipAt s n (s.now - (2 + XI))) v
  | .time k => decide (k + XI ≤ s.now)
  | .step k => decide (k + XI ≤ s.now)

/-- A STEP that issues begins the tile's next step. -/
def stepFresh (s : State) (t : Nat) (c : WaitFor) : State :=
  match c with
  | .step _ => modTile s t fun x => { x with steps := x.steps + 1 }
  | _ => s

/-- A control slot that waits: the cc begins; if its condition holds the bundle issues in it, else issue stalls (R29, R54). -/
def waitIssue (s : State) (t : Nat) (cond : WaitFor) (bound : Option Nat) : State :=
  if condHolds s t cond then takeBundle (stepFresh s t cond) t
  else modTile s t fun x =>
    { x with st := (match cond with | .step _ => .atStep | _ => .waiting), stalled := (x.stalled + 1) % 2 ^ 64
             stall := some { cond := cond, since := s.now, bound := bound } }

/-- A tile that can issue begins its next cc and then waits or issues. -/
def ctlWait (s : State) (t : Nat) (f : State → State) : State :=
  if canIssue s t then
    let s1 := advanceCc s t
    if (getTile s1 t).st = .issuing then f s1 else s1
  else s

/-- A wait table entry: target and bound; absent with bound 0 or beyond the table (R54). -/
def waitEntry (x : Tile) (i : Nat) : Option (W32 × Nat) :=
  match x.waitTab[i]? with
  | some w => if w.toNat % 2 ^ 32 = 0 then none else some (BitVec.ofNat 32 (w.toNat >>> 32), w.toNat % 2 ^ 32)
  | none => none

/-- PWAIT (R54). An absent entry, which PLAN_LOAD refuses, is an out-of-range value at issue: EXEC 0x00D (log 110). -/
def execPwait (t : TileId) (chip : Bool) (counter : BitVec 12) (rsv : BitVec 3) (idx : BitVec 10) (s : State) : Out :=
  .next (ctlWait s t fun s =>
    let n := counter.toNat
    match waitEntry (getTile s t) idx.toNat with
    | none => badEnc s t 1
    | some (target, bound) =>
      if rsv ≠ 0 || (!chip && decide (64 ≤ n)) then badEnc s t 1
      else if chip then
        if ownsChip s t n then waitIssue s t (.chip n target) (some bound) else outOfBounds s t 1
      else waitIssue s t (.local n target) (some bound))

/-- The start tick of the step the tile's zone is in: that of the last boundary it has seen (R54, R200). -/
def startOf (s : State) (t : Nat) : Nat :=
  match (getTile s t).own with
  | some c =>
    match (getCtx s c).image with
    | some p => (getCtx s c).launchAt + stepOffset p (resumeStep s c) (zoneSteps s t)
    | none => 0
  | none => 0

/-- TWAIT (R54): until the step's start tick plus the target. -/
def execTwait (t : TileId) (rsv : BitVec 16) (idx : BitVec 10) (s : State) : Out :=
  .next (ctlWait s t fun s =>
    match waitEntry (getTile s t) idx.toNat with
    | none => badEnc s t 1
    | some (target, bound) =>
      if rsv ≠ 0 then badEnc s t 1
      else
        waitIssue s t (.time (startOf s t + target.toNat)) (some bound))

/-- The tick of the boundary that ends the tile's step k of the run (R54, R234). -/
def boundaryOf (s : State) (t : Nat) (k : Nat) : Nat :=
  match (getTile s t).own with
  | some c =>
    match (getCtx s c).image with
    | some p => (getCtx s c).launchAt + stepOffset p (resumeStep s c) (k + 1)
    | none => 0
  | none => 0

/-- The tick of the zone's last edge before the edge of the present cc. -/
def edgeBefore (s : State) (t : Nat) : Nat := if 1 < (getTile s t).ran.2 then s.now else (getZone s (zoneOf t)).prevEdge

/-- STEP (R54): late when an earlier cc of the zone already saw the boundary (EXEC 0x00C). -/
def execStep (t : TileId) (rsv : BitVec 26) (s : State) : Out :=
  .next (ctlWait s t fun s =>
    let x := getTile s t
    let b := boundaryOf s t x.steps
    if rsv ≠ 0 then badEnc s t 1
    else if b + XI ≤ edgeBefore s t then tileFault s t 1 0x200C 0 0
    else waitIssue s t (.step b) none)

/-- LOOP (R34): the body is the next `len` + 1 bundles, run `count` + 1 times; a fifth level raises EXEC 0x00A. -/
def execLoop (t : TileId) (count : BitVec 14) (rsv : BitVec 1) (len : BitVec 11) (s : State) : Out :=
  .next (ctlSlot s t fun s =>
    let x := getTile s t
    if rsv ≠ 0 then badEnc s t 1
    else if 4 ≤ x.loops.length then tileFault s t 1 0x200A 0 0
    else
      let b := (x.cur + 1) % 2048
      setTile s t { x with bidx := b
                           loops := { left := count.toNat + 1, first := b, last := (x.cur + 1 + len.toNat) % 2048 } :: x.loops })

/-- JMP (R34): valid only with an empty loop stack. -/
def execJmp (t : TileId) (rsv : BitVec 15) (target : BitVec 11) (s : State) : Out :=
  .next (ctlSlot s t fun s =>
    let x := getTile s t
    if rsv ≠ 0 || x.loops ≠ [] then badEnc s t 1
    else setTile s t { x with bidx := target.toNat })

/-- BLOAD (R30): 32 bundles read in the next cc; the block is valid for issue from 4 cc after. -/
def execBload (t : TileId) (block : BitVec 6) (rsv : BitVec 5) (addr : BitVec 15) (s : State) : Out :=
  .next (ctlSlot s t fun s =>
    let x := getTile s t
    if rsv ≠ 0 then badEnc s t 1
    else if x.cur / 32 = block.toNat then tileFault s t 1 0x200B 0 0
    else
      let x1 := sched x (x.cc + 1) (.rdB (16 * addr.toNat) block.toNat)
      setTile s t { x1 with blkFrom := tset (fun _ => 0) x1.blkFrom block.toNat (x.cc + 4) })

/-- AADD (R35): wraps modulo 2^20; usable by the bundle of the next cc. -/
def execAadd (t : TileId) (ad : BitVec 3) (rsv : BitVec 3) (inc : BitVec 20) (s : State) : Out :=
  .next (ctlSlot s t fun s =>
    if rsv ≠ 0 then badEnc s t 1
    else modTile s t fun x => sched x (x.cc + 1) (.setAd ad.toNat (adreg x ad.toNat + inc)))

/-- ASET (R35). -/
def execAset (t : TileId) (ad : BitVec 3) (rsv : BitVec 3) (value : BitVec 20) (s : State) : Out :=
  .next (ctlSlot s t fun s =>
    if rsv ≠ 0 then badEnc s t 1
    else modTile s t fun x => sched x (x.cc + 1) (.setAd ad.toNat value))

/-- SEED (R72): the stream is current, with draw index 0, in the next cc. -/
def execSeed (t : TileId) (stream : BitVec 10) (rsv : BitVec 16) (s : State) : Out :=
  .next (ctlSlot s t fun s =>
    if rsv ≠ 0 then badEnc s t 1
    else modTile s t fun x => sched x (x.cc + 1) (.seed stream))

/-- HALT (R250): the tile stops for the rest of the plan. -/
def execHalt (t : TileId) (rsv : BitVec 26) (s : State) : Out :=
  .next (ctlSlot s t fun s =>
    if rsv ≠ 0 then badEnc s t 1 else modTile s t fun x => { x with st := .halted })

/-- EXEC 0x002: the fault tick is that of the first stalled cc plus the bound plus 1 (R54). -/
def waitTimeout (s : State) (t : Nat) (since b : Nat) : State :=
  let x := getTile s t
  let s1 := setTile s t { x with st := .faulted, stall := none }
  match x.own with
  | some c => raiseAt s1 c (since + b + 1) (faultInfo 0x2002 1 t (streamOff x x.bidx))
  | none => s1

/-- A stalled tile in its next cc s1, in which its bundle issues. -/
def resume (s1 : State) (t : Nat) : State :=
  if (getTile s1 t).st = .faulted then s1 else takeBundle s1 t

/-- The condition of a stalled bundle holds in the tile's next cc, as seen through the crossing: the bundle issues in that
cc; past its bound it faults instead (R54, R204). -/
def execWaitSatisfied (t : TileId) (s : State) : Out :=
  match (getTile s t).stall with
  | none => .next s
  | some w =>
    let s1 := advanceCc s t
    if !zoneRuns s (zoneOf t) || stopSeen s t || !condHolds s1 t w.cond then .next s
    else
      match w.bound with
      | some b => if w.since + b < s.now then .next (waitTimeout s t w.since b) else .next (resume s1 t)
      | none => .next (resume (stepFresh s1 t w.cond) t)

/-- The bound of a stalled PWAIT or TWAIT has passed (R54). -/
def execWaitBoundExceeded (t : TileId) (s : State) : Out :=
  match (getTile s t).stall with
  | none => .next s
  | some w =>
    match w.bound with
    | some b => if w.since + b < s.now && !stopSeen s t then .next (waitTimeout s t w.since b) else .next s
    | none => .next s

end Machine
end Sys2Proof
end

