-- ==== Sys2Proof/Machine/TileMatrix.lean ====
section
/-! DEFINITION. The matrix slot (R32, R36, R40, R42 to R44, R62 to R65). -/
namespace Sys2Proof
namespace Machine

/-- Formats the matrix array takes (R43). -/
def fmtOk (f : BitVec 4) : Bool := decide (f ≤ 0x6) || f = 0x8 || f = 0x9 || f = 0xA

/-- Reads of 512 B that a weight chunk takes, without its scales (R43, R62). -/
def chunkReads (f : BitVec 4) : Nat := if f = 0x5 || f = 0x6 then 12 else if f = 0xA then 8 else 16

/-- MWL n: the chunk's reads and the scale read (R43). -/
def mwlN (f : BitVec 4) : Nat := chunkReads f + (if hasScales f then 1 else 0)

/-- Lines of the scale read: 512 B, or 256 B for MXFP6 (R62). -/
def scaleLines (f : BitVec 4) : Nat := if f = 0x5 || f = 0x6 then 4 else 8

def streaming (x : Tile) : Bool := decide (x.cc < x.mmaEnd)
def draining (x : Tile) : Bool := decide (x.cc < x.drainEnd)

/-- Formats that may meet: equal, or both FP8 (R44). -/
def fmtMatch (a b : BitVec 4) : Bool := a = b || (decide (a ≤ 1) && decide (b ≤ 1))

/-- A load into buffer b, told apart by its issue cc from others still in flight. -/
def loadKey (x : Tile) (b : Nat) : Nat := 2 * x.cc + b

/-- MWL and MWLT (R44): the recorded format changes at issue; the content lands after n + 3 or n + 5 cc in LC1, one less in LC2. -/
def loadWeights (s : State) (t : Nat) (f : MatSlot) (trans : Bool) : State :=
  let x := getTile s t
  let u := effAddr x f.ad f.off
  let b := f.wb.toNat
  if !fmtOk f.fmt then badEnc s t 2
  else if 2 ^ 19 ≤ u then outOfBounds s t 2
  else if u % 8 ≠ 0 then badEnc s t 2
  else if 2 ^ 19 < u + 8 * chunkReads f.fmt + (if hasScales f.fmt then scaleLines f.fmt else 0) then outOfBounds s t 2
  else if streaming x && x.mmaWb = b then tileFault s t 2 0x2007 0 0
  else if draining x && trans then tileFault s t 2 0x2006 0 0
  else
    let n := mwlN f.fmt
    let lat := n + (if trans then 5 else 3) - (if isLc2 s x then 1 else 0)
    let x1 := setWbuf x b { wbuf x b with fmt := f.fmt }
    let x2 := (List.range (chunkReads f.fmt)).foldl (fun x' k => sched x' (x.cc + 1 + k) (.rdW (u + 8 * k) 8 (loadKey x b) (4096 * k))) x1
    let x3 := if hasScales f.fmt then
        sched x2 (x.cc + 1 + chunkReads f.fmt) (.rdW (u + 8 * chunkReads f.fmt) (scaleLines f.fmt) (loadKey x b) 65536)
      else x2
    setTile s t (sched x3 (x.cc + lat) (.wbLand b (loadKey x b) f.fmt trans))

/-- Latency of an MMA row (R40, R247). -/
def mmaLat (f : BitVec 4) (lc2 : Bool) : Nat := (if lc2 then 11 else 15) + (if f = 0xA then 4 else 0)

/-- Rows past 255 are an out-of-range value (R36). -/
def rowsOk (f : MatSlot) : Bool := decide (f.accrow.toNat + f.rep.toNat ≤ 255)

/-- Unit address of the first scale line of A: the other tier, plus SOFF (R44). -/
def scaleAddr (u : Nat) (f : MatSlot) : Nat := (u ^^^ 2 ^ 18) + f.soff.toNat

/-- MMA (R42 to R44): row j meets the stationary matrix of cc i + j, is read in cc i + 1 + j and final at the end of cc
i + j + L (R31, R32); scale line g is read in cc i + 16g. -/
def mmaIssue (s : State) (t : Nat) (f : MatSlot) : State :=
  let x := getTile s t
  let u := effAddr x f.ad f.off
  let rows := f.rep.toNat + 1
  let gs := (rows + 15) / 16
  if !fmtOk f.fmt || !rowsOk f then badEnc s t 2
  else if 2 ^ 19 ≤ u + rows - 1 || (hasScales f.fmt && decide (2 ^ 19 ≤ scaleAddr u f + gs - 1)) then outOfBounds s t 2
  else if streaming x || draining x then tileFault s t 2 0x2006 0 0
  else if !fmtMatch f.fmt (wbuf x f.wb.toNat).fmt then tileFault s t 2 0x2008 0 0
  else
    let lat := mmaLat f.fmt (isLc2 s x)
    let row (j : Nat) : MmaRow :=
      { af := f.af.toNat, row := f.accrow.toNat + j, fmt := f.fmt, accz := f.accz = 1, land := x.cc + j + lat
        j := j, iss := x.cc, wb := f.wb.toNat, buf := wbuf x f.wb.toNat }
    let x1 := (List.range rows).foldl (fun x' j => sched x' (x.cc + j) (.rdWt (u + j) (row j))) x
    let x2 := if hasScales f.fmt then
        (List.range gs).foldl (fun x' g => sched x' (x.cc + 16 * g) (.rdSc (scaleAddr u f + g))) x1
      else x1
    let s1 := setTile s t { x2 with mmaEnd := x.cc + rows, mmaWb := f.wb.toNat, mmaAf := f.af.toNat }
    if hasScales f.fmt then bankCheck s1 t else s1

/-- The kinds of drain (R40, R44). -/
inductive DrainKind where
  | mdr | mdrc | mdrv
  deriving DecidableEq, Repr

/-- Units that one row pair of a drain writes. -/
def drainUnits (k : DrainKind) (f : BitVec 4) : Nat :=
  match k with
  | .mdr => 16
  | .mdrc => if f = 0x8 || f = 0x9 then 8 else 4
  | .mdrv => 0

/-- Drains (R32, R40, R42, R44): pair k is read in cc d + 1 + k and written in the cc its latency gives. -/
def drainIssue (s : State) (t : Nat) (f : MatSlot) (k : DrainKind) : State :=
  let x := getTile s t
  let u := effAddr x f.ad f.off
  let pairs := (f.rep.toNat + 1) / 2
  let w := drainUnits k f.fmt
  let fmtBad := decide (k = .mdrc) && !(f.fmt = 0x0 || f.fmt = 0x1 || f.fmt = 0x8 || f.fmt = 0x9)
  if f.rep.toNat % 2 = 0 || !rowsOk f || fmtBad || (decide (k = .mdrv) && decide (f.rep ≠ 1)) then badEnc s t 2
  else if decide (k ≠ .mdrv) && decide (2 ^ 19 ≤ u) then outOfBounds s t 2
  else if decide (k ≠ .mdrv) && decide (u % w ≠ 0) then badEnc s t 2
  else if decide (k ≠ .mdrv) && decide (2 ^ 19 < u + w * pairs) then outOfBounds s t 2
  else if streaming x || draining x then tileFault s t 2 0x2006 0 0
  else
    let lat := (if isLc2 s x then 4 else 6) + (if k = .mdrc then 1 else 0)
    let x1 := (List.range pairs).foldl (fun x' p =>
      sched x' (x.cc + 1 + p) (.drain f.af.toNat (f.accrow.toNat + 2 * p)
        (if k = .mdrv then f.off.toNat % 32 else u + w * p)
        (if k = .mdrc then some f.fmt else none) (decide (k = .mdrv)) (lat - 1) (bundleWin x))) x
    setTile s t { x1 with drainEnd := x.cc + pairs }

/-- MCLR (R32, R44): REP + 1 rows zero, usable 2 cc after issue. -/
def clearAcc (s : State) (t : Nat) (f : MatSlot) : State :=
  let x := getTile s t
  if !rowsOk f then badEnc s t 2
  else if (streaming x && x.mmaAf = f.af.toNat) || draining x then tileFault s t 2 0x2006 0 0
  else setTile s t (sched x (x.cc + 1) (.accClr f.af.toNat f.accrow.toNat (f.rep.toNat + 1) x.cc))

/-- MNOP (R40). -/
def execMnop (t : TileId) (s : State) : Out := .next (engSlot s t 0 id)
/-- MWL (R44). -/
def execMwl (t : TileId) (f : MatSlot) (s : State) : Out := .next (engSlot s t 0 fun s => loadWeights s t f false)
/-- MWLT (R44). -/
def execMwlt (t : TileId) (f : MatSlot) (s : State) : Out := .next (engSlot s t 0 fun s => loadWeights s t f true)
/-- MMA (R42). -/
def execMma (t : TileId) (f : MatSlot) (s : State) : Out := .next (engSlot s t 0 fun s => mmaIssue s t f)
/-- MDR (R44): FP32 rows unchanged (R65). -/
def execMdr (t : TileId) (f : MatSlot) (s : State) : Out := .next (engSlot s t 0 fun s => drainIssue s t f .mdr)
/-- MDRC (R65). -/
def execMdrc (t : TileId) (f : MatSlot) (s : State) : Out := .next (engSlot s t 0 fun s => drainIssue s t f .mdrc)
/-- MDRV (R44): a row pair into one vector register. -/
def execMdrv (t : TileId) (f : MatSlot) (s : State) : Out := .next (engSlot s t 0 fun s => drainIssue s t f .mdrv)
/-- MCLR (R44). -/
def execMclr (t : TileId) (f : MatSlot) (s : State) : Out := .next (engSlot s t 0 fun s => clearAcc s t f)

end Machine
end Sys2Proof
end

