-- ==== Sys2Proof/Machine/TileMem.lean ====
section
/-! DEFINITION. The memory slot (R35, R38, R40, R46, R68) and the mesh slot (R39, R50). -/
namespace Sys2Proof
namespace Machine

/-- 64-byte lines of a SIZE (R38). -/
def sizeLines (z : BitVec 3) : Nat := 2 ^ z.toNat

/-- Lines of a VLDX or VSTX in a format: 512 B for the 16-bit formats, 256 B for FP8 and INT8 (R38). -/
def extLines (f : BitVec 4) : Nat := if f = 0x8 || f = 0x9 then 8 else 4

/-- Formats of VLDX and VSTX (R68). -/
def extOk (f : BitVec 4) : Bool := f = 0x0 || f = 0x1 || f = 0x2 || f = 0x8 || f = 0x9

/-- The memory slot is taken in this cc, so open-class accesses wait (R16, R48). -/
def memTaken (x : Tile) : Tile := { x with memBusy := true }

/-- An access of n lines at an effective address aligned to itself: first the address (R35), then its alignment (R38). An
aligned access of a size that divides 2^19 never passes the end of the SRAM. -/
def memAccess (s : State) (t : Nat) (ok : Bool) (u n : Nat) (f : Tile → Tile) : State :=
  if !ok then badEnc s t 4
  else if 2 ^ 19 ≤ u then outOfBounds s t 4
  else if u % n ≠ 0 then badEnc s t 4
  else modTile s t fun x => f (memTaken x)

/-- Lanes of a register as lines of 32-bit words. -/
def regLines (l : List W32) (n : Nat) : List (BitVec 512) := cutLines n (l.foldr (fun w a => w.toNat + 2 ^ 32 * a) 0)

/-- Lanes narrowed to a format and packed (R68). -/
def narrowLines (f : BitVec 4) (l : List W32) : List (BitVec 512) :=
  cutLines (extLines f) (l.foldr (fun w a => narrowTo f .nearest (ofF32 w) + 2 ^ elemBits f * a) 0)

/-- MEMNOP (R40). -/
def execMemnop (t : TileId) (s : State) : Out := .next (engSlot s t 2 id)
/-- VLD (R38, R40): read at +1, usable at +3. -/
def execVld (t : TileId) (f : MemSlot) (s : State) : Out :=
  .next (engSlot s t 2 fun s =>
    let u := effAddr (getTile s t) f.ad f.off
    memAccess s t (decide (f.size < 5)) u (sizeLines f.size) fun x =>
      sched x (x.cc + 1) (.rdV u (sizeLines f.size) f.vr.toNat none (x.cc + 3)))
/-- VST (R31, R38): stores the register as it stood in the issue cc; write at +1. -/
def execVst (t : TileId) (f : MemSlot) (s : State) : Out :=
  .next (engSlot s t 2 fun s =>
    let u := effAddr (getTile s t) f.ad f.off
    memAccess s t (decide (f.size < 5)) u (sizeLines f.size) fun x =>
      sched x (x.cc + 1) (.wr u (regLines (vreg x f.vr.toNat) (sizeLines f.size)) 4 (bundleWin x)))
/-- VLDX (R38, R68): widens to FP32 exactly; usable at +4. -/
def execVldx (t : TileId) (f : MemSlot) (s : State) : Out :=
  .next (engSlot s t 2 fun s =>
    let u := effAddr (getTile s t) f.ad f.off
    memAccess s t (extOk f.ty) u (extLines f.ty) fun x =>
      sched x (x.cc + 1) (.rdV u (extLines f.ty) f.vr.toNat (some f.ty) (x.cc + 4)))
/-- VSTX (R38, R68): narrows to nearest even; write at +2. -/
def execVstx (t : TileId) (f : MemSlot) (s : State) : Out :=
  .next (engSlot s t 2 fun s =>
    let u := effAddr (getTile s t) f.ad f.off
    memAccess s t (extOk f.ty) u (extLines f.ty) fun x =>
      sched x (x.cc + 2) (.wr u (narrowLines f.ty (vreg x f.vr.toNat)) 4 (bundleWin x)))
/-- VLDS (R40): sixteen lines at a stride. It uses no SIZE, so that field is ignored, whatever it holds (log 111); a line past
2^19 faults the whole access at issue (log 112). -/
def execVlds (t : TileId) (f : MemSlot) (s : State) : Out :=
  .next (engSlot s t 2 fun s =>
    let u := effAddr (getTile s t) f.ad f.off
    if 2 ^ 19 ≤ u + 15 * f.stride.toNat then outOfBounds s t 4
    else modTile s t fun x => sched (memTaken x) (x.cc + 1) (.rdS u f.stride.toNat f.vr.toNat (x.cc + 3)))
/-- MCPY (R40): destination VR x 2^14 + STRIDE x 32; both aligned to SIZE; read at +1, write at +2. -/
def execMcpy (t : TileId) (f : MemSlot) (s : State) : Out :=
  .next (engSlot s t 2 fun s =>
    let u := effAddr (getTile s t) f.ad f.off
    let d := f.vr.toNat * 2 ^ 14 + f.stride.toNat * 32
    let n := sizeLines f.size
    memAccess s t (decide (f.size < 5) && decide (d % n = 0)) u n fun x =>
      sched x (x.cc + 1) (.rdC u n d (bundleWin x)))
/-- MZERO (R40): write at +1. -/
def execMzero (t : TileId) (f : MemSlot) (s : State) : Out :=
  .next (engSlot s t 2 fun s =>
    let u := effAddr (getTile s t) f.ad f.off
    memAccess s t (decide (f.size < 5)) u (sizeLines f.size) fun x =>
      sched x (x.cc + 1) (.wr u (List.replicate (sizeLines f.size) 0) 4 (bundleWin x)))

/-- XNOP (R40). -/
def execXnop (t : TileId) (s : State) : Out := .next (engSlot s t 3 id)

/-- A mesh transfer of LEN + 1 words at u, one per cc from the next: its checks and the path it keeps busy (R32, R39). -/
def meshXfer (s : State) (t : Nat) (f : MeshSlot) (busy : Tile → Nat) (mark : Tile → Nat → Tile) (act : Tile → Nat → Nat → Act) : State :=
  let x := getTile s t
  let u := effAddr x f.ad f.off
  let n := f.len.toNat + 1
  if f.rsv ≠ 0 then badEnc s t 5
  else if 2 ^ 19 ≤ u + n - 1 then outOfBounds s t 5
  else if x.cc < busy x then tileFault s t 5 0x2006 0 0
  else setTile s t (mark ((List.range n).foldl (fun x' k => sched x' (x.cc + 1 + k) (act x (u + k) k)) x) (x.cc + n))

/-- XSEND (R50): word k is read in cc i + 1 + k into outbox entry ENTRY + k, tagged with CHAN. -/
def execXsend (t : TileId) (f : MeshSlot) (s : State) : Out :=
  .next (engSlot s t 3 fun s =>
    meshXfer s t f (·.sendEnd) (fun x e => { x with sendEnd := e })
      fun _ u k => .rdOut u ((f.entry.toNat + k) % 128) f.chan.toNat)
/-- XRECV (R50): inbox word k is written in cc i + 1 + k and its entry freed. -/
def execXrecv (t : TileId) (f : MeshSlot) (s : State) : Out :=
  .next (engSlot s t 3 fun s =>
    meshXfer s t f (·.recvEnd) (fun x e => { x with recvEnd := e })
      fun x u k => .wrIn u ((f.entry.toNat + k) % 128) (bundleWin x))
/-- XDROP (R50): frees LEN + 1 inbox entries without writing them. -/
def execXdrop (t : TileId) (f : MeshSlot) (s : State) : Out :=
  .next (engSlot s t 3 fun s =>
    if f.rsv ≠ 0 then badEnc s t 5
    else modTile s t fun x => (List.range (f.len.toNat + 1)).foldl (fun x k => sched x x.cc (.drop ((f.entry.toNat + k) % 128))) x)

end Machine
end Sys2Proof
end

