-- ==== Sys2Proof/Machine/Philox.lean ====
section
/-! DEFINITION. Philox4x32-10, keyed and counted as R71 states, and the words of R72. -/
namespace Sys2Proof
namespace Machine

/-- One round of Philox4x32. -/
def philoxRound (k0 k1 : Nat) (c : Nat × Nat × Nat × Nat) : Nat × Nat × Nat × Nat :=
  let (c0, c1, c2, c3) := c
  let p0 := 0xD2511F53 * c0
  let p1 := 0xCD9E8D57 * c2
  (((p1 >>> 32) ^^^ c1 ^^^ k0) % 2 ^ 32, p1 % 2 ^ 32, ((p0 >>> 32) ^^^ c3 ^^^ k1) % 2 ^ 32, p0 % 2 ^ 32)

/-- `n` rounds with the Weyl key schedule. -/
def philoxRounds : Nat → Nat → Nat → Nat × Nat × Nat × Nat → Nat × Nat × Nat × Nat
  | 0, _, _, c => c
  | n + 1, k0, k1, c =>
    philoxRounds n ((k0 + 0x9E3779B9) % 2 ^ 32) ((k1 + 0xBB67AE85) % 2 ^ 32) (philoxRound k0 k1 c)

/-- The four output words for a 64-bit key and a 128-bit counter. -/
def philox (key ctr : Nat) : Nat × Nat × Nat × Nat :=
  philoxRounds 10 (key % 2 ^ 32) ((key >>> 32) % 2 ^ 32)
    (ctr % 2 ^ 32, (ctr >>> 32) % 2 ^ 32, (ctr >>> 64) % 2 ^ 32, (ctr >>> 96) % 2 ^ 32)

/-- The counter of R71. -/
def philoxCtr (step rank tile stream block : Nat) : Nat :=
  (step % 2 ^ 48) * 2 ^ 80 + (rank % 2 ^ 16) * 2 ^ 64 + (tile % 2 ^ 8) * 2 ^ 56 +
    (stream % 2 ^ 10) * 2 ^ 46 + block % 2 ^ 46

/-- Word w of a stream (R72). -/
def streamWord (seed : W64) (step rank tile stream w : Nat) : W32 :=
  let (a, b, c, d) := philox seed.toNat (philoxCtr step rank tile stream (w / 4))
  BitVec.ofNat 32 (if w % 4 = 0 then a else if w % 4 = 1 then b else if w % 4 = 2 then c else d)

end Machine
end Sys2Proof
end

