-- ==== Sys2Proof/Machine/TileVector.lean ====
section
/-! DEFINITION. The vector slot (R37, R40, R41, R66 to R77, R416). -/
namespace Sys2Proof
namespace Machine

def lane (l : List W32) (i : Nat) : W32 := l.getD i 0

/-- Which TYPE codes an operation takes (R416). -/
inductive TyUse where
  | none | three | four
  deriving DecidableEq, Repr

/-- What an operation needs of its slot: TYPE, RM, and even registers (R37, R416). -/
structure VecNeed where
  ty   : TyUse
  rm   : Bool
  evD  : Bool
  evA  : Bool
  evB  : Bool
  imm  : Bool
  deriving DecidableEq, Repr

def odd5 (r : BitVec 5) : Bool := r.getLsbD 0

/-- EXEC 0x00D for a vector slot (R37, R41, R80, R416). -/
def vecBad (n : VecNeed) (f : VecSlot) : Bool :=
  (match n.ty with | .none => false | .three => decide (3 ≤ f.ty) | .four => decide (4 ≤ f.ty)) ||
  (n.rm && (decide (n.ty = .none) || f.ty = 0) && decide (5 ≤ f.rm)) ||
  (n.evD && odd5 f.vd) || (n.evA && odd5 f.va) || (n.evB && odd5 f.vb) || !n.imm

/-- The operation rounds by RM, and so draws when RM = 4 (R72, R416). -/
def usesRm (n : VecNeed) (f : VecSlot) : Bool := n.rm && (decide (n.ty = .none) || f.ty = 0)

/-- The seed slot, rank and step the generator is keyed with (R71, R264): the step as the tile's zone sees it. -/
def randWord (s : State) (t : Nat) (x : Tile) (d l : Nat) : W32 :=
  match x.own with
  | none => streamWord 0 0 0 t x.stream.toNat (256 * d + l)
  | some c =>
    match (getCtx s c).image with
    | none => streamWord 0 0 0 t x.stream.toNat (256 * d + l)
    | some p =>
      streamWord (p.seeds.getD (x.stream.toNat / 64) 0) (resumeStep s c + x.stepSeen) p.rank t x.stream.toNat (256 * d + l)

/-- The rounding of lane l (R37, R70, R72). -/
def laneRnd (s : State) (t : Nat) (x : Tile) (rm : BitVec 3) (l : Nat) : Rnd :=
  if rm = 0 then .nearest else if rm = 1 then .zero else if rm = 2 then .down else if rm = 3 then .up
  else .stoch (randWord s t x x.draw l).toNat

/-- Results by lane scheduled for the vector port, masked (R31, R37). -/
def putLanes (x : Tile) (f : VecSlot) (r : Nat) (lat : Nat) (g : Nat → W32) : Tile :=
  let q := qreg x f.msk.toNat
  let vals := lanes256.filterMap fun l => if q.getLsbD l then some (l, g l) else none
  sched x (x.cc + lat) (.setV 0 r vals)

/-- A vector operation: its checks, its effect, then one draw if RM = 4 is used (R72, R416). -/
def vecOp (s : State) (t : Nat) (n : VecNeed) (f : VecSlot) (g : State → State) : State :=
  if vecBad n f then badEnc s t 3
  else
    let s1 := g s
    if usesRm n f && f.rm = 4 && (getTile s1 t).st ≠ .faulted then modTile s1 t fun x => { x with draw := x.draw + 1 } else s1

def need (ty : TyUse) (rm : Bool) : VecNeed := { ty := ty, rm := rm, evD := false, evA := false, evB := false, imm := true }

/-- A lane-by-lane operation of VA and VB. -/
def vec2 (s : State) (t : Nat) (f : VecSlot) (lat : Nat) (g : Tile → Nat → W32 → W32 → W32) : State :=
  modTile s t fun x =>
    let a := vreg x f.va.toNat
    let b := vreg x f.vb.toNat
    putLanes x f f.vd.toNat lat fun l => g x l (lane a l) (lane b l)

/-- A 64-bit lane of a register pair (R67). -/
def pairLane (x : Tile) (r : Nat) (l : Nat) : BitVec 64 := lane (vreg x (r + 1)) l ++ lane (vreg x r) l

/-- A 64-bit result into an even-odd pair. -/
def putPairs (x : Tile) (f : VecSlot) (lat : Nat) (g : Nat → BitVec 64) : Tile :=
  putLanes (putLanes x f f.vd.toNat lat fun l => (g l).truncate 32) f (f.vd.toNat + 1) lat fun l => ((g l) >>> 32).truncate 32

/-- INT64 VADD and VSUB: exact, or EXEC 0x00F if an unmasked lane leaves the range (R67). -/
def int64Op (s : State) (t : Nat) (f : VecSlot) (g : Int → Int → Int) : State :=
  let x := getTile s t
  let q := qreg x f.msk.toNat
  let res (l : Nat) : Int := g (pairLane x f.va.toNat l).toInt (pairLane x f.vb.toNat l).toInt
  if lanes256.any fun l => q.getLsbD l && (decide (res l < -(2 ^ 63)) || decide (2 ^ 63 ≤ res l)) then tileFault s t 3 0x200F 0 0
  else setTile s t (putPairs x f 2 fun l => BitVec.ofInt 64 (res l))

/-- VADD and VSUB by TYPE (R66, R67). -/
def addSub (s : State) (t : Nat) (f : VecSlot) (sub : Bool) : State :=
  let i64 := decide (f.ty = 3)
  let n : VecNeed := { ty := .four, rm := true, evD := i64, evA := i64, evB := i64, imm := true }
  vecOp s t n f fun s =>
    if f.ty = 3 then int64Op s t f (fun a b => if sub then a - b else a + b)
    else if f.ty = 0 then
      vec2 s t f 4 fun x l a b =>
        let rm := laneRnd s t x f.rm l
        toF32 rm (addN rm (ofF32 a) (if sub then negN (ofF32 b) else ofF32 b))
    else vec2 s t f 1 fun _ _ a b => if sub then a - b else a + b

/-- VMAX and VMIN by TYPE (R66). -/
def pick (ty : BitVec 4) (mx : Bool) (a b : W32) : W32 :=
  if ty = 0 then (if mx then maxF a b else minF a b)
  else if ty = 1 then (if mx then (if a.slt b then b else a) else (if b.slt a then b else a))
  else (if mx then (if a.ult b then b else a) else (if b.ult a then b else a))

/-- A comparison of R41 and R67. -/
def compareLane (ty : BitVec 4) (cond : Nat) (a b : W32) : Bool :=
  let o : Option Ordering := if ty = 0 then cmpF a b
    else if ty = 1 then some (compare a.toInt b.toInt)
    else some (compare a.toNat b.toNat)
  match o with
  | none => decide (cond = 1)
  | some o =>
    if cond = 0 then o == .eq
    else if cond = 1 then o != .eq
    else if cond = 2 then o == .lt
    else if cond = 3 then o != .gt
    else if cond = 4 then o == .gt
    else o != .lt

/-- s(l) of a VSHF pattern (R41). -/
def shfSrc (p l : Nat) : Nat :=
  if p = 0 then 255 - l
  else if p ≤ 8 then l ^^^ 2 ^ (p - 1)
  else if p = 9 then (l + 255) % 256
  else if p = 10 then (l + 1) % 256
  else if p = 11 then 0
  else if p = 12 then (if l < 128 then 2 * l else 2 * (l - 128) + 1)
  else if p = 13 then (if l % 2 = 0 then l / 2 else 128 + (l - 1) / 2)
  else 16 * (l % 16) + l / 16

/-- One level of the fixed tree of VRED (R40): neighbours combined in pairs. -/
def pairUp (g : W32 → W32 → W32) : List W32 → List W32
  | a :: b :: r => g a b :: pairUp g r
  | r => r

def treeRed (g : W32 → W32 → W32) : Nat → List W32 → List W32
  | 0, l => l
  | n + 1, l => treeRed g n (pairUp g l)

/-- The operation of VRED (R41, R66, R67). -/
def redOp (ty : BitVec 4) (mx : Bool) (a b : W32) : W32 :=
  if mx then pick ty true a b
  else if ty = 0 then toF32 .nearest (addN .nearest (ofF32 a) (ofF32 b))
  else a + b

/-- A transcendental operation: the pipe is busy for 4 cc after it (R32, R69). -/
def transOp (s : State) (t : Nat) (f : VecSlot) (g : W32 → W32) : State :=
  vecOp s t (need .none false) f fun s =>
    let x := getTile s t
    if x.cc < x.trEnd then tileFault s t 3 0x2006 0 0
    else
      let a := vreg x f.va.toNat
      setTile s t { putLanes x f f.vd.toNat 16 (fun l => g (lane a l)) with trEnd := x.cc + 4 }

/-- VNOP (R40). -/
def execVnop (t : TileId) (s : State) : Out := .next (engSlot s t 1 id)
/-- VADD (R66, R67). -/
def execVadd (t : TileId) (f : VecSlot) (s : State) : Out := .next (engSlot s t 1 fun s => addSub s t f false)
/-- VSUB (R66, R67). -/
def execVsub (t : TileId) (f : VecSlot) (s : State) : Out := .next (engSlot s t 1 fun s => addSub s t f true)
/-- VMUL (R66, R67): an integer product keeps its low 32 bits. -/
def execVmul (t : TileId) (f : VecSlot) (s : State) : Out :=
  .next (engSlot s t 1 fun s => vecOp s t (need .three true) f fun s =>
    vec2 s t f 4 fun x l a b =>
      if f.ty = 0 then toF32 (laneRnd s t x f.rm l) (mulN (ofF32 a) (ofF32 b)) else a * b)
/-- VFMA (R66): rounds once, after the full product-sum. -/
def execVfma (t : TileId) (f : VecSlot) (s : State) : Out :=
  .next (engSlot s t 1 fun s => vecOp s t (need .none true) f fun s =>
    vec2 s t f 4 fun x l a b =>
      let rm := laneRnd s t x f.rm l
      toF32 rm (addN rm (mulN (ofF32 a) (ofF32 b)) (ofF32 (lane (vreg x f.vc.toNat) l))))
/-- VMAX (R66). -/
def execVmax (t : TileId) (f : VecSlot) (s : State) : Out :=
  .next (engSlot s t 1 fun s => vecOp s t (need .three false) f fun s => vec2 s t f 2 fun _ _ a b => pick f.ty true a b)
/-- VMIN (R66). -/
def execVmin (t : TileId) (f : VecSlot) (s : State) : Out :=
  .next (engSlot s t 1 fun s => vecOp s t (need .three false) f fun s => vec2 s t f 2 fun _ _ a b => pick f.ty false a b)
/-- VCMP (R41): bit l of the mask register for each lane whose MSK bit is 1. -/
def execVcmp (t : TileId) (f : VecSlot) (s : State) : Out :=
  let cond := f.imm.toNat / 8 % 8
  .next (engSlot s t 1 fun s =>
    vecOp s t { need .three false with imm := decide (f.imm.toNat < 64) && decide (cond < 6) } f fun s =>
      modTile s t fun x =>
        let a := vreg x f.va.toNat
        let b := vreg x f.vb.toNat
        let bits := lanes256.foldr (fun l acc => (if compareLane f.ty cond (lane a l) (lane b l) then 1 else 0) + 2 * acc) 0
        sched x (x.cc + 2) (.setQ (f.imm.toNat % 8) (BitVec.ofNat 256 bits) (qreg x f.msk.toNat)))
/-- VSEL (R40). -/
def execVsel (t : TileId) (f : VecSlot) (s : State) : Out :=
  .next (engSlot s t 1 fun s => vecOp s t (need .none false) f fun s =>
    vec2 s t f 1 fun x l a b => if (qreg x (f.imm.toNat % 8)).getLsbD l then a else b)
/-- VCVT (R68). -/
def execVcvt (t : TileId) (f : VecSlot) (s : State) : Out :=
  let src : BitVec 4 := BitVec.ofNat 4 f.imm.toNat
  let dst : BitVec 4 := BitVec.ofNat 4 (f.imm.toNat / 16)
  let ok := (src = 0xA || src = 0xB || src = 0xC) &&
    (dst = 0x0 || dst = 0x1 || dst = 0x2 || dst = 0x8 || dst = 0x9 || dst = 0xA || dst = 0xB || dst = 0xC)
  .next (engSlot s t 1 fun s => vecOp s t { need .none true with imm := ok } f fun s =>
    vec2 s t f 3 fun x l a _ => vcvtLane src dst (laneRnd s t x f.rm l) a)
/-- VLOGIC (R40): AND, OR, XOR, AND-NOT (VA and not VB; log 11). -/
def execVlogic (t : TileId) (f : VecSlot) (s : State) : Out :=
  let k := f.imm.toNat % 4
  .next (engSlot s t 1 fun s => vecOp s t (need .none false) f fun s =>
    vec2 s t f 1 fun _ _ a b => if k = 0 then a &&& b else if k = 1 then a ||| b else if k = 2 then a ^^^ b else a &&& ~~~ b)
/-- VSHF (R41). -/
def execVshf (t : TileId) (f : VecSlot) (s : State) : Out :=
  .next (engSlot s t 1 fun s => vecOp s t { need .none false with imm := decide (f.imm.toNat < 15) } f fun s =>
    modTile s t fun x =>
      let a := vreg x f.va.toNat
      putLanes x f f.vd.toNat 2 fun l => lane a (shfSrc f.imm.toNat l))
/-- VRED (R40, R41, R66): lane 0 from the fixed tree; lanes 1 to 255 keep their values. -/
def execVred (t : TileId) (f : VecSlot) (s : State) : Out :=
  .next (engSlot s t 1 fun s => vecOp s t { need .three false with imm := decide (f.imm.toNat < 2) } f fun s =>
    modTile s t fun x =>
      let r := lane (treeRed (redOp f.ty (decide (f.imm.toNat = 1))) 8 (vreg x f.va.toNat)) 0
      sched x (x.cc + 12) (.setV 0 f.vd.toNat (if (qreg x f.msk.toNat).getLsbD 0 then [(0, r)] else [])))
/-- VEXP2 (R69). -/
def execVexp2 (t : TileId) (f : VecSlot) (s : State) : Out := .next (engSlot s t 1 fun s => transOp s t f exp2V)
/-- VLOG2 (R69). -/
def execVlog2 (t : TileId) (f : VecSlot) (s : State) : Out := .next (engSlot s t 1 fun s => transOp s t f log2V)
/-- VRCP (R69). -/
def execVrcp (t : TileId) (f : VecSlot) (s : State) : Out := .next (engSlot s t 1 fun s => transOp s t f rcpV)
/-- VRSQRT (R69). -/
def execVrsqrt (t : TileId) (f : VecSlot) (s : State) : Out := .next (engSlot s t 1 fun s => transOp s t f rsqrtV)
/-- VRNG (R72): 32 random bits per lane; exactly one draw. -/
def execVrng (t : TileId) (f : VecSlot) (s : State) : Out :=
  .next (engSlot s t 1 fun s => vecOp s t (need .none false) f fun s =>
    modTile s t fun x =>
      { putLanes x f f.vd.toNat 6 (fun l => randWord s t x x.draw l) with draw := x.draw + 1 })
/-- VAMX (R73): the maximum exponent over all 256 lanes, whatever the mask. -/
def execVamx (t : TileId) (f : VecSlot) (s : State) : Out :=
  .next (engSlot s t 1 fun s => vecOp s t (need .none false) f fun s =>
    modTile s t fun x =>
      let m := (vreg x f.va.toNat).foldl (fun a w => max a (alloyExp w)) (-32768 : Int)
      putLanes x f f.vd.toNat 10 fun _ => BitVec.ofInt 32 m)

/-- A lane of VAENC that its exponent does not admit: non-finite, or a nonzero value with e(x) above it (R73, R75). -/
def encBad (e : Int) (w : W32) : Bool :=
  match ofF32 w with
  | .fin _ m _ => decide (m ≠ 0) && decide (e < alloyExp w)
  | _ => true

/-- VAENC (R75): EXEC 0x00E names the lowest failing unmasked lane and its exponent (R80, R281). -/
def execVaenc (t : TileId) (f : VecSlot) (s : State) : Out :=
  .next (engSlot s t 1 fun s => vecOp s t { need .none false with evD := true } f fun s =>
    let x := getTile s t
    let a := vreg x f.va.toNat
    let e := (lane (vreg x f.vb.toNat) 0).toInt
    let q := qreg x f.msk.toNat
    if e = 32767 then setTile s t (putPairs x f 5 fun _ => 0)
    else
      match lanes256.find? fun l => q.getLsbD l && encBad e (lane a l) with
      | some l =>
        tileFault s t 3 0x200E (l + (BitVec.ofInt 16 (alloyExp (lane a l))).toNat * 2 ^ 16) 0
      | none => setTile s t (putPairs x f 5 fun l => alloyEnc e (lane a l)))
/-- VADEC (R77). -/
def execVadec (t : TileId) (f : VecSlot) (s : State) : Out :=
  .next (engSlot s t 1 fun s => vecOp s t { need .none false with evA := true } f fun s =>
    modTile s t fun x =>
      let e := (lane (vreg x f.vb.toNat) 0).toInt
      putLanes x f f.vd.toNat 5 fun l => alloyDec e (f.imm.getLsbD 0) (pairLane x f.va.toNat l))

end Machine
end Sys2Proof
end

