-- ==== Sys2Proof/Machine/Sequencer.lean ====
section
/-! DEFINITION. The sequencer (R28 to R30, R54): the ccs in which a tile runs its own bundle store. A command of the table takes
a cc of its tile at the tick it comes; the ccs of a tick that no command has taken run as the tick ends (log 1). -/
namespace Sys2Proof
namespace Machine

/-- The state a command of a tile's slot leaves; any other command is none of the sequencer's. -/
def slotOut (i : Instr) (s : State) : Out :=
  match i with
  | .nop t rsv => execNop t rsv s
  | .pinc t sc target amount => execPinc t sc target amount s
  | .pset t sc target value => execPset t sc target value s
  | .pwait t chip counter rsv idx => execPwait t chip counter rsv idx s
  | .twait t rsv idx => execTwait t rsv idx s
  | .step t rsv => execStep t rsv s
  | .loop t count rsv len => execLoop t count rsv len s
  | .jmp t rsv target => execJmp t rsv target s
  | .bload t block rsv addr => execBload t block rsv addr s
  | .aadd t ad rsv inc => execAadd t ad rsv inc s
  | .aset t ad rsv value => execAset t ad rsv value s
  | .seed t stream rsv => execSeed t stream rsv s
  | .halt t rsv => execHalt t rsv s
  | .mnop t => execMnop t s
  | .mwl t f => execMwl t f s
  | .mwlt t f => execMwlt t f s
  | .mma t f => execMma t f s
  | .mdr t f => execMdr t f s
  | .mdrc t f => execMdrc t f s
  | .mdrv t f => execMdrv t f s
  | .mclr t f => execMclr t f s
  | .vnop t => execVnop t s
  | .vadd t f => execVadd t f s
  | .vsub t f => execVsub t f s
  | .vmul t f => execVmul t f s
  | .vfma t f => execVfma t f s
  | .vmax t f => execVmax t f s
  | .vmin t f => execVmin t f s
  | .vcmp t f => execVcmp t f s
  | .vsel t f => execVsel t f s
  | .vcvt t f => execVcvt t f s
  | .vlogic t f => execVlogic t f s
  | .vshf t f => execVshf t f s
  | .vred t f => execVred t f s
  | .vexp2 t f => execVexp2 t f s
  | .vlog2 t f => execVlog2 t f s
  | .vrcp t f => execVrcp t f s
  | .vrsqrt t f => execVrsqrt t f s
  | .vrng t f => execVrng t f s
  | .vamx t f => execVamx t f s
  | .vaenc t f => execVaenc t f s
  | .vadec t f => execVadec t f s
  | .memnop t => execMemnop t s
  | .vld t f => execVld t f s
  | .vst t f => execVst t f s
  | .vldx t f => execVldx t f s
  | .vstx t f => execVstx t f s
  | .vlds t f => execVlds t f s
  | .mcpy t f => execMcpy t f s
  | .mzero t f => execMzero t f s
  | .xnop t => execXnop t s
  | .xsend t f => execXsend t f s
  | .xrecv t f => execXrecv t f s
  | .xdrop t f => execXdrop t f s
  | _ => .next s

def slotNext (i : Instr) (s : State) : State := match slotOut i s with | .next u => u | _ => s

/-- One engine slot of the bundle now open: its command, or EXEC 0x00D for an undefined opcode. -/
def runSlot (t : TileId) (slot : Nat) (i : Option Instr) (s : State) : State :=
  let x := getTile s t
  if x.isOpen && (x.st = .issuing || x.st = .halted) then
    match i with
    | some i => slotNext i s
    | none => badEnc s t slot
  else s

/-- The engine slots of a bundle, in the cc in which it issues (R29). -/
def runEngines (t : TileId) (b : Nat) (s : State) : State :=
  runSlot t 5 (meshCmd t b) (runSlot t 4 (memCmd t b) (runSlot t 3 (vecCmd t b) (runSlot t 2 (matCmd t b) s)))

def storeWord (x : Tile) (i : Nat) : Nat := (tget (fun _ => (0 : BitVec 256)) x.store i).toNat

/-- The next bundle of the store issues, all its slots in one cc (R28 to R30). -/
def runBundle (s : State) (t : TileId) : State :=
  let b := storeWord (getTile s t) (getTile s t).bidx
  runEngines t b (match ctlCmd t b with | some i => slotNext i s | none => ctlSlot s t fun s => badEnc s t 1)

/-- A stalled tile's next cc: its bundle issues if the condition holds in time, or its bound has passed, or it stalls on (R54). -/
def stalledCc (s : State) (t : TileId) (w : Stall) : State :=
  let s1 := advanceCc s t
  let b := storeWord (getTile s1 t) (getTile s1 t).bidx
  let past := match w.bound with | some n => decide (w.since + n < s.now) | none => false
  if (getTile s1 t).st = .faulted then s1
  else if past then waitTimeout s1 t w.since (w.bound.getD 0)
  else if condHolds s1 t w.cond then runEngines t b (takeBundle (stepFresh s1 t w.cond) t)
  else modTile s1 t fun x => { x with stalled := (x.stalled + 1) % 2 ^ 64 }

/-- One cc of a tile that runs by itself. -/
def tileCc (s : State) (t : TileId) : State :=
  if canIssue s t then runBundle s t
  else match (getTile s t).stall with
    | some w => if stopSeen s t then advanceCc s t else stalledCc s t w
    | none => advanceCc s t

/-- The tile issues, waits, or still has work for its next cc. -/
def tileLive (s : State) (t : Nat) : Bool :=
  let x := getTile s t
  canIssue s t || x.isOpen || x.acts ≠ [] || x.stall.isSome || x.xin ≠ [] || x.incs ≠ []

/-- The ccs of the present tick that a tile has not had. -/
def ccOwed (s : State) (t : Nat) : Nat :=
  let x := getTile s t
  (getZone s (zoneOf t)).edges - (if x.ran.1 = s.now then x.ran.2 else 0)

/-- A tile runs n ccs, as long as it has something to do in them. -/
def tileCcs (t : TileId) : Nat → State → State
  | 0, s => s
  | n + 1, s => if tileLive s t then tileCcs t n (tileCc s t) else s

/-- The tiles of a zone run the ccs that the zone's edges of the present tick owe them. -/
def runZone (s : State) (z : Nat) : State :=
  if (getZone s z).edges = 0 then s
  else (List.range 16).foldl (fun s i => let t : TileId := Fin.ofNat 256 (16 * z + i); tileCcs t (ccOwed s t) s) s

def runOwed (s : State) : State := (List.range 16).foldl runZone s

end Machine
end Sys2Proof
end

