-- ==== Sys2Proof/Machine/ZoneOps.lean ====
section
/-! DEFINITION. Staged fields and their snapshots (R11, R253, R254), and the shared operations of the clock zones: steps,
floors, histories and the start of a step change (08 R196 to R211). -/
namespace Sys2Proof
namespace Machine

/-! ### Staged fields (R9, R11, R253, R254) -/

/-- The staged registers of a block (R253). -/
def stagedRegs : Block → List Nat
  | .fwd => [rFWD_PORT_MAP0, rFWD_PORT_MAP1]
  | .lnk l => [rLNK_LANE_MAP l]
  | .tim => [rTIM_MASTER_RATE, rTIM_ROLE, rTIM_TOD_INC, rTIM_TOD_STEP]
  | .opn => [rOPN_RT_CTL, rOPN_RT_BASE]
  | .clk => (List.range 16).map rCLK_ZONE_CTL
  | .cane i => [rSBD_CANE_CTL i]

/-- The STG fields of a register. -/
def stagedMask (off : Nat) : W64 :=
  match regAt off with
  | some r => r.fields.foldl (fun m f => if f.acc = .stg then m ||| fmask f.fld else m) 0
  | none => 0

/-- The shadow copy of a register's staged fields: it starts as the reset value. -/
def shadowGet (s : State) (off : Nat) : W64 := tget regReset s.shadow off
def shadowPut (s : State) (off : Nat) (w : W64) : State := { s with shadow := tset regReset s.shadow off w }
/-- A change of the shadow copy by the module itself, for a COMMIT of its own in the same GCLK cycle. -/
def shadowMod (s : State) (off : Nat) (g : W64 → W64) : State :=
  let e := tget (fun _ => (0, 0)) s.shadowAt off
  { shadowPut s off (g (shadowGet s off)) with
    shadowAt := if e.1 = gclk s + 1 then tset (fun _ => (0, 0)) s.shadowAt off (e.1, g e.2) else s.shadowAt }
def shadowSet (s : State) (off : Nat) (w : W64) : State := shadowMod s off fun _ => w
/-- A staged field written by the module itself. -/
def stage (s : State) (off : Nat) (f : Fld) (v : Nat) : State := shadowMod s off fun w => fset f w v

/-- What a COMMIT of the present GCLK cycle finds in a shadow copy: a staged write of the same cycle waits for the next
COMMIT (R11). -/
def shadowSeen (s : State) (o : Nat) : W64 :=
  let e := tget (fun _ => (0, 0)) s.shadowAt o
  if e.1 = gclk s + 1 then e.2 else shadowGet s o

/-- COMMIT: a snapshot of every staged field of the block, in place of one that still waits (R11, R254). -/
def commitBlock (s : State) (b : Block) : State :=
  let sn : Snap := { block := b, at_ := s.now, words := (stagedRegs b).map fun o => (o, shadowSeen s o) }
  { s with snaps := sn :: s.snaps.filter fun q => q.block ≠ b }

/-- One register's staged fields become active. -/
def applyWord (s : State) (off : Nat) (w : W64) : State :=
  let m := stagedMask off
  regSet s off ((regGet s off &&& ~~~ m) ||| (w &&& m))

/-! ### Steps (R197, R201, R208) -/

/-- NOM of a step: cc in any 4,096 ticks (R197). -/
def nomOf (st : Nat) : Nat :=
  if st = 0 then 8192 else if st = 1 then 7281 else if st = 2 then 6553 else if st = 3 then 5461 else 4096

/-- cc of a step over n ticks (R197). -/
def ccOver (st n : Nat) : Nat :=
  if st = 0 then 2 * n else if st = 1 then 16 * n / 9 else if st = 2 then 8 * n / 5 else if st = 3 then 4 * n / 3 else n

/-- Root periods of the k-th period of a step's pattern, and the length of the pattern (R196, R197). -/
def periodOf (st k : Nat) : Nat :=
  if st = 0 then 2 else if st = 1 then (if k % 4 = 3 then 3 else 2) else if st = 2 then (if k % 2 = 1 then 3 else 2)
  else if st = 3 then 3 else 4

def patLen (st : Nat) : Nat := if st = 1 then 4 else if st = 2 then 2 else 1

def zoneStep (s : State) (z : Nat) : Nat := rd s (rCLK_ZONE_CTL z) fCLK_ZONE_CTL_STEP
/-- A step passed calibration (R201). -/
def stepOk (s : State) (z st : Nat) : Bool := (BitVec.ofNat 5 (rd s (rCLK_XING z) fCLK_XING_STEP_OK)).getLsbD st
/-- The slowest passing step; step 4 where none passed (R208). -/
def slowestOk (s : State) (z : Nat) : Nat := ((List.range 5).reverse.find? (stepOk s z)).getD 4
/-- The nearest passing step slower than st (R208). -/
def slowerOk (s : State) (z st : Nat) : Option Nat := (List.range 5).find? fun k => decide (st < k) && stepOk s z k
/-- The nearest passing step faster than st (R208). -/
def fasterOk (s : State) (z st : Nat) : Option Nat := (List.range 5).reverse.find? fun k => decide (k < st) && stepOk s z k

/-- Fused voltage code of a step (R198, R213). -/
def voltOf (s : State) (z st : Nat) : Nat := ((regGet s (rCLK_ZONE_VOLT z)).toNat >>> (8 * st)) % 256

/-! ### Who holds a zone (R205, R206, R211) -/

/-- Logical tiles a context's plan holds (R243). -/
def planTiles (x : Ctx) : BitVec 256 := match x.image with | some p => p.tiles | none => 0
/-- The plan of a context holds a tile of the zone. -/
def inZone (x : Ctx) (z : Nat) : Bool := (List.range 16).any fun i => (planTiles x).getLsbD (16 * z + i)

/-- Contexts whose plan, in a state that `p` accepts, holds a tile of the zone. -/
def zoneCtxs (s : State) (z : Nat) (p : Ctx → Bool) : List CtxId := allCtx.filter fun c => p (getCtx s c) && inZone (getCtx s c) z

/-- A parison or running plan holds the zone. -/
def zoneHeld (s : State) (z : Nat) : Bool := zoneCtxs s z holdsPlan ≠ []

/-- FS and SLK an image declares for a zone (R234). -/
def imageFs (p : Plan) (z : Nat) : Option (Nat × Nat) := (p.zoneFs.find? (·.1 = z)).map (·.2)

/-- The effective floor and slack of a zone: the fastest FS and the smallest SLK (R205); none where no plan holds it. -/
def effFloor (s : State) (z : Nat) : Option (Nat × Nat) :=
  (zoneCtxs s z holdsPlan).foldl (fun a (c : CtxId) =>
    match (getCtx s c).image with
    | some p => match imageFs p z, a with
      | some v, some w => some (min v.1 w.1, min v.2 w.2)
      | some v, none => some v
      | none, _ => a
    | none => a) none

/-- The Gaffer writes FLOOR, SLK and VFLOOR of every zone and commits them together (R207). -/
def floorUpdate (s : State) : State :=
  commitBlock ((List.range 16).foldl (fun s z =>
    let (fs, slk) := (effFloor s z).getD (4, 0)
    stage (stage (stage s (rCLK_ZONE_CTL z) fCLK_ZONE_CTL_FLOOR fs) (rCLK_ZONE_CTL z) fCLK_ZONE_CTL_SLK slk)
      (rCLK_ZONE_CTL z) fCLK_ZONE_CTL_VFLOOR (voltOf s z fs)) s) .clk

/-- REQ of a zone from its active floor and slack (R205). -/
def zoneReq (s : State) (z : Nat) : Nat :=
  nomOf (rd s (rCLK_ZONE_CTL z) fCLK_ZONE_CTL_FLOOR) - rd s (rCLK_ZONE_CTL z) fCLK_ZONE_CTL_SLK

/-- The step no choice may be slower than: the effective floor where a plan holds the zone, else the slowest passing (R208). -/
def floorStep (s : State) (z : Nat) : Nat :=
  if zoneHeld s z then rd s (rCLK_ZONE_CTL z) fCLK_ZONE_CTL_FLOOR else slowestOk s z

/-- The step no choice may be faster than: CAP, and the POWER_POLICY cap as far as the floor allows (R208, R211). -/
def capStep (s : State) (z : Nat) : Nat :=
  max (rd s (rCLK_ZONE_CTL z) fCLK_ZONE_CTL_CAP) (min (rd s rCLK_TEMPER fCLK_TEMPER_CAP_STEP) (floorStep s z))

/-! ### Histories (R203, R204, R206) -/

/-- Total of a run-length list over its first n items, newest first. -/
def rleSum : List (Nat × Nat) → Nat → Nat
  | [], _ => 0
  | (v, k) :: t, n => if n ≤ k then v * n else v * k + rleSum t (n - k)

/-- A run-length list cut to its first n items. -/
def rleTake : List (Nat × Nat) → Nat → List (Nat × Nat)
  | [], _ => []
  | (v, k) :: t, n => if n = 0 then [] else if n ≤ k then [(v, n)] else (v, k) :: rleTake t (n - k)

def rlePush (v : Nat) : List (Nat × Nat) → List (Nat × Nat)
  | (w, k) :: t => if v = w then (w, k + 1) :: t else (v, 1) :: (w, k) :: t
  | [] => [(v, 1)]

/-- cc delivered in the 4,096 ticks that end at the present tick. -/
def delivered (x : Zone) : Nat := rleSum x.hist 4096

/-- Stretches in the last 4,096 ticks (R208). -/
def stretchN (x : Zone) (now : Nat) : Nat := (x.stretches.filter fun t => decide (now < t + 4096)).length

/-- The newest item of a run-length list changed. -/
def rleHead (f : Nat → Nat) : List (Nat × Nat) → List (Nat × Nat)
  | (v, k) :: t => if k ≤ 1 then rlePush (f v) t else rlePush (f v) ((v, k - 1) :: t)
  | [] => [(f 0, 1)]

/-- What an LCLK period brings a zone: the edges in it, where the next edge falls after it, the place in the pattern, and
whether the period in progress at its end has been stretched. -/
structure Edges where
  n   : Nat
  ph  : Nat
  pat : Nat
  str : Bool
  deriving DecidableEq, Repr

/-- Edges in the four root periods of one LCLK period, from an edge at `ph` root periods, the first k periods after it stretched
by 2 rp (R196, R197, R203). -/
def edgesFrom (st : Nat) : Nat → Nat → Nat → Nat → Bool → Edges
  | 0, _, ph, pat, cur => ⟨0, ph - 4, pat, cur⟩
  | f + 1, k, ph, pat, cur =>
    if 4 ≤ ph then ⟨0, ph - 4, pat, cur⟩
    else
      let e := edgesFrom st f (k - 1) (ph + periodOf st pat + (if 0 < k then 2 else 0)) ((pat + 1) % patLen st) (decide (0 < k))
      { e with n := e.n + 1 }

/-- The edges of an LCLK period with k of its periods stretched: the one in progress as it begins, unless it was stretched
before or ends on the LCLK edge itself, and those after it. -/
def edgesIn (st k ph pat : Nat) (cur : Bool) : Edges :=
  if ph ≠ 0 && !cur && decide (0 < k) then edgesFrom st 3 (k - 1) (ph + 2) pat true else edgesFrom st 3 k ph pat cur

/-- The zone's clock is gated for a step change (R198). -/
def zoneStopped (s : State) (z : Nat) : Bool := decide (rd s (rCLK_ZONE_CTL z) fCLK_ZONE_CTL_STOPPED = 1)
/-- The zone is in an idle state (R360). -/
def zoneIdle (s : State) (z : Nat) : Bool := decide (rd s (rPWR_IDLE z) fPWR_IDLE_STATE ≠ 0)

/-- CLK_ZONE_CC gains n cc and loses m (R204). -/
def ccCount (s : State) (z n m : Nat) : State :=
  regSet s (rCLK_ZONE_CC z) (regGet s (rCLK_ZONE_CC z) + BitVec.ofNat 64 n - BitVec.ofNat 64 m)

/-- The edges that the present LCLK period brings a zone become n, with what follows from it: the history, the cc counted and
the edges of its tiles (R203, R204); an idle zone delivers none, and its history is credited with them (R361). -/
def setEdges (s : State) (z n : Nat) : State :=
  let m := (getZone s z).n0
  let s1 := modZone s z fun x =>
    { x with n0 := n, hist := rleHead (fun v => v + n - m) x.hist, edges := if zoneIdle s z then x.edges else x.edges + n - m }
  if zoneIdle s z then s1 else ccCount s1 z n m

/-! ### The window check (R206) -/

/-- A running plan holds a tile of the zone. -/
def zoneRun (s : State) (z : Nat) : List CtxId := zoneCtxs s z isRunning

/-- The check disarms when no running plan holds a tile of the zone (R206). -/
def disarmZone (s : State) (z : Nat) : State :=
  if (getZone s z).armedAt.isSome && zoneRun s z = [] then modZone s z fun x => { x with armedAt := none } else s

/-- The check of a zone is armed (R206, R213). -/
def zoneArmed (s : State) (z : Nat) : Bool := (getZone s z).armedAt.isSome && decide (zoneRun s z ≠ [])

/-! ### Step changes (R198, R209, R210) -/

/-- The zone's clock is in Bank or Off (R360, R361). -/
def zoneDeep (s : State) (z : Nat) : Bool := decide (2 ≤ rd s (rPWR_IDLE z) fPWR_IDLE_STATE)

/-- The worst window that holds the whole stop still delivers REQ (R209): histories, no cc in the stop, then the new rate. -/
def changePasses (s : State) (z new : Nat) : Bool :=
  if zoneCtxs s z isRunning = [] then true
  else
    let x := getZone s z
    let t0 := 4 * (s.now / 4 + 1)
    let req := zoneReq s z
    (List.range 4065).all fun k =>
      let e := t0 + 31 + k
      (match x.armedAt with | some l => decide (e < l + 4095) | none => true) ||
        decide (req ≤ rleSum x.hist (4064 - k) + ccOver new k)

/-- A change to step `new` begins: to a faster one it waits for its voltage, at most 22 us, to a slower one it stops at the
next boundary (R198, R355). -/
def startChange (s : State) (z new : Nat) : State :=
  let old := zoneStep s z
  let v := voltOf s z new
  modZone s z fun x =>
    { x with target := new
             volt := if new < old then v else x.volt
             change := if new < old then some (.voltage (s.now + min 26400 (5 * (v - x.volt) * 120 + 2400))) else some .toStop }

/-- A zone is taken to step k with no regard to R209 and the one-change limit; a change under way that has not stopped the zone
gives way, and one that has, or an idle state, is followed at the restart (R198, R210, R361, R365). -/
def forceStep (s : State) (z k : Nat) : State :=
  let x := getZone s z
  match x.change with
  | some (.stopped _) => setZone s z { x with shed := true }
  | some (.switched _) => setZone s z { x with shed := true }
  | _ =>
    if zoneDeep s z then setZone s z { x with shed := true }
    else if k = zoneStep s z then setZone s z { x with change := none, target := k }
    else if x.change.isSome && x.target = k then s
    else startChange s z k

/-- A zone whose clock comes up anew: at step 4, or at its slowest passing step (R201, R208). -/
def startZone (s : State) (z : Nat) : State :=
  let k := slowestOk s z
  modZone (wr s (rCLK_ZONE_CTL z) fCLK_ZONE_CTL_STEP k) z fun x => { x with target := k, change := none, volt := voltOf s z k }

/-- A forced shed: straight to the effective floor (R210). -/
def shedZone (s : State) (z : Nat) : State := if floorStep s z = zoneStep s z && (getZone s z).change = none then s else forceStep s z (floorStep s z)

def shedAll (s : State) : State := (List.range 16).foldl shedZone s

end Machine
end Sys2Proof
end

