-- ==== Sys2Proof/Machine/Zones.lean ====
section
/-! DEFINITION. Clock zones and Temper (chapter 8): TEMPER_DECISION to FORCED_SHED. -/
namespace Sys2Proof
namespace Machine

/-- The input power averaged over 1 ms is above, or below, the module power limit (R208, R358): mW against W. -/
def powerOver (s : State) : Bool := decide (1000 * rd s rPWR_LIMIT fPWR_LIMIT_LIMIT < rd s rPWR_POWER fPWR_POWER_P_1MS)
def powerUnder (s : State) : Bool := decide (rd s rPWR_POWER fPWR_POWER_P_1MS < 1000 * rd s rPWR_LIMIT fPWR_LIMIT_LIMIT)

/-- Bundles issued in the zone in the last 4,096 ticks: the newest total less the oldest kept. -/
def issueN (x : Zone) : Nat :=
  match x.issues with
  | (v, _) :: _ => v - (match x.issues.getLast? with | some (w, _) => w | none => v)
  | [] => 0

/-- The zone with the most bundle issue, the lowest-numbered of equals (R358). -/
def busiest (s : State) : Nat :=
  (List.range 16).foldl (fun b z => if issueN (getZone s b) < issueN (getZone s z) then z else b) 0

/-- A supply shed is in force (R351). -/
def supplyShed (s : State) : Bool := decide (rd s rPWR_STATUS fPWR_STATUS_SHED = 1)

/-- Temper's choice for a zone (R208, R211, R358), none to hold; the junction is in 1/16 °C, the limits in °C. While a supply
shed lasts no zone runs faster than its floor (R351). -/
def temperChoice (s : State) (z : Nat) : Option Nat :=
  let x := getZone s z
  let st := zoneStep s z
  let n := stretchN x s.now
  let hi := rd s rCLK_TEMPER fCLK_TEMPER_DROOP_HI
  let slow : Option Nat := (slowerOk s z st).filter fun k => decide (k ≤ floorStep s z)
  let fast : Option Nat := (fasterOk s z st).filter fun k => decide (capStep s z ≤ k)
  if floorStep s z < st then fast
  else if decide (st < capStep s z) || decide ((16 * rd s rCLK_TEMPER fCLK_TEMPER_T_HI : Int) ≤ x.temp) || decide (hi ≤ n) ||
      (powerOver s && busiest s = z) then slow
  else if decide (x.temp ≤ 16 * rd s rCLK_TEMPER fCLK_TEMPER_T_LO) && decide (4 * n < hi) && powerUnder s && !supplyShed s then fast
  else none

/-- TEMPER_DECISION (R208, R209): every 64 ticks, at most one change per zone in any 4,096 ticks, none while the zone
changes already or sleeps in Bank or Off (R361). -/
def execTemperDecision (z : ZoneId) (s : State) : Out :=
  let x := getZone s z
  if x.decided ≠ 0 && decide (s.now / 64 ≤ (x.decided - 1) / 64) then .next s
  else
    let s1 := modZone s z fun x => { x with decided := s.now + 1 }
    if x.change.isSome || zoneDeep s z || (x.lastChange ≠ 0 && decide (s.now + 1 < x.lastChange + 4096)) then .next s1
    else if supplyShed s && decide (zoneStep s z < floorStep s z) then .next (shedZone s1 z)
    else match temperChoice s z with
      | some k => .next (if changePasses s1 z k then startChange s1 z k else s1)
      | none => .next s1

/-- ZONE_VOLTAGE_GOOD (R198): the rise may stop the zone. -/
def execZoneVoltageGood (z : ZoneId) (s : State) : Out :=
  match (getZone s z).change with
  | some (.voltage _) => .next (modZone s z fun x => { x with change := some .toStop })
  | _ => .next s

/-- ZONE_STOP (R198): at a tick that is a multiple of 4 the clock is gated after its last edge at or before the tick. -/
def execZoneStop (z : ZoneId) (s : State) : Out :=
  match (getZone s z).change with
  | some .toStop =>
    if s.now % 4 = 0 && !zoneStopped s z then
      .next (modZone (wr (runZone (setEdges s z (if (getZone s z).edge0 then 1 else 0)) z) (rCLK_ZONE_CTL z) fCLK_ZONE_CTL_STOPPED 1) z fun x =>
        { x with change := some (.stopped s.now), lastChange := s.now + 1 })
    else .next s
  | _ => .next s

/-- ZONE_DIVIDER_SWITCH (R198): 16 ticks into the stop. -/
def execZoneDividerSwitch (z : ZoneId) (s : State) : Out :=
  match (getZone s z).change with
  | some (.stopped t0) =>
    if t0 + 16 ≤ s.now then
      .next (modZone (wr s (rCLK_ZONE_CTL z) fCLK_ZONE_CTL_STEP (getZone s z).target) z fun x => { x with change := some (.switched t0) })
    else .next s
  | _ => .next s

/-- ZONE_RESTART (R198): 32 ticks after the stop, from the pattern's first period; a lower voltage follows a slower step,
and a shed that met the stop follows at once (R365). -/
def execZoneRestart (z : ZoneId) (s : State) : Out :=
  match (getZone s z).change with
  | some (.switched t0) =>
    if t0 + 32 ≤ s.now then
      let e := edgesIn (getZone s z).target 0 0 0 false
      let s1 := modZone (setEdges (wr s (rCLK_ZONE_CTL z) fCLK_ZONE_CTL_STOPPED 0) z e.n) z fun x =>
        { x with change := none, phase := e.ph, pat := e.pat, stretchNow := false, ph0 := 0, pat0 := 0, str0 := false, strN := 0
                 volt := voltOf s z x.target, shed := false, edge0 := true }
      .next (if (getZone s z).shed then shedZone s1 z else s1)
    else .next s
  | _ => .next s

/-- DROOP_STRETCH (R203): the next period of a zone that runs is lengthened by 2 rp. Several in one tick lengthen the periods of
the tick in turn, each once; when the last of them has been lengthened, no more of that tick is (log 113). -/
def execDroopStretch (z : ZoneId) (s : State) : Out :=
  let x := getZone s z
  if x.stretchNow || zoneStopped s z || zoneIdle s z then .next s
  else
    let e := edgesIn (zoneStep s z) (x.strN + 1) x.ph0 x.pat0 x.str0
    let ts := s.now :: x.stretches.filter fun t => decide (s.now < t + 4096)
    let s1 := modZone (setEdges s z (min e.n x.n0)) z fun x =>
      { x with stretchNow := e.str, phase := e.ph, pat := e.pat, strN := x.strN + 1, stretches := ts }
    .next (keepMax (bump s1 (rCLK_ZONE_STRETCH z) fCLK_ZONE_STRETCH_COUNT) (rCLK_ZONE_STRETCH z) fCLK_ZONE_STRETCH_WIN_MAX ts.length)

/-- The record of EXEC 0x011 (R212, R252, R281): the window's end, its delivered count and REQ. -/
def floorFault (z now n req : Nat) : FaultInfo :=
  { code := 0x2011, engine := 10, unit := z, offset := now, d0 := n % 2 ^ 14 + req % 2 ^ 14 * 2 ^ 16, d1 := 0, d2 := 0 }

/-- ZONE_WINDOW_CHECK (R206): the window that ends at the present tick against REQ, once the check's first window is whole. -/
def execZoneWindowCheck (z : ZoneId) (s : State) : Out :=
  let x := getZone s z
  let run := zoneRun s z
  if run = [] then .next (disarmZone s z)
  else match x.armedAt with
    | some l =>
      if s.now < l + 4095 then .next s
      else
        let n := delivered x
        let req := zoneReq s z
        let s1 := if n < rd s (rCLK_ZONE_WIN z) fCLK_ZONE_WIN_LOW then wr s (rCLK_ZONE_WIN z) fCLK_ZONE_WIN_LOW n else s
        .next (if n < req then raiseAll s1 run (floorFault z s.now n req) else s1)
    | none => .next s

/-- FORCED_SHED (R210). -/
def execForcedShed (zones : BitVec 16) (s : State) : Out :=
  .next ((List.range 16).foldl (fun s z => if zones.getLsbD z then shedZone s z else s) s)

end Machine
end Sys2Proof
end

