-- ==== Sys2Proof/Machine/Gather.lean ====
section
/-! DEFINITION. LPDDR channel slots, refresh, gather engines, scrubbing and the service of open-class accesses (04 R87 to
R107): DESCRIPTOR_START to OPEN_LPDDR_ACCESS. -/
namespace Sys2Proof
namespace Machine

/-! ### Slots and periods (R88, R90) -/

/-- Gather slot of a tick since Global Count 0. -/
def gSlot (t : Nat) : Nat := t / 32
/-- Channel an engine owns in a slot (R88). -/
def ownChan (g s : Nat) : Nat := (4 * g + s % 128) % 128
/-- Engine that owns a channel in a slot in which the channel can be started. -/
def ownEng (ch s : Nat) : Nat := (ch + 128 - s % 128) % 128 / 4
/-- A channel can be started in slots that agree with it modulo 4 (R88). -/
def startable (ch s : Nat) : Bool := s % 4 = ch % 4
/-- The period of a channel that starts in a slot (R88). -/
def periodNo (ch s : Nat) : Nat := (s % 128 - ch % 4) / 4

/-- The period lies in a refresh window of the reservation in force (R90). -/
def inRefresh (s : State) (ch p : Nat) : Bool :=
  match s.refreshP[ch]? with
  | some b =>
    let w := b.toNat % 16
    let n := rd s rMEM_LP_TIMING fMEM_LP_TIMING_REF_PERIODS
    (decide (w ≤ p) && decide (p < w + n)) || (decide (w + 16 ≤ p) && decide (p < w + 16 + n))
  | none => false

/-- Any device of the group reports above 95 C (R92). -/
def groupHot (s : State) (g : Nat) : Bool := (List.range 32).any fun i => tget (fun _ => false) s.hot (32 * g + i)

/-- A plan, parison or running, holds a gather engine (R90, R93). -/
def holdsEngines (x : Ctx) : Bool := holdsPlan x && (match x.image with | some p => decide (p.engines ≠ 0) | none => false)
def enginesHeld (s : State) : Bool := allCtx.any fun c => holdsEngines (getCtx s c)

/-! ### The active descriptor (R94, R95) -/

def descAt (e : Engine) (i : Nat) : Option Desc := (e.list[i]?).filter fun d => d.op ≠ 0

def lineAt (d : Desc) (row col : Nat) : Nat := d.base + row * d.stride + col
def stepPos (d : Desc) (row col : Nat) : Nat × Nat := if col < d.rlen then (row, col + 1) else (row + 1, 0)
def descLines (d : Desc) : Nat := (d.rows + 1) * (d.rlen + 1)

/-- The lines visited next that rise within one block, and the place after them: rows that follow each other in one block share
its period (log 118). -/
def blockLines (d : Desc) : Nat → Nat → Nat → List Nat × Nat × Nat
  | 0, row, col => ([], row, col)
  | f + 1, row, col =>
    let n := lineAt d row col
    let (r, c) := stepPos d row col
    if r ≤ d.rows && lineAt d r c / 30 = n / 30 && decide (n < lineAt d r c) then
      let (ls, p) := blockLines d f r c
      (n :: ls, p)
    else ([n], r, c)

/-- The next block of an engine, its lines and the place after them; none when every line has been visited. -/
def nextBlock (e : Engine) : Option (Desc × List Nat × Nat × Nat) :=
  if !e.active then none
  else match descAt e e.idx with
    | some d => if d.rows < e.row then none else some (d, blockLines d 30 e.row e.col)
    | none => none

/-- The engine has a block for the channel it owns in the slot that begins at tick t (R88, R95). -/
def wantsSlot (s : State) (g t : Nat) : Bool :=
  let e := getEng s g
  match e.own, nextBlock e with
  | some c, some (d, n :: _, _) =>
    let ch := n / 30 % 128
    ch = ownChan g (gSlot t) && decide ((getCtx s c).stepStart + d.start ≤ t) && decide (e.slot ≤ gSlot t) &&
      meshRuns (getCtx s c) && e.st ≠ .faulted && !inRefresh s ch (periodNo ch (gSlot t)) && !groupHot s (groupOf ch)
  | _, _ => false

/-- The record of a gather fault (R252, R280). -/
def gatherFault (code : BitVec 16) (g i d0 : Nat) : FaultInfo :=
  { code := code, engine := 7, unit := g, offset := i, d0 := d0, d1 := 0, d2 := 0 }

/-- A fault of an engine: it starts no further block. -/
def engFault (s : State) (g : Nat) (c : CtxId) (f : FaultInfo) : State := raise (modEng s g fun e => { e with st := .faulted }) c f

/-- DESCRIPTOR_START (R95): the next descriptor of the list at its tick, the one before it finished or not. -/
def execDescriptorStart (g : EngId) (s : State) : Out :=
  let e := getEng s g
  match e.own with
  | some c =>
    let x := getCtx s c
    if !meshRuns x || e.st = .faulted then .next s
    else match descAt e e.upNext with
      | some d =>
        if s.now < x.stepStart + d.start then .next s
        else if e.active then .next (engFault s g c (gatherFault 0x3007 g e.upNext 0))
        else .next (setEng s g { e with idx := e.upNext, upNext := e.upNext + 1, active := true, row := 0, col := 0, sent := 0
                                        lastEnd := s.now, st := .waitSlot })
      | none => .next (if e.active then s else setEng s g { e with st := .ended })
  | none => .next s

/-! ### BLOCK_ACCESS (R87, R88, R95 to R97) -/

/-- Data line n as a planned read finds it, on its way to staging (R88, R101). -/
def readLine (s : State) (d : Desc) (t n : Nat) : GLine :=
  let i := n % 30
  let (w, fixed, bad) := lineRead s (64 * n)
  { line := n, tick := t + 48 + 4 * (if i < 15 then i + 1 else i + 2), word := w
    poison := bad || linePoisoned s n, chan := d.chan, fixed := fixed, bad := bad, mesh := false }

/-- A data line written with its check fields and its poison bits (R98, R101). -/
def writeLine (s : State) (n : Nat) (w : BitVec 512) (p : Bool) : State :=
  setPoison (lineWrite s (64 * n) w) n p

/-- The words of a write block: the oldest k staged words of the mesh channel whose number the descriptor's CHAN gives, there at
tick t (R94, R96; log 116). -/
def stagedFor (e : Engine) (ch t k : Nat) : List GLine := (e.staging.filter fun l => l.mesh && l.chan = ch && decide (l.tick ≤ t)).take k

def useChan (s : State) (ch t : Nat) : State := { s with lpUsed := tset (fun _ => 0) s.lpUsed ch (gSlot t + 1) }

/-- The block is opened: lines read on their way to staging, or written from it, or zeroed. -/
def accessBlock (s : State) (g t : Nat) (c : CtxId) (d : Desc) (ls : List Nat) (row col : Nat) : State :=
  let e := getEng s g
  let ch := ls.headD 0 / 30 % 128
  let e1 := { e with row := row, col := col, slot := gSlot t + 1, blocks := e.blocks + 1, st := .transferring, lastEnd := t + 128 }
  let grp := groupOf ch
  let s1 := useChan { s with lpPlan := tset (fun _ => 0) s.lpPlan grp (tget (fun _ => 0) s.lpPlan grp + 1) } ch t
  if d.op = 1 then setEng s1 g { e1 with flight := e1.flight ++ ls.map (readLine s d t) }
  else if d.op = 2 then
    let have_ := stagedFor e d.chan t ls.length
    if have_.length < ls.length then engFault (setEng s1 g e1) g c (gatherFault 0x3005 g e.idx 0)
    else
      let s2 := setEng s1 g { e1 with staging := have_.foldl (fun st l => st.erase l) e1.staging }
      (ls.zip have_).foldl (fun s p => writeLine s p.1 p.2.word p.2.poison) s2
  else ls.foldl (fun s n => writeLine s n 0 false) (setEng s1 g e1)

/-- BLOCK_ACCESS (R88, R95): in the slot in which the engine owns the channel of its next block, outside refresh windows. -/
def execBlockAccess (g : EngId) (s : State) : Out :=
  let t := 32 * gSlot s.now
  if !wantsSlot s g t then .next s
  else
    let e := getEng s g
    match e.own, nextBlock e with
    | some c, some (d, ls, row, col) =>
      if ls.all fun n => inRegions s c (64 * n) 64 then .next (accessBlock s g t c d ls row col)
      else .next (engFault s g c (gatherFault 0x3001 g e.idx 0))
    | _, _ => .next s

/-- One read line enters staging (R96, R101). -/
def enterStaging (s : State) (g : Nat) (l : GLine) : State :=
  let e := getEng s g
  let s1 := lpNote (setEng s g { e with flight := e.flight.erase l }) l.line l.fixed l.bad
  let s2 := if l.poison then bump s1 (rMEM_LP_ERR (groupOf (chanOf (64 * l.line)))) fMEM_LP_ERR_UE_PLAN else s1
  match e.own with
  | some c =>
    let s3 := if 128 ≤ e.staging.length then engFault s2 g c (gatherFault 0x3006 g e.idx 0)
      else modEng s2 g fun y => { y with staging := y.staging ++ [l] }
    if l.poison then engFault s3 g c (gatherFault 0x3003 g e.idx l.line) else s3
  | none => s2

/-- LINE_ENTERS_STAGING (R96): the oldest read line whose tick has come; an engine no context holds lets it fall. -/
def execLineEntersStaging (g : EngId) (s : State) : Out :=
  match (getEng s g).flight.find? fun l => decide (l.tick ≤ s.now) with
  | some l => .next (enterStaging s g l)
  | none => .next s

/-- DESCRIPTOR_FINISH (R95): the completion increment enters the sync network at the next tick. -/
def execDescriptorFinish (g : EngId) (s : State) : Out :=
  let e := getEng s g
  match e.own, descAt e e.idx with
  | some c, some d =>
    let fin := e.active && decide (d.rows < e.row) && decide (e.lastEnd ≤ s.now) &&
      (d.op ≠ 1 || decide (descLines d ≤ e.sent))
    if !fin || e.st = .faulted || (getCtx s c).stopped then .next s
    else
      let s1 := setEng s g { e with active := false, st := if (descAt e e.upNext).isSome then .waitStart else .ended }
      .next (match (if d.sc = 0 then none else ctrRefOf d.sc d.target 0) with
        | some r => syncPush s1 (e.lastEnd + 1) r (.inc d.amount)
        | none => s1)
  | _, _ => .next s

/-! ### Refresh (R90 to R93) -/

/-- The refresh gap a channel's device reports: under 2,048 ticks it is above 95 C, and MEM 0x004 follows (R92),
recorded under the gather engines' code with the group as UNIT (log 117). -/
def mr4 (s : State) (ch gap : Nat) : State :=
  if gap < 2048 then
    if tget (fun _ => false) s.hot ch then s
    else
      let s1 := { s with hot := tset (fun _ => false) s.hot ch true }
      shedAll (raiseAll s1 (allCtx.filter fun c => holdsEngines (getCtx s c)) (gatherFault 0x3004 (groupOf ch) 0 0))
  else { s with hot := tset (fun _ => false) s.hot ch false }

/-- REFRESH_WINDOW (R91): inside a window of the reservation in force; every 64th also measures drift. -/
def execRefreshWindow (ch : ChanId) (gap : BitVec 16) (s : State) : Out :=
  let sl := gSlot s.now
  if s.refreshP = [] || !enginesHeld s || !inRefresh s ch (((sl + 128 - ch.val % 4) % 128) / 4) then .next s
  else
    .next (mr4 { s with refWin := tset (fun _ => 0) s.refWin ch ((tget (fun _ => 0) s.refWin ch + 1) % 64) } ch gap.toNat)

/-- CONTROLLER_REFRESH (R92, R93): a controller refreshes on its own timer where no plan holds an engine, or its group is
above 95 C; each device reports its rate. -/
def execControllerRefresh (ch : ChanId) (gap : BitVec 16) (s : State) : Out :=
  .next (if enginesHeld s && !groupHot s (groupOf ch) then s else mr4 s ch gap.toNat)

/-! ### Scrubbing (R100, R102) -/

/-- One code word read by a scrub: written back if a symbol was corrected; whether it was corrected, and whether bad. -/
def scrubWord (s : State) (w : Nat) : Nat × Bool × State :=
  match eccRead (tget (fun _ => 0) s.flaw w) with
  | (.clean, _) => (0, false, s)
  | (.corrected j, x) => (j + 1, false, memWrite s (32 * w) 32 (memRead s (32 * w) 32 ^^^ x))
  | (.bad, _) => (0, true, s)

/-- SRAM_SCRUB (R100): one pass over a tile no plan holds. -/
def execSramScrub (t : TileId) (s : State) : Out :=
  if allCtx.any fun c => holdsPlan (getCtx s c) && (planTiles (getCtx s c)).getLsbD t then .next s
  else
    let lo := sramAddr t 0 / 32
    let ws := (s.flaw.filter fun e => decide (lo ≤ e.1) && decide (e.1 < lo + 2 ^ 20)).map (·.1)
    .next (ws.foldl (fun s w =>
      match scrubWord s w with
      | (0, bad, s1) => if bad then markFailed s1 (physOf s t) else s1
      | (_, _, s1) => bump s1 (rTIL_SRAM_CE (physOf s t)) fTIL_SRAM_CE_COUNT) s)

/-- The gather slot lets a channel start an access no plan and no refresh uses (R89). -/
def chanFree (s : State) (ch : Nat) : Bool :=
  let t := 32 * gSlot s.now
  startable ch (gSlot t) && decide (tget (fun _ => 0) s.lpUsed ch ≤ gSlot t) && !wantsSlot s (ownEng ch (gSlot t)) t &&
    !(enginesHeld s && inRefresh s ch (periodNo ch (gSlot t)))

/-- One data line of a block read by the patrol scrub (R101, R102); a bad line stays as it is. -/
def scrubLine (s : State) (n : Nat) : State :=
  let (a, bad0, s1) := scrubWord s (2 * n)
  let (b, bad1, s2) := scrubWord s1 (2 * n + 1)
  let bad := bad0 || bad1
  let s3 := lpNote (if bad then s else s2) n ((if a = 0 then [] else [(0, a - 1)]) ++ (if b = 0 then [] else [(1, b - 1)])) bad
  if bad then bump s3 (rMEM_LP_ERR (groupOf (chanOf (64 * n)))) fMEM_LP_ERR_UE_SCRUB else s3

/-- PATROL_SCRUB (R102): the next block of a group no plan holds, in a free period; a group is held while any plan holds a gather
engine, since every engine reaches every channel (log 119). -/
def execPatrolScrub (m : GroupId) (s : State) : Out :=
  let i := tget (fun _ => 0) s.scrubAt m
  let k := i / 32 * 128 + 32 * m.val + i % 32
  if enginesHeld s || rd s rMEM_SCRUB_CTL fMEM_SCRUB_CTL_ENABLE = 0 || !chanFree s (k % 128) then .next s
  else
    let s1 := useChan { s with scrubAt := tset (fun _ => 0) s.scrubAt m ((i + 1) % 2 ^ 27) } (k % 128) s.now
    .next ((List.range 30).foldl (fun s j => scrubLine s (30 * k + j)) s1)

end Machine
end Sys2Proof
end

