-- ==== Sys2Proof/Machine/HostOps.lean ====
section
/-! DEFINITION. Shared operations of the host interface (chapter 13) and the sideband window (14 R335): host memory, command
packets and the checks at take (R314), the order of execution (R317, R318), replies and output buffers (R315). -/
namespace Sys2Proof
namespace Machine

/-! ### Host memory -/

/-- What a byte of host memory nothing has written reads as (log 20). -/
def hostDef : Nat → Byte := fun _ => 0

/-- n bytes of a cell list from a, little-endian. -/
def cellsRead (d : Nat → Byte) (m : List Host.Cell) (a : Nat) : Nat → Nat
  | 0 => 0
  | n + 1 => (tget d m a).toNat + 256 * cellsRead d m (a + 1) n

def cellsPut (d : Nat → Byte) (m : List Host.Cell) (a : Nat) : Nat → Nat → List Host.Cell
  | 0, _ => m
  | n + 1, v => cellsPut d (tset d m a (BitVec.ofNat 8 v)) (a + 1) n (v / 256)

def hostRead (s : State) (a n : Nat) : Nat := cellsRead hostDef s.hostMem a n
def hostWrite (s : State) (a n v : Nat) : State := { s with hostMem := cellsPut hostDef s.hostMem a n v }
def hostBytes (s : State) (a : Nat) (bs : List Nat) : State := hostWrite s a bs.length (leBytes bs)

/-! ### Where the module stands (R294, R295, R336, R369, R373) -/

def dead (s : State) : Bool := decide (rd s rGAF_RECOVERY fGAF_RECOVERY_DEAD = 1)
/-- SEC_BOOT.MODE: 0 serving, 1 booting, 3 recovery by host. -/
def bootMode (s : State) : Nat := rd s rSEC_BOOT fSEC_BOOT_MODE
/-- The module state of KIND 0x03: 0 serving, 1 recovering, 2 dead, 3 recovery by host, 4 quenched (R334). -/
def moduleState (s : State) : Nat :=
  if s.pwr.quenched then 4 else if dead s then 2 else if bootMode s = 3 then 3 else if s.recPhase ≠ 0 then 1 else 0
/-- The Gaffer is down, and logic in PD00 answers for it (R336). -/
def gafferDown (s : State) : Bool := s.pwr.quenched || dead s || s.recPhase = 2 || s.recPhase = 3 || (bootMode s = 1 && decide (rd s rSEC_BOOT fSEC_BOOT_PHASE < 4))
/-- Commands of a window are served: the firmware runs, or the boot ROM in recovery by host for C0 and the sideband. -/
def served (s : State) (src : Src) : Bool :=
  !gafferDown s && s.recPhase = 0 &&
    (bootMode s = 0 || (bootMode s = 3 && (match src with | .pf c => decide (c.val = 0) | .vf _ => false | .sideband => true)))

/-! ### Packets (R311) -/

def pw (p : Packet) (i : Nat) : W64 := p.payload.getD i 0
def pf (p : Packet) (i hi lo : Nat) : Nat := fget ⟨hi, lo⟩ (pw p i)
def pcode (p : Packet) : Nat := p.opcode.toNat
/-- The context a packet names. -/
def pctx (p : Packet) : CtxId := Fin.ofNat 8 p.context.toNat
/-- The window of a source: 8 is the sideband's (R335). -/
def winOf : Src → Nat
  | .pf c => c.val
  | .vf c => c.val
  | .sideband => 8
/-- The function that owns a window: 0 is the PF, k is VF k (R302). -/
def fnOf : Src → Nat
  | .pf _ => 0
  | .vf c => c.val + 1
  | .sideband => 0

/-- A word with bits only in the fields named. -/
def only (w : W64) (fs : List (Nat × Nat)) : Bool :=
  w &&& ~~~ (fs.foldl (fun m f => m ||| fmask ⟨f.1, f.2⟩) 0) = 0

/-- The payload words of an opcode: units, and the fields of each word (R319 to R330). -/
def layout (code : Nat) : Option (Nat × List (List (Nat × Nat))) :=
  let w : List (Nat × Nat) := [(63, 0)]
  let out : List (List (Nat × Nat)) := [w, [(31, 0)]]
  if code = 0x01 || code = 0x11 || code = 0x12 || code = 0x62 || code = 0x81 || code = 0xB1 then some (1, [])
  else if code = 0x10 then
    some (6, [[(63, 62), (59, 32), (12, 0)], [(63, 54), (31, 0)]] ++ List.replicate 4 w ++
      List.replicate 8 [(63, 63), (51, 32), (19, 0)] ++ List.replicate 24 w)
  else if code = 0x20 then some (4, List.replicate 21 w)
  else if code = 0x21 then some (1, [w])
  else if code = 0x22 || code = 0x40 then some (1, [[(63, 63), (47, 0)]])
  else if code = 0x23 || code = 0x52 || code = 0x72 then some (1, out)
  else if code = 0x30 then some (1, [w, [(63, 63), (40, 0)], [(40, 0)]])
  else if code = 0x31 then some (1, [w, [(40, 0)], [(40, 0)]])
  else if code = 0x32 then some (1, [[], [(40, 0)], [(40, 0)]])
  else if code = 0x33 then some (1, [[(8, 0)]])
  else if code = 0x50 then some (1, [w, w])
  else if code = 0x51 then some (1, [w, w, [(1, 0)]])
  else if code = 0x60 then some (1, [[(63, 60), (56, 56), (19, 0)], [(31, 0)], w])
  else if code = 0x61 then some (1, [[(0, 0)], [(40, 0)]])
  else if code = 0x70 then some (1, [[(4, 0), (11, 8)], w])
  else if code = 0x71 then some (1, out ++ [[(23, 0)]])
  else if code = 0x80 then some (1, out ++ [[(8, 0)]])
  else if code = 0x90 then some (1, out ++ [[(3, 0)]])
  else if code = 0xA0 then some (2, out ++ List.replicate 4 w)
  else if code = 0xA1 then some (1, out ++ [[(7, 0)]])
  else if code = 0xB0 then some (1, [w, w])
  else if code = 0xC0 then some (1, [[(3, 0)], w, w])
  else if code = 0xD0 then some (1, [[(63, 63), (58, 56), (19, 0)], [(12, 8), (4, 0)]])
  else if code = 0xE0 then some (1, [[(3, 0), (31, 16)]])
  else none

/-- Bits P1 of LINK_CTL may hold, by OP (R326). -/
def linkCtlMask (op : Nat) : Option (List (Nat × Nat)) :=
  if op = 1 then some [(3, 0)] else if op = 2 || op = 5 then some [] else if op = 3 then some [(3, 3)]
  else if op = 4 then some [(11, 0)] else if op = 6 then some [(0, 0)] else if op = 7 then some [(2, 0), (6, 4), (10, 8), (14, 12)] else none

/-- Values outside the range their rule states (R320 to R330). -/
def inRange (p : Packet) (code : Nat) : Bool :=
  if code = 0x10 then
    pf p 0 59 48 ≠ 0 && decide (pf p 0 12 0 ≤ 4096) &&
      (List.range 8).all fun r => pf p (6 + r) 63 63 = 0 ||
        (decide (pf p (6 + r) 19 0 ≤ pf p (6 + r) 51 32) && decide (pf p (6 + r) 51 32 < 458752) &&
          (List.range r).all fun q => pf p (6 + q) 63 63 = 0 ||
            decide (pf p (6 + q) 51 32 < pf p (6 + r) 19 0) || decide (pf p (6 + r) 51 32 < pf p (6 + q) 19 0))
  else if code = 0x20 then decide (512 ≤ (pw p 0).toNat) && decide ((pw p 0).toNat ≤ 2 ^ 32)
  else if code = 0x30 || code = 0x31 || code = 0x32 then pf p 1 40 0 % 8 = 0 && pf p 2 40 0 % 8 = 0 && pf p 2 40 0 ≠ 0
  else if code = 0x60 then
    let t := pf p 0 63 60
    (t = 1 || t = 2 || (t = 3 && pf p 0 56 56 = 0)) &&
      decide (pf p 0 19 0 + pf p 1 31 0 ≤ if t = 3 then 65536 else 2 ^ 20)
  else if code = 0x70 then
    decide (pf p 0 4 0 < 24) && (match linkCtlMask (pf p 0 11 8) with | some m => only (pw p 1) m | none => false) &&
      (pf p 0 11 8 ≠ 1 || pf p 1 1 0 ≠ 3)
  else if code = 0x80 then decide (1 ≤ pf p 2 8 0) && decide (pf p 2 8 0 ≤ 256)
  else if code = 0x90 then decide (1 ≤ pf p 2 3 0) && decide (pf p 2 3 0 ≤ 3)
  else if code = 0xA1 then decide (pf p 2 7 0 ≤ 3)
  else if code = 0xB0 then decide ((pw p 1).toNat ≤ 2 ^ 28)
  else if code = 0xC0 then decide ((pw p 2).toNat = 120)
  else if code = 0xD0 then decide (pf p 1 12 8 < 24) && decide (pf p 1 4 0 < 24)
  else if code = 0xE0 then decide (pf p 0 2 0 ≤ 4) && decide (pf p 0 31 16 ≤ 2400)
  else true

/-- Check 7 of R314: reserved bits, undefined payload, LENGTH and ranges; a sideband TABLE_STAGE carries its entries inline (R335). -/
def fieldsOk (src : Src) (p : Packet) : Bool :=
  match layout (pcode p) with
  | none => false
  | some (len, ws) =>
    let inl := decide (src = .sideband) && decide (pcode p = 0x60)
    let n := if inl then 3 + pf p 1 31 0 else ws.length
    only (BitVec.setWidth 64 p.flags) [(15, 14), (9, 0)] && p.rsv = 0 &&
      (if inl then decide (pf p 1 31 0 ≤ 512) else decide (p.length.toNat = len)) &&
      ((List.range ws.length).all fun i => only (pw p i) (ws.getD i [])) && ((p.payload.drop n).all fun v => v = 0) &&
      inRange p (pcode p)

/-- Values of a time command outside their range: R327 names the status TIME_RANGE. -/
def timeRange (p : Packet) : Bool :=
  (pcode p = 0x50 && decide (10 ^ 9 ≤ pf p 1 63 32)) ||
    (pcode p = 0x51 && pf p 2 0 0 = 1 && !(decide (0xC0000000 ≤ (pw p 0).toNat) && decide ((pw p 0).toNat ≤ 0xF0000000)))

/-! ### The checks at take (R302, R314, R319, R335) -/

def stDone : Nat := 0
def stBadOpcode : Nat := 1
def stBadParam : Nat := 2
def stDenied : Nat := 3
def stBadGen : Nat := 4
def stState : Nat := 5
def stBusy : Nat := 6
def stNoResource : Nat := 7
def stBounds : Nat := 8
def stFaulted : Nat := 9
def stUncorrectable : Nat := 0xA
def stAborted : Nat := 0xB
def stBufShort : Nat := 0xC

/-- Opcodes a PF alias may issue (R302), and those any window may. -/
def anyOps : List Nat := [0x01, 0x12, 0x23, 0x80, 0xA0, 0xA1]
def aliasOps : List Nat := 0x11 :: anyOps
/-- Opcodes the window of a VF-owned context may issue (R319). -/
def vfOps : List Nat := anyOps ++ [0x20, 0x21, 0x22, 0x30, 0x31, 0x32, 0x33, 0x40, 0x60]
/-- Opcodes of the sideband window (R335). -/
def sidebandOps : List Nat :=
  [0x01, 0x12, 0x11, 0x22, 0x23, 0x60, 0x61, 0x62, 0x70, 0x71, 0x72, 0x80, 0x81, 0x90, 0xA0, 0xA1, 0x50, 0x51, 0x52, 0xE0]
/-- Opcodes the boot ROM serves in recovery by host (R373). -/
def romOps : List Nat := [0x01, 0x80, 0x90, 0xA0, 0xA1, 0xB0, 0xB1]
/-- Opcodes that check GEN (R319). -/
def genOps : List Nat := [0x20, 0x21, 0x22, 0x30, 0x31, 0x32, 0x33, 0x40, 0x60]
/-- Commands that act on an open context (R276). -/
def ctxOps : List Nat := [0x11, 0x12, 0x20, 0x21, 0x22, 0x30, 0x31, 0x32, 0x33, 0x40]
def copyOps : List Nat := [0x30, 0x31, 0x32, 0x33]
def resetOps : List Nat := [0x11, 0x12]

def allowed (s : State) (src : Src) (p : Packet) : Bool :=
  match src with
  | .pf c => !(getCtx s c).vfOwn || aliasOps.contains (pcode p)
  | .vf c =>
    if (getCtx s c).vfOwn then vfOps.contains (pcode p) && (pcode p ≠ 0x60 || pf p 0 63 60 = 3)
    else [0x01, 0xA0, 0xA1].contains (pcode p)
  | .sideband => sidebandOps.contains (pcode p)

/-- A context that a reset, a close or a replay holds (R276). -/
def ctxBusy (x : Ctx) : Bool := x.st = .resetting || x.st = .closing || x.st = .replay

/-- The first of checks 1 to 7 that fails, as its status (R314, R373). -/
def takeCheck (s : State) (src : Src) (p : Packet) : Option Nat :=
  let n := pcode p
  if p.length.toNat < 1 || 64 < p.length.toNat then some stBadParam
  else if (match src with | .sideband => decide (7 < p.context.toNat) | _ => decide (p.context.toNat ≠ winOf src)) then some stBadParam
  else if (layout n).isNone then some stBadOpcode
  else if bootMode s = 3 && (!romOps.contains n || (n = 0x90 && pf p 2 3 0 ≠ 2)) then some stState
  else if !allowed s src p then some stDenied
  else if ctxBusy (getCtx s (pctx p)) && !([0x11, 0x12, 0x23, 0x80].contains n) then some stBusy
  else if genOps.contains n && p.gen ≠ (getCtx s (pctx p)).gen then some stBadGen
  else if !fieldsOk src p then some stBadParam
  else if timeRange p then some 0x41
  else none

/-! ### Replies (R309, R315, R335) -/

/-- The 32 bytes of a reply. -/
def replyBytes (s : State) (p : Packet) (taken status result : Nat) : List Nat :=
  bytesLE 2 status ++ bytesLE 2 (pcode p) ++ [p.context.toNat, (getCtx s (pctx p)).gen.toNat, 0, 0] ++ bytesLE 4 p.seq.toNat ++
    bytesLE 4 p.tag.toNat ++ bytesLE 8 taken ++ bytesLE 8 result

/-- The reply, and the vector of a command with IRQ set; over the sideband the reply and its data are the response. -/
def sendReply (s : State) (src : Src) (who : Nat) (p : Packet) (taken status result : Nat) (data : List Nat) : State :=
  match src with
  | .sideband =>
    mctpSend { s with sbd := { s.sbd with busy := s.sbd.busy.erase who } } who 0x7E (1 :: replyBytes s p taken status result ++ data)
  | _ =>
    let a := p.reply.toNat / 32 * 32
    let s1 := if a = 0 then s else hostBytes s a (replyBytes s p taken status result)
    if p.flags.getLsbD 15 then emit s1 (.vector (fnOf src) (p.flags.toNat % 1024)) else s1

/-- Whether a held command is the one a packet stands for. -/
def isCmd (src : Src) (p : Packet) (h : HeldCmd) : Bool := decide (h.src = src) && decide (h.pkt = p)

/-- HELD of a window follows the commands taken from it and not complete (R312). -/
def setHeld (s : State) (w : Nat) : State :=
  if w < 8 then wr s (rHST_WIN w) fHST_WIN_HELD (s.cmds.filter fun h => winOf h.src = w).length else s

/-- A command completes: it leaves its window, and its reply is written (R312, R315). -/
def finish (s : State) (h : HeldCmd) (status result : Nat) (data : List Nat) : State :=
  let s1 := { s with cmds := s.cmds.filter fun k => !isCmd h.src h.pkt k }
  sendReply (setHeld s1 (winOf h.src)) h.src h.who h.pkt h.taken status result data

def done (s : State) (h : HeldCmd) (result : Nat) : State := finish s h stDone result []
def refuse (s : State) (h : HeldCmd) (status : Nat) : State := finish s h status 0 []

/-- Data a command returns: into its output buffer, or after the reply over the sideband (R315, R335). -/
def finishData (s : State) (h : HeldCmd) (bs : List Nat) (result : Nat) : State :=
  match h.src with
  | .sideband => finish s h stDone result bs
  | _ =>
    if pf h.pkt 1 31 0 < bs.length then refuse s h stBufShort
    else done (hostBytes s (pw h.pkt 0).toNat bs) h result

/-- A started command that waits, with what it waits for. -/
def hold (s : State) (h : HeldCmd) (info : Nat) : State :=
  { s with cmds := s.cmds.map fun k => if isCmd h.src h.pkt k then { k with started := true, info := info } else k }

/-! ### Order of execution (R317, R318, R324) -/

def isCopy (h : HeldCmd) : Bool := copyOps.contains (pcode h.pkt)
def isReset (h : HeldCmd) : Bool := resetOps.contains (pcode h.pkt)
/-- Commands of the whole module run in take order across windows. -/
def moduleWide (h : HeldCmd) : Bool := decide (0x50 ≤ pcode h.pkt)

def overlap (a b : Nat × Nat) : Bool := decide (a.1 < b.2) && decide (b.1 < a.2)

/-- The local ranges of a copy: bytes of context space, of a plan staging area, or the resources a WIPE names (R323). -/
def copyLocal (s : State) (h : HeldCmd) : List (Nat × Nat) :=
  let p := h.pkt
  let c := pctx p
  if pcode p = 0x33 then
    ((List.range 8).filter fun r => (pf p 0 7 0).testBit r).map (fun r =>
      (2 ^ 21 * rd s (rMEM_CTX_RGN c r) fMEM_CTX_RGN_UNIT, 2 ^ 21 * (rd s (rMEM_CTX_RGN_LIM c r) fMEM_CTX_RGN_LIM_UNIT + 1))) ++
    (if pf p 0 8 8 = 1 then ((List.range 256).filter fun t => (getCtx s c).tiles.getLsbD t).map fun t => (sramAddr t 0, sramAddr (t + 1) 0) else [])
  else
    let a := (if pcode p = 0x30 && pf p 1 63 63 = 1 then stagingAddr c else 0) + pf p 1 40 0
    [(a, a + pf p 2 40 0)]

/-- The host range of a copy: COPY_IN and COPY_OUT have one. -/
def copyHost (h : HeldCmd) : List (Nat × Nat) :=
  if pcode h.pkt = 0x30 || pcode h.pkt = 0x31 then [((pw h.pkt 0).toNat, (pw h.pkt 0).toNat + pf h.pkt 2 40 0)] else []

/-- Two copies overlap in their local or their host ranges (R317). -/
def copyClash (s : State) (a b : HeldCmd) : Bool :=
  ((copyLocal s a).any fun x => (copyLocal s b).any (overlap x)) || ((copyHost a).any fun x => (copyHost b).any (overlap x))

/-- A copy may start: the window's earlier ones have, fewer than 8 of them run, and none overlaps it (R317). -/
def copyMay (s : State) (before : List HeldCmd) (h : HeldCmd) : Bool :=
  let cs := before.filter isCopy
  (cs.all (·.started)) && decide (cs.length < 8) && !(cs.any (copyClash s h))

/-- Whether a command may start, given those taken before it. -/
def mayStart (s : State) (before : List HeldCmd) (h : HeldCmd) : Bool :=
  let mine := before.filter fun k => winOf k.src = winOf h.src
  if isReset h then !(before.any fun k => isReset k && pctx k.pkt = pctx h.pkt)
  else
    !(mine.any fun k => pcode k.pkt = 0x40) && (!h.pkt.flags.getLsbD 14 || mine.isEmpty) &&
      (if isCopy h then copyMay s mine h else !(mine.any fun k => !isCopy k)) &&
      !(moduleWide h && before.any fun k => moduleWide k && !k.started)

/-- The commands taken before the one a packet stands for. -/
def cmdsBefore (s : State) (src : Src) (p : Packet) : List HeldCmd := s.cmds.takeWhile fun k => !isCmd src p k

/-- A taken command joins its window. -/
def addCmd (s : State) (src : Src) (who : Nat) (p : Packet) : State :=
  let h : HeldCmd := { src := src, who := who, pkt := p, taken := s.now, free := true, started := false, info := 0 }
  setHeld { s with cmds := s.cmds ++ [{ h with free := mayStart s s.cmds h }] } (winOf src)

/-- A packet is taken and checked; one that fails ends at once with its status (R314). -/
def takePacket (s : State) (src : Src) (who : Nat) (p : Packet) : State :=
  match takeCheck s src p with
  | some st => sendReply s src who p s.now st 0 []
  | none => addCmd s src who p

/-- A command of a packet starts: one its window holds already, else one that arrives and is taken now; `body` is what it
does once its turn has come, and `again` what a started one that still waits does (log 30). -/
def packetCmd (s : State) (src : Src) (p : Packet) (ok : Bool) (body again : State → HeldCmd → State) : State :=
  if !ok || !served s src then s
  else
    let known := s.cmds.any (isCmd src p)
    if !known && decide (64 ≤ (s.cmds.filter fun h => winOf h.src = winOf src).length) then s
    else
      let s1 := if known then s else takePacket s src 0 p
      match s1.cmds.find? (isCmd src p) with
      | none => s1
      | some h =>
        if h.started then again s1 h
        else if mayStart s1 (cmdsBefore s1 src p) h then
          (if ctxOps.contains (pcode p) && (getCtx s1 (pctx p)).st = .closed then refuse s1 h stState else body s1 h)
        else s1

/-- A command that completes when it starts. -/
def simpleCmd (s : State) (src : Src) (p : Packet) (code : Nat) (body : State → HeldCmd → State) : Out :=
  .next (packetCmd s src p (decide (pcode p = code)) body fun s _ => s)

/-- The started commands that satisfy a test complete. -/
def finishAll (s : State) (q : HeldCmd → Bool) (f : State → HeldCmd → State) : State :=
  (s.cmds.filter fun h => h.started && q h).foldl f s

/-- A started FENCE may complete: every earlier command of its window has, and the step it waits for has come or its plan
does not run (R324). -/
def fenceReady (s : State) (h : HeldCmd) : Bool :=
  let x := getCtx s (pctx h.pkt)
  pcode h.pkt = 0x40 && !((cmdsBefore s h.src h.pkt).any fun k => winOf k.src = winOf h.src) &&
    (pf h.pkt 0 63 63 = 0 || !isRunning x || decide (pf h.pkt 0 47 0 ≤ stepNum s (pctx h.pkt)))

/-- FENCE commands that may complete do, with the step number (R319, R324). -/
def fenceSettle (s : State) : State :=
  finishAll s (fenceReady s) fun s h => done s h (stepNum s (pctx h.pkt))

end Machine
end Sys2Proof
end

