-- ==== Sys2Proof/Machine/Image.lean ====
section
/-! DEFINITION. The Theop image as the module reads it from the plan staging area (10 R234 to R243; 05 R115, R117, R118). -/
namespace Sys2Proof
namespace Machine

/-- A section of the directory: type, target, offset, length, the byte of its entry, and whether its RSV bytes are 0 (R235). -/
structure Sect where
  typ : Nat
  tgt : Nat
  off : Nat
  len : Nat
  ent : Nat
  rsv : Bool
  deriving DecidableEq, Repr

/-- An image being loaded for a context: the module, the context, where the image lies and its length, and the payload of
the PLAN_LOAD (R321). -/
structure Ld where
  s   : State
  c   : CtxId
  b   : Nat
  len : Nat
  pay : List W64

/-- n bytes of the image, little-endian. -/
def Ld.img (L : Ld) (off n : Nat) : Nat := memRead L.s (L.b + off) n

/-! ### The header (R234) -/

def Ld.nlen (L : Ld) : Nat := L.img 24 1
def Ld.stepLens (L : Ld) : List Nat := (List.range L.nlen).map fun i => fld (L.img (32 + 8 * i) 8) 47 0
def Ld.shortest (L : Ld) : Nat := L.stepLens.foldl min (2 ^ 48)
def Ld.zone (L : Ld) (z : Nat) : Nat := L.img (160 + 4 * z) 4
def Ld.lc2 (L : Ld) : Bool := decide (L.img 12 1 = 2)
def Ld.flags (L : Ld) : Nat := L.img 14 1

/-- The bytes of the header whose reserved bits are not all 0, in the header's order. -/
def Ld.headRsv (L : Ld) : List Nat :=
  let nz (at_ : Nat) (ok : Bool) : List Nat := if ok then [] else [at_]
  nz 13 (L.img 13 1 < 4) ++ nz 14 (L.flags < 4) ++ nz 15 (L.img 15 1 = 0) ++ nz 25 (L.img 25 7 = 0) ++
    ((List.range 16).flatMap fun i => nz (32 + 8 * i) (fld (L.img (32 + 8 * i) 8) 62 48 = 0)) ++
    ((List.range 16).flatMap fun z => nz (160 + 4 * z) (L.zone z < 2 ^ 14)) ++ nz 450 (L.img 450 2 = 0) ++ nz 456 (L.img 456 56 = 0)

/-- The image's bytes with IMAGE_DIGEST and SEEDS read as zero (R234). -/
def Ld.digestBytes (L : Ld) : List Nat :=
  (List.range L.len).map fun i => if 256 ≤ i && i < 448 then 0 else L.img i 1

/-- The seeds in force (R237). -/
def Ld.seeds (L : Ld) : List W64 :=
  (List.range 16).map fun i => if L.img 448 2 / 2 ^ i % 2 = 1 then L.pay.getD (5 + i) 0 else BitVec.ofNat 64 (L.img (320 + 8 * i) 8)

/-! ### Sections (R235, R236) -/

def Ld.nsect (L : Ld) : Nat := L.img 452 4

def Ld.sect (L : Ld) (i : Nat) : Sect :=
  let e := 512 + 32 * i
  { typ := L.img e 2, tgt := L.img (e + 2) 2, off := L.img (e + 8) 8, len := L.img (e + 16) 8, ent := e
    rsv := decide (L.img (e + 4) 4 = 0) && decide (L.img (e + 24) 8 = 0) }

def Ld.sects (L : Ld) : List Sect := (List.range (min L.nsect 4096)).map L.sect
def Ld.ofType (L : Ld) (t : Nat) : List Sect := L.sects.filter fun x => x.typ = t
def Ld.one (L : Ld) (t tgt : Nat) : Option Sect := L.sects.find? fun x => x.typ = t && x.tgt = tgt
def Ld.word (L : Ld) (x : Sect) (i : Nat) : Nat := L.img (x.off + 8 * i) 8
def Ld.words (L : Ld) (x : Sect) : List Nat := (List.range (x.len / 8)).map (L.word x)

/-- A TARGET fits its type (R236). -/
def targetOk (typ tgt : Nat) : Bool :=
  if typ = 1 || typ = 2 then decide (tgt < 256)
  else if typ = 3 then decide (tgt < 0x120) || (decide (0x200 ≤ tgt) && decide (tgt < 0x218))
  else if typ = 4 then decide (tgt < 24)
  else if typ = 6 then decide (tgt < 32)
  else decide (tgt = 0xFFFF)

/-- Bytes of an entry, and the most entries where the directory limits them (R236). -/
def sectShape (typ : Nat) : Option (Nat × Option Nat) :=
  match typ with
  | 1 => some (32, none)
  | 2 => some (8, some 1024)
  | 3 => some (16, some 512)
  | 4 => some (8, none)
  | 5 => some (48, some 1)
  | 6 => some (32, none)
  | 7 => some (128, some 1)
  | 8 => some (8, some 65536)
  | 9 => some (16, some 4096)
  | _ => none

/-! ### The buffer map (R243) -/

def Ld.mapPairs (L : Ld) : List (Nat × Nat) :=
  match L.one 9 0xFFFF with
  | some x => (List.range (x.len / 16)).map fun i => (L.word x (2 * i), L.word x (2 * i + 1))
  | none => []

def regionOf (e : Nat × Nat) : Region := { kind := fld e.1 63 60, unit := fld e.1 59 52, start := fld e.1 40 0, len := fld e.2 40 0 }
def Ld.regions (L : Ld) : List Region := L.mapPairs.map regionOf
def mapsTile (r : Region) : Bool := r.kind = 1 || r.kind = 2 || r.kind = 4
def Ld.tileHeld (L : Ld) (t : Nat) : Bool := L.regions.any fun r => mapsTile r && r.unit = t
def Ld.engHeld (L : Ld) (g : Nat) : Bool := L.regions.any fun r => r.kind = 5 && r.unit = g
def Ld.banks (L : Ld) : Nat := ((L.regions.filter fun r => r.kind = 6).map (·.unit)).sum
def Ld.code (L : Ld) (t : Nat) : Option (Nat × Nat) := (L.regions.find? fun r => r.kind = 2 && r.unit = t).map fun r => (r.start, r.len)
def Ld.tiles (L : Ld) : BitVec 256 := BitVec.ofNat 256 ((List.range 256).foldl (fun a t => if L.tileHeld t then a + 2 ^ t else a) 0)
def Ld.engines (L : Ld) : BitVec 32 := BitVec.ofNat 32 ((List.range 32).foldl (fun a g => if L.engHeld g then a + 2 ^ g else a) 0)

/-! ### Mesh channels (R239), gather lists (R94), bead schedules (R115, R117, R118, R241) -/

def chanOfWords (a b : Nat) : Chan :=
  { dkind := fld a 63 61, dest := fld a 60 51, base := fld a 50 44, ring := fld a 43 36, ctr := fld a 35 30
    burst := fld a 29 24, count := fld a 23 0, first := fld b 63 32, period := fld b 31 0 }

def Ld.chansOf (L : Ld) (x : Sect) : List Chan :=
  (List.range (x.len / 16)).map fun i => chanOfWords (L.word x (2 * i)) (L.word x (2 * i + 1))
/-- The channels of a source endpoint. -/
def Ld.chans (L : Ld) (ep : Nat) : List Chan := match L.one 3 ep with | some x => L.chansOf x | none => []
/-- A channel number that exists with a DKIND other than none. -/
def Ld.chanExists (L : Ld) (ep n : Nat) : Bool := match (L.chans ep)[n]? with | some ch => ch.dkind ≠ 0 | none => false

def descOfWords (a b c d : Nat) : Desc :=
  { op := fld a 63 60, start := fld a 47 0, rlen := fld b 63 48, base := fld b 33 0, rows := fld c 63 40, stride := fld c 33 0
    chan := fld d 63 55, sc := fld d 33 32, target := fld d 31 16, amount := fld d 15 8 }

def descRsv (a b c d : Nat) : Bool :=
  fld a 59 48 = 0 && fld b 47 34 = 0 && fld c 39 34 = 0 && fld d 54 34 = 0 && fld d 7 0 = 0

def Ld.descsOf (L : Ld) (x : Sect) : List Desc :=
  (List.range (x.len / 32)).map fun i => descOfWords (L.word x (4 * i)) (L.word x (4 * i + 1)) (L.word x (4 * i + 2)) (L.word x (4 * i + 3))

def txOf (w : Nat) : TxE :=
  { kind := fld w 63 62, srca := fld w 61 57, abuf := fld w 56 47, bsel := fld w 46 46 = 1, srcb := fld w 45 41
    rel := fld w 40 40 = 1, fop := fld w 39 36, stok := BitVec.ofNat 4 (fld w 35 32) }

def rxOf (w : Nat) : RxE :=
  { kind := fld w 63 62, due := fld w 61 48, dlv := fld w 47 47 = 1, chan := fld w 46 38, rfld := fld w 37 37 = 1
    abuf := fld w 36 27, rel := fld w 26 26 = 1, fop := fld w 25 22, tokctr := fld w 21 10 }

/-- Phases of a bead section as frame and repetitions. -/
def Ld.phasesOf (L : Ld) (x : Sect) : List Phase :=
  (List.range (fld (L.word x 0) 15 8)).map fun h =>
    let w := L.word x (2 + h)
    { frame := fld w 16 0, reps := fld w 55 32 + 1 }

/-- Owned non-flux positions of a bead section (R115). -/
def Ld.positions (L : Ld) (x : Sect) : List Nat :=
  let n := fluxOf (fld (L.word x 0) 1 0)
  (List.range 64).filter fun q => L.word x 1 / 2 ^ q % 2 = 1 && !isFlux n q

/-- Entries in each run of a phase (R241). -/
def Ld.runLen (L : Ld) (x : Sect) (p : Phase) : Nat := p.frame / 64 * (L.positions x).length

/-- Word index of the transmit and the receive run of each phase (R241). -/
def Ld.runs (L : Ld) (x : Sect) : List (Nat × Nat × Nat) :=
  let ps := L.phasesOf x
  (ps.foldl (fun (a : Nat × List (Nat × Nat × Nat)) p =>
    let m := L.runLen x p
    (a.1 + 2 * m, a.2 ++ [(a.1, a.1 + m, m)])) (2 + ps.length, [])).2

def Ld.beadOf (L : Ld) (x : Sect) : BeadSec :=
  { link := x.tgt, flux := fld (L.word x 0) 1 0, mask := BitVec.ofNat 64 (L.word x 1)
    tx := (L.runs x).map fun r => (List.range r.2.2).map fun k => txOf (L.word x (r.1 + k))
    rx := (L.runs x).map fun r => (List.range r.2.2).map fun k => rxOf (L.word x (r.2.1 + k)) }

/-- Every slot of one step that a bead section's program gives an entry: phase, entry, slot from the step's first (R116). -/
def Ld.program (L : Ld) (x : Sect) : List (Nat × Nat × Nat) :=
  let ps := L.phasesOf x
  let pos := L.positions x
  let np := pos.length
  (((List.range ps.length).zip ps).foldl (fun (a : Nat × List (Nat × Nat × Nat)) hp =>
    let m := L.runLen x hp.2
    let es := (List.range hp.2.reps).flatMap fun r =>
      (List.range m).map fun k => (hp.1, k, a.1 + hp.2.frame * r + 64 * (k / np) + pos.getD (k % np) 0)
    (a.1 + hp.2.frame * hp.2.reps, a.2 ++ es)) (0, [])).2

/-- Expected hop of a link; 0 where the image uses none (R131, R236). -/
def Ld.exp (L : Ld) (l : Nat) : Nat := match L.one 5 0xFFFF with | some x => L.img (x.off + 2 * l) 2 | none => 0
def Ld.refresh (L : Ld) : List Byte :=
  match L.one 7 0xFFFF with | some x => (List.range 128).map fun i => BitVec.ofNat 8 (L.img (x.off + i) 1) | none => []

/-! ### Bundles (R28, R33 to R39) -/

/-- The control slot's encoding (R33). -/
def ctlOk (w : Nat) : Bool :=
  let t := fld w 23 8
  let sc := fld w 25 24
  let target := if sc = 0 then decide (t < 64) else if sc = 1 then decide (t / 64 % 4 = 0) else sc = 2 && decide (t < 4096)
  match fld w 31 26 with
  | 0 => fld w 25 0 = 0
  | 1 => target && fld w 7 0 ≠ 0
  | 2 => target
  | 3 => fld w 12 10 = 0 && (fld w 25 25 = 1 || fld w 24 19 = 0)
  | 4 => fld w 25 10 = 0
  | 5 => fld w 25 0 = 0
  | 6 => fld w 11 11 = 0
  | 7 => fld w 25 11 = 0
  | 8 => fld w 19 15 = 0
  | 9 => fld w 22 20 = 0
  | 10 => fld w 22 20 = 0
  | 11 => fld w 15 0 = 0
  | 12 => fld w 25 0 = 0
  | _ => false

/-- The matrix slot's encoding (R36, R43, R65). -/
def matOk (w : Nat) : Bool :=
  let f := matOf w
  let drain := f.rep.toNat % 2 = 1 && rowsOk f
  match fld w 63 58 with
  | 0 => true
  | 1 => fmtOk f.fmt
  | 2 => fmtOk f.fmt
  | 3 => fmtOk f.fmt && rowsOk f
  | 4 => drain
  | 5 => drain && (f.fmt = 0x0 || f.fmt = 0x1 || f.fmt = 0x8 || f.fmt = 0x9)
  | 6 => drain && f.rep = 1
  | 7 => rowsOk f
  | _ => false

/-- What each vector opcode needs of its slot (R37, R41, R68, R416). -/
def vecNeed (op : Nat) (f : VecSlot) : Option VecNeed :=
  let i64 := decide (f.ty = 3)
  let plain := need .none false
  match op with
  | 0x00 => some plain
  | 0x01 => some { ty := .four, rm := true, evD := i64, evA := i64, evB := i64, imm := true }
  | 0x02 => some { ty := .four, rm := true, evD := i64, evA := i64, evB := i64, imm := true }
  | 0x03 => some (need .three true)
  | 0x04 => some (need .none true)
  | 0x05 => some (need .three false)
  | 0x06 => some (need .three false)
  | 0x07 => some { need .three false with imm := decide (f.imm.toNat < 64) && decide (f.imm.toNat / 8 % 8 < 6) }
  | 0x08 => some plain
  | 0x09 =>
    let src : BitVec 4 := BitVec.ofNat 4 f.imm.toNat
    let dst : BitVec 4 := BitVec.ofNat 4 (f.imm.toNat / 16)
    some { need .none true with imm := (src = 0xA || src = 0xB || src = 0xC) &&
      (dst = 0x0 || dst = 0x1 || dst = 0x2 || dst = 0x8 || dst = 0x9 || dst = 0xA || dst = 0xB || dst = 0xC) }
  | 0x0A => some plain
  | 0x0B => some { plain with imm := decide (f.imm.toNat < 15) }
  | 0x0C => some { need .three false with imm := decide (f.imm.toNat < 2) }
  | 0x10 => some plain
  | 0x11 => some plain
  | 0x12 => some plain
  | 0x13 => some plain
  | 0x18 => some plain
  | 0x20 => some plain
  | 0x21 => some { plain with evD := true }
  | 0x22 => some { plain with evA := true }
  | _ => none

/-- The vector slot's encoding. -/
def vecOk (w : Nat) : Bool :=
  match vecNeed (fld w 63 56) (vecOf w) with
  | some n => !vecBad n (vecOf w)
  | none => false

/-- The memory slot's encoding (R38, R40, R68). -/
def memOk (w : Nat) : Bool :=
  let f := memOf w
  match fld w 47 43 with
  | 0 => true
  | 1 => f.size < 5
  | 2 => f.size < 5
  | 3 => extOk f.ty
  | 4 => extOk f.ty
  | 5 => true
  | 6 => f.size < 5 && decide ((f.vr.toNat * 2 ^ 14 + f.stride.toNat * 32) % sizeLines f.size = 0)
  | 7 => f.size < 5
  | _ => false

/-- The mesh slot's encoding (R39). -/
def meshOk (w : Nat) : Bool := fld w 47 44 < 4 && fld w 1 0 = 0

/-- The encodings of a bundle's five slots (R28, R33 to R39). -/
def bundleOk (b : Nat) : Bool :=
  ctlOk (fld b 255 224) && matOk (fld b 223 160) && vecOk (fld b 159 96) && memOk (fld b 95 48) && meshOk (fld b 47 0)

/-- The wait index a bundle's PWAIT or TWAIT names (R33). -/
def bundleWait (b : Nat) : Option Nat :=
  let w := fld b 255 224
  if fld w 31 26 = 3 || fld w 31 26 = 4 then some (fld w 9 0) else none

def Ld.bundle (L : Ld) (x : Sect) (i : Nat) : Nat := L.img (x.off + 32 * i) 32

/-- The plan an image describes, its assembly banks starting at `base` (R243). -/
def Ld.plan (L : Ld) (base : Nat) : Plan where
  lc2 := L.lc2
  lagged := fld L.flags 0 0 = 1
  multi := fld L.flags 1 1 = 1
  rank := L.img 18 2
  stepCount := L.img 20 4
  lens := (List.range L.nlen).map fun i => let w := L.img (32 + 8 * i) 8; (fld w 47 0, decide (fld w 63 63 = 1))
  zoneFs := ((List.range 16).filter fun z => (List.range 16).any fun i => L.tileHeld (16 * z + i)).map fun z =>
    (z, fld (L.zone z) 2 0, fld (L.zone z) 13 4)
  hash := BitVec.ofNat 256 (L.img 224 32)
  digest := BitVec.ofNat 512 (L.img 256 64)
  seeds := L.seeds
  tiles := L.tiles
  engines := L.engines
  bankBase := base
  banks := L.banks
  phases := match L.ofType 4 with | x :: _ => L.phasesOf x | [] => []
  beads := (L.ofType 4).map L.beadOf
  chans := (L.ofType 3).map fun x => (x.tgt, L.chansOf x)
  gathers := (L.ofType 6).map fun x => (x.tgt, L.descsOf x)
  exps := (List.range 24).map L.exp
  refresh := L.refresh
  regions := L.regions

end Machine
end Sys2Proof
end

