-- ==== Sys2Proof/Machine/Load.lean ====
section
/-! DEFINITION. The load checks of PLAN_LOAD in their order (10 R245; 05 R135; 06 R158; 08 R207; 04 R90, R95), the refusal
record (R246, R281), and the installation of an image (R245, R260). -/
namespace Sys2Proof
namespace Machine

/-- A refused load: PLAN number, UNIT, offset in the image, section TYPE, DETAIL1 and DETAIL2 (R246, R281). -/
structure LoadErr where
  num  : Nat
  unit : Nat
  off  : Nat
  typ  : Nat
  d1   : Nat
  d2   : Nat
  deriving DecidableEq, Repr

/-- A refusal of the header or of the module, which names no section: TYPE 0 and the module as TARGET (log 32). -/
def headErr (num off : Nat) : LoadErr := { num := num, unit := 0xFFFF, off := off, typ := 0, d1 := 0, d2 := 0 }
def sectErr (num : Nat) (x : Sect) (rel : Nat) : LoadErr := { num := num, unit := x.tgt, off := x.off + rel, typ := x.typ, d1 := 0, d2 := 0 }
def failIf (b : Bool) (e : LoadErr) : Option LoadErr := if b then some e else none
def firstErr : List (Option LoadErr) → Option LoadErr := fun l => l.findSome? id

/-! ### Checks 1 to 7 -/

/-- Check 1 (R234). -/
def Ld.check1 (L : Ld) : Option LoadErr :=
  firstErr [failIf (L.img 0 8 ≠ leBytes [0x54, 0x48, 0x45, 0x4F, 0x50, 0x49, 0x4D, 0x47]) (headErr 1 0), failIf (L.img 8 2 ≠ 1) (headErr 1 8),
    failIf (L.img 12 1 ≠ 1 && L.img 12 1 ≠ 2) (headErr 1 12), L.headRsv.head?.map (headErr 1)]
/-- Check 2 (R237). -/
def Ld.check2 (L : Ld) : Option LoadErr := failIf (leBytes (sha512 L.digestBytes) ≠ L.img 256 64) (headErr 2 256)
/-- Check 3 (R237). -/
def Ld.check3 (L : Ld) : Option LoadErr :=
  failIf (L.img 224 32 ≠ (List.range 4).foldr (fun i a => (L.pay.getD (1 + i) 0).toNat + 2 ^ 64 * a) 0) (headErr 3 224)
/-- Check 4 (R245). -/
def Ld.check4 (L : Ld) : Option LoadErr := failIf (L.img 13 1 / 2 ^ rd L.s rGAF_DEVICE_ID fGAF_DEVICE_ID_STEPPING % 2 = 0) (headErr 4 13)
/-- Check 5 (R249). -/
def Ld.check5 (L : Ld) : Option LoadErr :=
  failIf (rd L.s rGAF_DEVICE_ID fGAF_DEVICE_ID_LCLASSES / 2 ^ (L.img 12 1 - 1) % 2 = 0) (headErr 5 12)
/-- Check 6 (R245). -/
def Ld.check6 (L : Ld) : Option LoadErr :=
  firstErr [failIf (L.img 18 2 ≠ (getCtx L.s L.c).rank.toNat) (headErr 6 18), failIf (L.img 16 2 < L.img 18 2) (headErr 6 16),
    failIf (decide (fld L.flags 1 1 = 1) != decide (L.img 16 2 ≠ 0)) (headErr 6 14)]

/-- A rail out of service feeds a unit the image needs (R354, R356). -/
def Ld.railOut (L : Ld) : Bool :=
  let out (r : Nat) : Bool := rd L.s (rPWR_RAIL r) fPWR_RAIL_OOS = 1
  ((List.range 16).any fun z => out z && (List.range 16).any fun i => L.tileHeld (16 * z + i)) ||
    ((out 17 || out 18) && L.tiles ≠ 0) || ((out 20 || out 21) && L.ofType 4 ≠ []) ||
    ([22, 23, 24, 25].any out && (L.engines ≠ 0 || L.regions.any fun r => r.kind = 3))

/-- The module can serve plans (R13, R92, R103, R201). -/
def canServe (s : State) : Bool :=
  ((List.range 256).all fun t => (tget (fun _ => none) s.tileMap t).isSome) && !((List.range 4).any (groupHot s)) &&
    rd s rMEM_LP_STATUS fMEM_LP_STATUS_CH_FAIL = 0 && (List.range 16).all fun z => rd s (rCLK_XING z) fCLK_XING_STEP_OK ≠ 0

/-- Check 7 (R245). -/
def Ld.check7 (L : Ld) : Option LoadErr := failIf (!canServe L.s || L.railOut) (headErr 0x16 0)

/-! ### Checks 8 to 12 -/

def sectOk (L : Ld) (x : Sect) : Bool :=
  match sectShape x.typ with
  | some (n, most) =>
    x.rsv && targetOk x.typ x.tgt && x.off % 64 = 0 && decide (x.off + x.len ≤ L.len) && x.len % n = 0 &&
      (match most with | some m => decide (x.len ≤ n * m) | none => true)
  | none => false

/-- Check 8 (R235, R236). -/
def Ld.check8 (L : Ld) : Option LoadErr :=
  let xs := L.sects
  let bad (x : Sect) : LoadErr := { num := 7, unit := x.tgt, off := x.ent, typ := x.typ, d1 := 0, d2 := 0 }
  firstErr [failIf (L.nsect = 0 || 4096 < L.nsect || L.len < 512 + 32 * L.nsect) (headErr 7 452),
    (xs.find? fun x => !sectOk L x).map bad,
    (xs.find? fun x => xs.any fun y => decide (y.ent < x.ent) &&
      ((y.typ = x.typ && y.tgt = x.tgt) || (decide (y.off < x.off + x.len) && decide (x.off < y.off + y.len)))).map bad]

/-- A buffer map entry is well-formed and within what the context holds (R26, R83, R243). -/
def Ld.mapOk (L : Ld) (e : Nat × Nat) : Bool :=
  let r := regionOf e
  let x := getCtx L.s L.c
  let tile := x.tiles.getLsbD r.unit && rd L.s (rTIL_MAP (physOf L.s r.unit)) fTIL_MAP_PEND_FAIL = 0
  fld e.1 51 41 = 0 && fld e.2 63 41 = 0 &&
    (match r.kind with
     | 1 => tile && decide (sramAddr r.unit 0 ≤ r.start) && decide (r.start + r.len ≤ sramAddr r.unit 0 + 0x2000000)
     | 2 => tile && decide (sramAddr r.unit 0 ≤ r.start) && decide (r.start + r.len ≤ sramAddr r.unit 0 + 0x2000000)
     | 3 => inRegions L.s L.c r.start r.len
     | 4 => tile && r.start = 0 && r.len = 0
     | 5 => decide (r.unit < 32) && x.engines.getLsbD r.unit && r.start = 0 && r.len = 0
     | 6 => r.start = 0 && r.len = 0
     | _ => false)

/-- Check 9 (R243, R245). -/
def Ld.check9 (L : Ld) : Option LoadErr :=
  let ps := L.mapPairs
  let mapErr (i : Nat) : LoadErr :=
    match L.one 9 0xFFFF with | some x => sectErr 8 x (16 * i) | none => headErr 8 0
  let named (x : Sect) : Bool :=
    if x.typ = 1 || x.typ = 2 || (x.typ = 3 && decide (x.tgt < 256)) then L.tileHeld x.tgt
    else if x.typ = 6 then L.engHeld x.tgt
    else if x.typ = 3 && decide (x.tgt < 0x200) then L.engHeld (x.tgt - 256)
    else true
  firstErr [((List.range ps.length).find? fun i => !L.mapOk (ps.getD i (0, 0))).map mapErr,
    (L.sects.find? fun x => !named x).map fun x => sectErr 8 x 0]

/-- Assembly banks held by other contexts' parison or running plans (R121). -/
def bankUsed (s : State) (c b : Nat) : Bool :=
  allCtx.any fun d => d.val ≠ c && holdsPlan (getCtx s d) &&
    (match (getCtx s d).image with | some p => decide (p.bankBase ≤ b) && decide (b < p.bankBase + p.banks) | none => false)

/-- The first range of n free banks (R121). -/
def bankPlace (s : State) (c n : Nat) : Option Nat :=
  if n = 0 then some 0 else (List.range 32).find? fun b => decide (b + n ≤ 32) && (List.range n).all fun i => !bankUsed s c (b + i)

/-- Check 10 (R121). -/
def Ld.check10 (L : Ld) : Option LoadErr :=
  let i := (L.regions.takeWhile fun r => r.kind ≠ 6).length
  failIf (bankPlace L.s L.c L.banks).isNone (match L.one 9 0xFFFF with | some x => sectErr 0x15 x (16 * i) | none => headErr 0x15 0)

/-- Ticks of a section's bead program (R116). -/
def Ld.programTicks (L : Ld) (x : Sect) : Nat := ((L.phasesOf x).map fun p => 4 * p.frame * p.reps).sum

/-- Check 11 (R116, R234, R240). -/
def Ld.check11 (L : Ld) : Option LoadErr :=
  let beads := !(L.ofType 4).isEmpty
  let fits (ch : Chan) : Bool := ch.count = 0 || decide (ch.first + (ch.count - 1) * ch.period + ch.burst + 1 ≤ L.shortest)
  firstErr [failIf (L.nlen = 0 || 16 < L.nlen) (headErr 0x13 24),
    ((List.range L.nlen).find? fun i => let n := L.stepLens.getD i 0; n = 0 || (beads && n % 256 ≠ 0)).map fun i => headErr 0x13 (32 + 8 * i),
    ((L.ofType 4).find? fun x => decide (L.shortest < L.programTicks x)).map fun x => sectErr 0x13 x 0,
    ((L.ofType 3).filter fun x => x.tgt < 0x200).findSome? fun x =>
      ((List.range (x.len / 16)).find? fun i => !fits ((L.chansOf x).getD i (chanOfWords 0 0))).map fun i => sectErr 0x13 x (16 * i)]

/-- A zone's FS and SLK are refused (R201, R207). -/
def Ld.floorBad (L : Ld) (z : Nat) : Bool :=
  let w := L.zone z
  let fs := fld w 2 0
  fld w 3 3 = 0 || decide (4 < fs) || decide (fs < rd L.s (rCLK_ZONE_CTL z) fCLK_ZONE_CTL_CAP) ||
    ((List.range 5).any fun k => decide (fs ≤ k) && !stepOk L.s z k) ||
    decide (fs < rd L.s rCLK_TEMPER fCLK_TEMPER_CAP_STEP) || decide (nomOf fs ≤ fld w 13 4)

/-- Check 12 (R207, R211). -/
def Ld.check12 (L : Ld) : Option LoadErr :=
  ((List.range 16).find? fun z => ((List.range 16).any fun i => L.tileHeld (16 * z + i)) && L.floorBad z).map fun z => headErr 0xB (160 + 4 * z)

/-! ### Checks 13 to 16 -/

/-- Check 13 (R30, R33 to R39): every bundle, and a code region large enough for those beyond the store. -/
def Ld.check13 (L : Ld) : Option LoadErr :=
  (L.ofType 1).findSome? fun x =>
    let n := x.len / 32
    firstErr [((List.range n).find? fun i => !bundleOk (L.bundle x i)).map fun i => sectErr 9 x (32 * i),
      failIf (decide (2048 < n) && (match L.code x.tgt with | some r => decide (r.2 < 32 * (n - 2048)) | none => true)) (sectErr 9 x 65536)]

/-- A wait entry of a tile's table with a nonzero bound (R54). -/
def Ld.waitOk (L : Ld) (t i : Nat) : Bool :=
  match L.one 2 t with
  | some x => decide (8 * i < x.len) && fld (L.word x i) 31 0 ≠ 0
  | none => false

/-- Check 14 (R54). -/
def Ld.check14 (L : Ld) : Option LoadErr :=
  (L.ofType 1).findSome? fun x =>
    ((List.range (x.len / 32)).find? fun i =>
      match bundleWait (L.bundle x i) with | some k => !L.waitOk x.tgt k | none => false).map fun i => sectErr 0xA x (32 * i)

/-- A channel entry is valid for its source (R239). -/
def Ld.chanOk (L : Ld) (ep : Nat) (ch : Chan) : Bool :=
  let deliv := decide (0x200 ≤ ep)
  let eng := decide (0x100 ≤ ep) && !deliv
  let once := !(decide (1 < ch.count)) || decide (ch.burst + 1 ≤ ch.period)
  let noRing := ch.base = 0 && ch.ring = 0
  (!deliv || ch.count = 0) && once &&
    (match ch.dkind with
     | 0 => ch = chanOfWords 0 0
     | 1 => L.tileHeld ch.dest && decide (ch.dest < 256) && decide (ch.ring < 128)
     | 2 => !eng && !deliv && ch.base = 0 && decide (ch.dest + ch.ring < 32 * L.banks)
     | 3 => !eng && L.engHeld ch.dest && noRing
     | 4 => !eng && !deliv && ch.dest = 0 && noRing
     | _ => false)

/-- Check 15 (R239). -/
def Ld.check15 (L : Ld) : Option LoadErr :=
  (L.ofType 3).findSome? fun x =>
    ((List.range (x.len / 16)).find? fun i => !L.chanOk x.tgt ((L.chansOf x).getD i (chanOfWords 0 0))).map fun i => sectErr 0x11 x (16 * i)

/-- A word on a port in a tick: port, tick from step start, endpoint, channel. Ports: 0 out of a tile or engine, 1 out of a
delivery endpoint, 2 into a tile, 3 into a bank, 4 into an engine, 5 into the NI, with the index of the port. -/
structure PortUse where
  port : Nat × Nat
  tick : Nat
  ep   : Nat
  chan : Nat
  deriving DecidableEq, Repr

/-- The port word w of a channel enters (R238 to R240). -/
def inPort (ch : Chan) (w : Nat) : Option (Nat × Nat) :=
  match ch.dkind with
  | 1 => some (2, ch.dest)
  | 2 => some (3, (ch.dest + w / 5 % (ch.ring + 1)) / 32)
  | 3 => some (4, ch.dest)
  | 4 => some (5, 0)
  | _ => none

def wordUses (ep i : Nat) (ch : Chan) (out : Nat × Nat) (w t : Nat) : List PortUse :=
  { port := out, tick := t, ep := ep, chan := i } ::
    (match inPort ch w with | some p => [{ port := p, tick := t + MESH, ep := ep, chan := i }] | none => [])

/-- The words of tile and gather channels over one step (R240). -/
def Ld.sendUses (L : Ld) : List PortUse :=
  ((L.ofType 3).filter fun x => x.tgt < 0x200).flatMap fun x =>
    let chs := L.chansOf x
    (List.range chs.length).flatMap fun i =>
      let ch := chs.getD i (chanOfWords 0 0)
      if ch.dkind = 0 then []
      else (List.range (ch.count * (ch.burst + 1))).flatMap fun w => wordUses x.tgt i ch (0, x.tgt) w (wordDeparts ch w)

/-- The words of deliveries (R122): five per receive entry with DLV, from their first tick. -/
def Ld.delivUses (L : Ld) : List PortUse :=
  (L.ofType 4).flatMap fun x =>
    let b := L.beadOf x
    (L.program x).flatMap fun e =>
      let r := (b.rx.getD e.1 []).getD e.2.1 (rxOf 0)
      if r.kind ≠ 1 || !r.dlv then []
      else
        let t := 4 * e.2.2 + r.due + (if r.rfld then (if L.lc2 then 8 else 12) else 4)
        match (L.chans (0x200 + x.tgt))[r.chan]? with
        | some ch => (List.range 5).flatMap fun i => wordUses (0x200 + x.tgt) r.chan ch (1, x.tgt) 0 (t + i)
        | none => []

/-- Ticks from step k's start back to the starts of the steps before it, nearest first, while at most `bound` (R234). -/
def Ld.backs (L : Ld) (bound : Nat) : Nat → Nat → List Nat
  | 0, _ => []
  | k + 1, acc =>
    let d := acc + L.stepLens.getD (k % L.nlen) 1
    if bound < d then [] else d :: L.backs bound k d

/-- The steps a schedule is looked at in: one for every way the steps up to `bound` ticks before can be long. -/
def Ld.stepsSeen (L : Ld) (bound : Nat) : List Nat :=
  let n := L.nlen + bound / L.shortest + 1
  List.range (if L.img 20 4 = 0 then n else min n (L.img 20 4))

/-- What the ticks from step k's start on see: the step's own entries, and those of earlier steps that run over into it. -/
def Ld.overlay {α : Type} (L : Ld) (tick : α → Nat) (set : α → Nat → α) (us : List α) (k : Nat) : List α :=
  us ++ (L.backs ((us.map tick).foldl max 0) k 0).flatMap fun d =>
    (us.filter fun u => decide (d ≤ tick u)).map fun u => set u (tick u - d)

/-- The port uses a step's ticks see, of whichever step they are. -/
def Ld.uses (L : Ld) (k : Nat) : List PortUse :=
  L.overlay (·.tick) (fun u t => { u with tick := t }) (L.sendUses ++ L.delivUses) k

def portCap (p : Nat × Nat) : Nat := if p.1 = 1 then 6 else 1

/-- The first word that finds its port full in its tick, with the word before it there (R238). -/
def collision : List PortUse → List PortUse → Option (PortUse × PortUse)
  | _, [] => none
  | seen, u :: us =>
    let same := seen.filter fun v => v.port = u.port && v.tick = u.tick
    if portCap u.port ≤ same.length then some (same.headD u, u) else collision (seen ++ [u]) us

/-- Check 16 (R238, R246). -/
def Ld.check16 (L : Ld) : Option LoadErr :=
  (L.stepsSeen (((L.sendUses ++ L.delivUses).map (·.tick)).foldl max 0)).findSome? fun k =>
    (collision [] (L.uses k)).map fun e =>
      let off := match L.one 3 e.1.ep with | some x => x.off + 16 * e.1.chan | none => 0
      { num := 0x10, unit := e.1.ep, off := off, typ := 3, d1 := e.2.ep * 2 ^ 16 + e.2.chan, d2 := e.2.tick }

/-! ### Checks 17 to 22 -/

/-- Other contexts whose parison or running plan holds positions on a link. -/
def otherUsers (s : State) (c l : Nat) : List CtxId := (ctxsOn s l holdsPlan).filter fun d => d.val ≠ c

/-- A flux position of an open context on a link under a ratio (R114). -/
def fluxOwned (s : State) (l n : Nat) : Bool :=
  allCtx.any fun c => (getCtx s c).st ≠ .closed && (List.range 64).any fun q => (ownMask s c l).getLsbD q && isFlux n q

/-- Check 17 (R114, R131, R135). -/
def Ld.check17 (L : Ld) : Option LoadErr :=
  let code (x : Sect) : Nat := fld (L.word x 0) 1 0
  let expErr (l : Nat) : LoadErr := match L.one 5 0xFFFF with | some x => sectErr 0x14 x (2 * l) | none => headErr 0x14 0
  let users (l : Nat) : Bool := !(otherUsers L.s L.c l).isEmpty
  firstErr [
    ((L.ofType 4).find? fun x => fluxOwned L.s x.tgt (fluxOf (code x)) || (users x.tgt && fluxOf (code x) ≠ fluxN L.s x.tgt)).map fun x => sectErr 0x14 x 0,
    ((List.range 24).find? fun l => ((L.one 4 l).isSome || L.exp l ≠ 0) && users l &&
      L.exp l ≠ rd L.s (rFWD_EXP l) fFWD_EXP_EXP).map expErr]

/-- A bead section's own words are well-formed (R115, R241). -/
def Ld.beadHead (L : Ld) (x : Sect) : Bool :=
  let w := L.word x 0
  let ps := L.phasesOf x
  let words := 2 + ps.length + ((ps.map fun p => 2 * L.runLen x p).sum)
  fld w 63 16 = 0 && fld w 7 2 = 0 && fld w 1 0 ≠ 3 && decide (1 ≤ ps.length) && decide (ps.length ≤ 64) &&
    (ps.all fun p => p.frame % 64 = 0 && decide (64 ≤ p.frame) && decide (p.frame ≤ 65536)) &&
    ((List.range ps.length).all fun h => let v := L.word x (2 + h); fld v 63 56 = 0 && fld v 31 17 = 0) &&
    decide (x.len = 8 * words)

/-- A transmit entry's fields (R117, R121, R125, R135 item 3). -/
def Ld.txOk (L : Ld) (w : Nat) : Bool :=
  let e := txOf w
  fld w 31 0 = 0 && (if e.kind = 3 then decide (1 ≤ e.fop) && decide (e.fop ≤ 6) else e.fop = 0) &&
    !((e.kind = 2 || e.kind = 3) && decide (23 < e.srca)) && !(e.kind = 3 && e.bsel && decide (23 < e.srcb)) &&
    !((e.kind = 1 || (e.kind = 3 && !e.bsel)) && decide (32 * L.banks ≤ e.abuf))

/-- A receive entry's fields (R118, R132, R135 items 3, 5 and 6). -/
def Ld.rxOk (L : Ld) (l : Nat) (n : Nat) (w : Nat) : Bool :=
  let e := rxOf w
  let x := getCtx L.s L.c
  let exp := L.exp l
  let tol := if rd L.s (rFWD_EXP l) fFWD_EXP_XRACK = 1 then 4 else 0
  let rrt := 2 * exp + 16 + 8 * n
  decide (e.kind ≤ 1) && fld w 9 0 = 0 && (if e.rfld then decide (1 ≤ e.fop) && decide (e.fop ≤ 6) && decide (e.abuf < 32 * L.banks) else e.fop = 0) &&
    (e.kind = 0 ||
      (e.due % 4 = 0 && decide (exp + 2 * rrt + tol ≤ e.due) && decide (e.due + tol < rd L.s (rLNK_HOP l) fLNK_HOP_HOP + 2048) &&
        decide (x.ctrBase ≤ e.tokctr) && decide (e.tokctr + 3 < x.ctrBase + x.ctrLen) && (!e.dlv || L.chanExists (0x200 + l) e.chan)))

/-- Due ticks of the planned receive entries of a section over one step, with their phase and entry. -/
def Ld.dues (L : Ld) (x : Sect) : List (Nat × Nat × Nat) :=
  let b := L.beadOf x
  (L.program x).filterMap fun e =>
    let r := (b.rx.getD e.1 []).getD e.2.1 (rxOf 0)
    if r.kind = 1 then some (4 * e.2.2 + r.due, e.1, e.2.1) else none

def Ld.dueAt (L : Ld) (l t : Nat) : Bool := match L.one 4 l with | some x => (L.dues x).any fun d => d.1 = t | none => false

/-- The due ticks a step's ticks see, those of earlier steps among them (R119, R135 item 4). -/
def Ld.duesSeen (L : Ld) (x : Sect) (k : Nat) : List (Nat × Nat × Nat) := L.overlay (·.1) (fun d t => (t, d.2)) (L.dues x) k

/-- Positions the section's mask names that another open context owns or that its ratio makes flux positions, of those this
context does not own: what check 19 refuses and check 18 leaves to it (R113, R245; log 131). -/
def Ld.foreign (L : Ld) (x : Sect) : List Nat :=
  let n := fluxOf (fld (L.word x 0) 1 0)
  (List.range 64).filter fun q =>
    L.word x 1 / 2 ^ q % 2 = 1 && !(ownMask L.s L.c x.tgt).getLsbD q &&
      (isFlux n q || allCtx.any fun d => d.val ≠ L.c && (getCtx L.s d).st ≠ .closed && (ownMask L.s d x.tgt).getLsbD q)

/-- The section's mask is what the context owns, foreign positions aside (R241). -/
def Ld.maskOk (L : Ld) (x : Sect) : Bool :=
  (List.range 64).all fun q =>
    (L.foreign x).contains q || (decide (L.word x 1 / 2 ^ q % 2 = 1) == (ownMask L.s L.c x.tgt).getLsbD q)

/-- The first due tick met twice. -/
def twice : List (Nat × Nat × Nat) → Option (Nat × Nat)
  | [] => none
  | d :: ds => match ds.find? fun e => e.1 = d.1 with | some e => some e.2 | none => twice ds

/-- Item 4 of R135 for one transmit entry departing at tick t. -/
def Ld.relayOk (L : Ld) (e : TxE) (t : Nat) : Bool :=
  let back := if e.kind = 2 then 4 else if L.lc2 then 8 else 12
  !(e.kind = 2 || e.kind = 3) ||
    (decide (back ≤ t) && L.dueAt e.srca (t - back) && (!(e.kind = 3 && e.bsel) || L.dueAt e.srcb (t - back)))

/-- Check 18 for one section (R135 items 1 to 6, R144, R158, R241). -/
def Ld.beadErr (L : Ld) (x : Sect) : Option LoadErr :=
  let l := x.tgt
  let n := fluxOf (fld (L.word x 0) 1 0)
  let b := L.beadOf x
  let first := match L.ofType 4 with | y :: _ => L.phasesOf y | [] => []
  let runAt (h k : Nat) (rx : Bool) : LoadErr :=
    let r := (L.runs x).getD h (0, 0, 0)
    sectErr 0xE x (8 * ((if rx then r.2.1 else r.1) + k))
  firstErr [
    failIf (!L.beadHead x || !L.maskOk x || lnkState L.s l ≠ 6 ||
      rd L.s (rLNK_STATUS l) fLNK_STATUS_WIDTH ≠ 0 || L.phasesOf x ≠ first || decide (1000 < 4 * L.exp l + 8 * n) ||
      decide (L.exp l < rd L.s (rLNK_HOP l) fLNK_HOP_HOP)) (sectErr 0xE x 0),
    (List.range b.tx.length).findSome? fun h =>
      let r := (L.runs x).getD h (0, 0, 0)
      firstErr [((List.range r.2.2).find? fun k => !L.txOk (L.word x (r.1 + k))).map fun k => runAt h k false,
        ((List.range r.2.2).find? fun k => !L.rxOk l n (L.word x (r.2.1 + k))).map fun k => runAt h k true],
    ((L.stepsSeen (((L.dues x).map (·.1)).foldl max 0)).findSome? fun k => twice (L.duesSeen x k)).map fun e => runAt e.1 e.2 true,
    ((L.program x).find? fun e => !L.relayOk ((b.tx.getD e.1 []).getD e.2.1 (txOf 0)) (4 * e.2.2)).map fun e => runAt e.1 e.2.1 false]

/-- Check 18 (R135). -/
def Ld.check18 (L : Ld) : Option LoadErr := (L.ofType 4).findSome? L.beadErr

/-- Forwarding-table entries other plans hold on a link, in one direction (R116). -/
def tableUsed (s : State) (c l : Nat) : Nat :=
  ((otherUsers s c l).map fun (d : CtxId) => match (getCtx s d).image with
    | some p => (((p.beads.filter fun b => b.link = l).flatMap fun b => b.tx).map (·.length)).sum
    | none => 0).sum

/-- A link of twin mode (R269). -/
def twinLink (s : State) (l : Nat) : Bool :=
  rd s rDET_TWIN_CTL fDET_TWIN_CTL_ENABLE = 1 && (rd s rDET_TWIN_CTL fDET_TWIN_CTL_LINKA = l || rd s rDET_TWIN_CTL fDET_TWIN_CTL_LINKB = l)

/-- Check 19 (R113, R116, R246, R269): the record names the link, and the first foreign position; for the table space and a
twin link, the section's first position (log 131). -/
def Ld.check19 (L : Ld) : Option LoadErr :=
  let at_ (x : Sect) (q : Option Nat) : LoadErr := { sectErr 0xF x 8 with d1 := x.tgt, d2 := q.getD 0 }
  (L.ofType 4).findSome? fun x =>
    firstErr [(L.foreign x).head?.map fun q => at_ x (some q),
      failIf (twinLink L.s x.tgt || decide (16384 < tableUsed L.s L.c x.tgt + ((L.beadOf x).tx.map (·.length)).sum))
        (at_ x (L.positions x).head?)]

/-- Another parison or running plan holds a gather engine (R90). -/
def othersGather (s : State) (c : Nat) : Bool := allCtx.any fun d => d.val ≠ c && holdsEngines (getCtx s d)

/-- Check 20 (R90). -/
def Ld.check20 (L : Ld) : Option LoadErr :=
  let per := rd L.s rMEM_LP_TIMING fMEM_LP_TIMING_REF_PERIODS
  match L.one 7 0xFFFF with
  | none => some { headErr 0xC 0 with typ := 7 }
  | some x =>
    if x.len ≠ 128 then some (sectErr 0xC x 0)
    else
      let bs := L.refresh
      firstErr [((List.range 128).find? fun i => decide (16 - per < (bs.getD i 0).toNat % 16)).map fun i => sectErr 0xC x i,
        failIf (decide (rd L.s rMEM_LP_TIMING fMEM_LP_TIMING_MAX_GAP < 2048)) (sectErr 0xC x 0),
        if othersGather L.s L.c then
          ((List.range 128).find? fun i => bs.getD i 0 ≠ L.s.refreshP.getD i 0).map fun i => sectErr 0xC x i
        else none]

/-- Every line a descriptor names lies in the context's regions (R95). -/
def Ld.linesIn (L : Ld) (d : Desc) : Bool :=
  (List.range (d.rows + 1)).all fun r => inRegions L.s L.c (64 * (d.base + r * d.stride)) (64 * (d.rlen + 1))

/-- Check 21 (R94, R95, R239). -/
def Ld.check21 (L : Ld) : Option LoadErr :=
  (L.ofType 6).findSome? fun x =>
    let ds := L.descsOf x
    let upto := (ds.takeWhile fun d => d.op ≠ 0).length
    let ok (i : Nat) : Bool :=
      let d := ds.getD i (descOfWords 0 0 0 0)
      decide (d.op ≤ 3) && descRsv (L.word x (4 * i)) (L.word x (4 * i + 1)) (L.word x (4 * i + 2)) (L.word x (4 * i + 3)) &&
        d.sc ≠ 3 && d.amount ≠ 0 && L.linesIn d && (d.op = 3 || L.chanExists (0x100 + x.tgt) d.chan)
    firstErr [failIf (decide (8192 < ds.length)) (sectErr 0xD x 0),
      ((List.range upto).find? fun i => !ok i).map fun i => sectErr 0xD x (32 * i)]

/-- Check 22 (R79, R242). -/
def Ld.check22 (L : Ld) : Option LoadErr :=
  let ws := match L.one 8 0xFFFF with | some x => L.words x | none => []
  let bad (w : Nat) : Bool := decide (1 < fld w 63 62) || fld w 57 18 ≠ 0 || fld w 17 0 = 0 || decide (131072 < fld w 17 0)
  let lagged := decide (fld L.flags 0 0 = 1)
  firstErr [((List.range ws.length).find? fun i => bad (ws.getD i 0)).map fun i =>
      (match L.one 8 0xFFFF with | some x => sectErr 0x12 x (8 * i) | none => headErr 0x12 14),
    failIf (lagged != (ws.any fun w => fld w 63 62 = 1) || (lagged && (getCtx L.s L.c).dm)) (headErr 0x12 14)]

/-- The checks in their order (R245). -/
def loadChecks : List (Ld → Option LoadErr) :=
  [Ld.check1, Ld.check2, Ld.check3, Ld.check4, Ld.check5, Ld.check6, Ld.check7, Ld.check8, Ld.check9, Ld.check10, Ld.check11,
    Ld.check12, Ld.check13, Ld.check14, Ld.check15, Ld.check16, Ld.check17, Ld.check18, Ld.check19, Ld.check20, Ld.check21, Ld.check22]

/-- The first check that fails (R245). -/
def Ld.refused (L : Ld) : Option LoadErr := loadChecks.findSome? fun f => f L

/-! ### Installation (R30, R245, R260) -/

/-- A tile the image holds: its stores and wait table, its registers, mailboxes, weights and accumulators zero (R260). -/
def Ld.installTile (L : Ld) (s : State) (t : Nat) : State :=
  let x := L.one 1 t
  let n := match x with | some x => x.len / 32 | none => 0
  let bs := match x with | some x => (List.range (min n 2048)).map fun i => (i, BitVec.ofNat 256 (L.bundle x i)) | none => []
  let code := (L.code t).getD (0, 0)
  let s1 := match x with
    | some x => if 2048 < n then memWrite s code.1 (32 * (n - 2048)) (L.img (x.off + 65536) (32 * (n - 2048))) else s
    | none => s
  modTile s1 t fun y =>
    { Tile.zero with
      own := y.own, st := .parison, cc := y.cc, issued := y.issued, stalled := y.stalled, punty := y.punty, freedAt := y.freedAt
      xin := y.xin, incs := y.incs, isat := y.isat, ran := y.ran
      store := bs.filter fun e => e.2 ≠ 0
      waitTab := match L.one 2 t with | some w => (L.words w).map (BitVec.ofNat 64) | none => []
      codeBase := code.1 }

def Ld.installEng (L : Ld) (s : State) (g : Nat) : State :=
  modEng s g fun e =>
    { Engine.zero with own := e.own, lastEnd := e.lastEnd, slot := e.slot, blocks := e.blocks
                       list := match L.one 6 g with | some x => L.descsOf x | none => [] }

/-- FWD_FLUX and FWD_EXP of the links the image uses (R114, R131). -/
def Ld.installLink (L : Ld) (s : State) (x : Sect) : State :=
  let l := x.tgt
  let r := rd s rFWD_FLUX fFWD_FLUX_RATIO
  let new := r - r / 4 ^ l % 4 * 4 ^ l + fld (L.word x 0) 1 0 * 4 ^ l
  if (otherUsers s L.c l).isEmpty then wr (wr s rFWD_FLUX fFWD_FLUX_RATIO new) (rFWD_EXP l) fFWD_EXP_EXP (L.exp l) else s

/-- The image goes into the units it holds, and the context enters PARISON (R245). -/
def Ld.install (L : Ld) : State :=
  let c := L.c
  let base := (bankPlace L.s c L.banks).getD 0
  let p := L.plan base
  let held := othersGather L.s c
  let s1 := ((List.range 256).filter fun t => p.tiles.getLsbD t).foldl L.installTile L.s
  let s2 := ((List.range 32).filter fun g => p.engines.getLsbD g).foldl L.installEng s1
  let s3 := (L.ofType 4).foldl L.installLink s2
  let s4 := { s3 with abuf := s3.abuf.filter fun e => !(decide (32 * base ≤ e.1) && decide (e.1 < 32 * (base + p.banks)))
                      chanW := s3.chanW.filter fun e => e.1 / 2 ^ 19 ≠ c.val
                      refreshP := if p.engines ≠ 0 && !held then p.refresh else s3.refreshP }
  let s5 := modCtx s4 c fun x =>
    { x with plan := .parison, image := some p, launchAt := 0, lateArm := false, ran := false, fwdStop := none, stepCtr := 0
             stepStart := 0, faultTick := none, stopped := false, endStep := none, fwOnly := p.tiles = 0 && p.engines = 0 && p.banks = 0 &&
               !(p.regions.any fun r => r.kind = 3), loadPay := L.pay }
  floorUpdate (setResume s5 c 0)

/-- The record of a load refusal: step 0, no stop (R246, R281). -/
def loadNote (s : State) (c : CtxId) (e : LoadErr) : State :=
  let r := mkRec s (some c) false s.now { code := BitVec.ofNat 16 (0x1000 + e.num), engine := 13, unit := e.unit, offset := e.off, d0 := e.typ, d1 := e.d1, d2 := e.d2 }
  faultPush s { r with step := 0 }

/-- The image in the staging area of a context, as a PLAN_LOAD with this payload sees it. -/
def ldOf (s : State) (c : CtxId) (pay : List W64) : Ld :=
  { s := s, c := c, b := stagingAddr c, len := (pay.getD 0 0).toNat, pay := pay }

end Machine
end Sys2Proof
end

