-- ==== Sys2Proof/Machine/HangOps.lean ====
section
/-! DEFINITION. What the wait-cycle detector does to a suspect's record and plan (12 R291, R299). -/
namespace Sys2Proof
namespace Machine

/-- A HANG record of a context: DETAIL0 and DETAIL1 are filled as it is logged. -/
def hangInfo (n : Nat) (c : CtxId) : FaultInfo :=
  { code := BitVec.ofNat 16 (0x9000 + n), engine := 15, unit := c, offset := 0, d0 := 0, d1 := 0, d2 := 0 }

def hangNote (s : State) (n : Nat) (c : CtxId) (stop : Bool) : State :=
  faultPush s (mkRec s (some c) stop s.now (hangInfo n c))

/-- A context leaves the suspects (R291, R300). -/
def suspectOut (s : State) (c : CtxId) : State :=
  let m := BitVec.ofNat 8 (rd s rGAF_HANG_STATUS fGAF_HANG_STATUS_SUSPECTS) &&& ~~~ (1#8 <<< c.val)
  { wr s rGAF_HANG_STATUS fGAF_HANG_STATUS_SUSPECTS m.toNat with
    hang := { s.hang with queue := s.hang.queue.erase c, cleared := s.hang.cleared.erase c
                          cur := if s.hang.cur = some c then none else s.hang.cur } }

/-- The first multiple of 256 at least 240,000 ticks later (R291). -/
def replayAt (now : Nat) : Nat := 256 * ((now + 240000 + 255) / 256)

/-- The image of a suspect is loaded again from the plan staging area with its own PLAN_LOAD's hash and seeds, its resume step
set, and the plan armed; an image that fails its checks again leaves its record (R245, R291). -/
def reload (s : State) (c : CtxId) (rs : Nat) : State × Bool :=
  let L := ldOf s c (getCtx s c).loadPay
  match L.refused with
  | some e => (loadNote s c e, false)
  | none =>
    let s1 := setResume L.install c rs
    (modCtx s1 c fun x => { x with plan := .armed, launchAt := replayAt s.now }, true)

/-- Once every suspect has been tried, the cleared ones are logged as HANG 0x003 and launched together (R291). -/
def replayEnd (s : State) : State :=
  if s.hang.queue ≠ [] || s.hang.cur.isSome then s
  else
    (allCtx.filter fun c => s.hang.cleared.contains c).foldl (fun s (c : CtxId) =>
      let s1 := (reload (hangNote s 3 c false) c (resumeStep s c)).1
      suspectOut (modCtx s1 c fun x => { x with st := .opened, replay := none }) c) s

end Machine
end Sys2Proof
end

