-- ==== Sys2Proof/Machine/IdleOps.lean ====
section
/-! DEFINITION. Idle states from the next known event (15 R359 to R361). A unit is numbered as PWR_IDLE numbers it: 0 to 15 zones,
16 to 39 links, 40 to 43 controller groups. -/
namespace Sys2Proof
namespace Machine

/-- An idle state: its code in PWR_IDLE, the least gap it is used for, its entry and its exit time, in ticks (R360). -/
structure IdleRow where
  code  : Nat
  gap   : Nat
  entry : Nat
  exit  : Nat
  deriving DecidableEq, Repr

/-- The states of a unit, deepest first (R360); 2 cc are at most 2 ticks, 4 cc at most 4. -/
def idleRows (u : Nat) : List IdleRow :=
  if u < 16 then [⟨3, 480000, 6000, 60000⟩, ⟨2, 4800, 240, 1200⟩, ⟨1, 64, 2, 4⟩]
  else if u < 40 then [⟨4, 2400, 0, 240⟩]
  else [⟨5, 256, 8, 16⟩]

def within (a b t : Nat) : Bool := decide (a ≤ t) && decide (t < b)

/-! ### The next event of a zone -/

/-- A running plan's tile: the tick it waits for (R359). -/
def tileEvent (x : Tile) : Option Nat :=
  match x.stall with
  | some w => match w.cond with | .time t => some t | .step t => some t | _ => none
  | none => none

/-- A tile that issues, waits on a counter or still has work scheduled allows no idle state. -/
def tileAwake (x : Tile) : Bool :=
  x.st = .issuing || x.acts ≠ [] || (x.st = .waiting && (tileEvent x).isNone)

def shortestStep (p : Plan) : Nat := p.lens.foldl (fun m e => min m e.1) (p.lens.headD (1, false)).1

/-- First ticks of the steps of a run from the present one until tick b (R234). -/
def stepStarts (s : State) (c : CtxId) (p : Plan) (b : Nat) : List Nat :=
  let x := getCtx s c
  let off (k : Nat) : Nat := stepOffset p (resumeStep s c) (x.stepCtr + k)
  ((List.range ((b - x.stepStart) / max 1 (shortestStep p) + 1)).map fun k => x.stepStart + off k - off 0).filter fun t => decide (t < b)

/-- A word of a scheduled channel departs from the zone, or arrives in it, in [a, b) (R240). -/
def schedIn (s : State) (c : CtxId) (p : Plan) (z a b : Nat) : Bool :=
  let starts := stepStarts s c p b
  p.chans.any fun e => decide (e.1 < 0x200) && e.2.any fun ch =>
    let src := decide (e.1 < 0x100) && decide (e.1 / 16 = z)
    let dst := decide (ch.dkind = 1) && decide (ch.dest / 16 = z)
    (src || dst) && starts.any fun t0 => (List.range ((ch.burst + 1) * ch.count)).any fun w =>
      let t := t0 + wordDeparts ch w
      (src && within a b t) || (dst && within a b (t + MESH))

/-- A word handed to a delivery channel of the zone arrives in [a, b) (R122). -/
def delivIn (s : State) (c : CtxId) (p : Plan) (z a b : Nat) : Bool :=
  p.chans.any fun e => decide (0x200 ≤ e.1) && (List.range e.2.length).any fun k =>
    match e.2[k]? with
    | some ch =>
      ch.dkind = 1 && decide (ch.dest / 16 = z) && (List.range (b / 4 + 1 - (a / 4 - 1024))).any fun i =>
        let slot := a / 4 - 1024 + i
        match rxEntry p (getCtx s c) (resumeStep s c) (e.1 - 0x200) slot with
        | some (_, _, r) =>
          let t := 4 * slot + r.due + (if r.rfld then foldLat p else 4) + MESH
          r.kind = 1 && r.dlv && r.chan = k && decide (a < t + 5) && decide (t < b)
        | none => false
    | none => false

/-- An event of a zone falls in [a, b) (R359). -/
def zoneEventIn (s : State) (z a b : Nat) : Bool :=
  ((List.range 16).any fun i =>
    let x := getTile s (16 * z + i)
    match x.own, tileEvent x with
    | some c, some t => isRunning (getCtx s c) && within a b t
    | _, _ => false) ||
  (zoneCtxs s z holdsPlan).any fun (c : CtxId) =>
    let x := getCtx s c
    match x.image with
    | some p => if isRunning x then schedIn s c p z a b || delivIn s c p z a b else x.plan = .armed && within a b x.launchAt
    | none => false

/-! ### The next event of a link -/

def timRole (s : State) : Nat := rd s rTIM_ROLE fTIM_ROLE_ROLE
def upstream (s : State) : Nat := rd s rTIM_ROLE fTIM_ROLE_UPSTREAM
/-- LEAD or MEMBER: the module follows an upstream (R216). -/
def follows (s : State) : Bool := timRole s = 2 || timRole s = 3

/-- Ticks between the SYNC beads of a link (R220): 4,096 on an UPSTREAM link, the module's own or, as the neighbour's beads show by
coming as often, the neighbour's; 65,536 on any other (log 129). -/
def syncEvery (s : State) (l : Nat) : Nat :=
  let e := tget (fun _ => (0, 0)) s.tim.syncIn l
  if (follows s && upstream s = l) || (e ≠ (0, 0) && decide (e.2 < 16384) && decide (s.now < e.1 + 65536)) then 4096 else 65536

/-- A running plan has a planned slot on the link. -/
def plannedOn (s : State) (l slot : Nat) : Bool :=
  allCtx.any fun (c : CtxId) =>
    let x := getCtx s c
    match x.image with
    | some p => isRunning x && (match txEntry p x (resumeStep s c) l slot with | some (_, _, e) => decide (e.kind ≠ 0) | none => false)
    | none => false

def linkEventIn (s : State) (l a b : Nat) : Bool :=
  let x := getLink s l
  let per := syncEvery s l
  decide (x.helloAt + 1199999 < b) || decide ((x.syncAt / per + 1) * per < b) ||
    ((List.range (b / 4 + 1 - a / 4)).any fun i => let slot := a / 4 + i; within a b (4 * slot) && plannedOn s l slot) ||
    (ctxsOn s l holdsPlan).any fun (c : CtxId) => (getCtx s c).plan = .armed && within a b (getCtx s c).launchAt

/-- A link stays awake while any bead waits for acknowledgement, or anything is queued (R359). -/
def linkAwake (s : State) (l : Nat) : Bool :=
  let x := getLink s l
  lnkState s l ≠ 6 || (x.ring.any fun r => decide (x.txAck ≤ r.seq)) || x.rplq ≠ [] || x.retPend ≠ 0 || x.ctrlq ≠ [] || x.special ≠ [] || x.txq ≠ []

/-! ### The next event of a controller group -/

/-- A gather period or a refresh window begins in the group at a slot (R359). -/
def groupSlot (s : State) (m t : Nat) : Bool :=
  let sl := gSlot t
  ((List.range 32).any fun g => decide (groupOf (ownChan g sl) = m) && wantsSlot s g t) ||
    (enginesHeld s && (List.range 128).any fun ch => decide (groupOf ch = m) && startable ch sl && inRefresh s ch (periodNo ch sl))

/-- A descriptor of an engine starts in [a, b). -/
def startIn (s : State) (g a b : Nat) : Bool :=
  let e := getEng s g
  match e.own, descAt e e.upNext with
  | some c, some d => isRunning (getCtx s c) && within a b ((getCtx s c).stepStart + d.start)
  | _, _ => false

def groupEventIn (s : State) (m a b : Nat) : Bool :=
  ((List.range (b / 32 + 1 - a / 32)).any fun i => let t := 32 * (a / 32 + i); within a b t && groupSlot s m t) ||
    ((List.range 32).any fun g => startIn s g a b) ||
    allCtx.any fun (c : CtxId) => (getCtx s c).plan = .armed && holdsEngines (getCtx s c) && within a b (getCtx s c).launchAt

/-- Open accesses wait for the group. -/
def groupAwake (s : State) (m : Nat) : Bool :=
  let at_ (ns : List Need) : Bool := ns.any (Need.onGroup m)
  (s.inb.any fun i => at_ i.needs) || (s.respW.any fun r => at_ r.needs) || s.hostAcc.any fun a => at_ a.needs

/-! ### Any unit -/

/-- An event of the unit falls in [a, b). -/
def eventIn (s : State) (u a b : Nat) : Bool :=
  if u < 16 then zoneEventIn s u a b else if u < 40 then linkEventIn s (u - 16) a b else groupEventIn s (u - 40) a b

/-- The unit works, or changes, and may not go idle. -/
def unitAwake (s : State) (u : Nat) : Bool :=
  if u < 16 then
    (getZone s u).change.isSome || rd s (rCLK_ZONE_CTL u) fCLK_ZONE_CTL_STOPPED = 1 || (List.range 16).any fun i => tileAwake (getTile s (16 * u + i))
  else if u < 40 then linkAwake s (u - 16) else groupAwake s (u - 40)

/-- The contexts whose plan holds the unit. -/
def unitCtxs (s : State) (u : Nat) : List CtxId :=
  if u < 16 then zoneCtxs s u holdsPlan else if u < 40 then ctxsOn s (u - 16) holdsPlan
  else allCtx.filter fun (c : CtxId) => holdsEngines (getCtx s c)

def getIdle (s : State) (u : Nat) : Option IdleSt := tget (fun _ => none) s.idle u
def setIdle (s : State) (u : Nat) (x : Option IdleSt) : State := { s with idle := tset (fun _ => none) s.idle u x }

/-- The row of the state a unit is in. -/
def idleRow (s : State) (u : Nat) : IdleRow :=
  ((idleRows u).find? fun r => decide (r.code = rd s (rPWR_IDLE u) fPWR_IDLE_STATE)).getD ⟨0, 0, 0, 0⟩

/-- Power of a zone's domain and rail follows its idle state: Bank takes the logic off, Off the rail too (R360). -/
def zonePower (s : State) (z code : Nat) : State :=
  let on := rd s rPWR_DOMAIN fPWR_DOMAIN_ON
  let b := 2 ^ (10 + z)
  let s1 := wr s rPWR_DOMAIN fPWR_DOMAIN_ON (if 2 ≤ code then on &&& (2 ^ 32 - 1 - b) else on ||| b)
  wr s1 (rPWR_RAIL z) fPWR_RAIL_PG (if code = 3 then 0 else 1)

/-- A unit that is ready is active again; a shed that met a sleeping zone takes effect (R361). -/
def idleExit (s : State) (u : Nat) : State :=
  let deep := decide (u < 16) && decide (2 ≤ rd s (rPWR_IDLE u) fPWR_IDLE_STATE)
  let s1 := wr (setIdle s u none) (rPWR_IDLE u) fPWR_IDLE_STATE 0
  let s2 := if deep then zonePower s1 u 0 else s1
  if u < 16 && (getZone s2 u).shed then shedZone (modZone s2 u fun x => { x with shed := false }) u else s2

/-- Units whose ready tick has come. -/
def idleSettle (s : State) : State :=
  s.idle.foldl (fun s e =>
    match e.2 with
    | some x => (match x.ready with | some t => if t ≤ s.now then idleExit s e.1 else s | none => s)
    | none => s) s

/-- A unit starts waking: it is ready its exit time later, once it has entered; one not ready at its event raises PWR 0x008
against every context whose plan holds it (R361, R366). -/
def startWake (s : State) (u : Nat) (x : IdleSt) : State :=
  let r := idleRow s u
  let ready := max s.now (x.since + r.entry) + r.exit
  let s1 := setIdle s u (some { x with ready := some ready })
  if eventIn s u (x.since + 1) ready then
    raiseAll s1 (unitCtxs s u) { faultInfo 0x7008 0 0 0 with d0 := u + 256 * r.code }
  else s1

end Machine
end Sys2Proof
end

