-- ==== Sys2Proof/Machine/TwinOps.lean ====
section
/-! DEFINITION. The twin unit's stores and comparisons (11 R270 to R273). -/
namespace Sys2Proof
namespace Machine

/-- The twinned context (R269). -/
def twinCtx (s : State) : Option CtxId :=
  if rd s rDET_TWIN_CTL fDET_TWIN_CTL_ENABLE = 1 then some (Fin.ofNat 8 (rd s rDET_TWIN_CTL fDET_TWIN_CTL_CTX)) else none

/-- The first twin fault's description (R272, R274): the bundle window for a tile. -/
def noteDiv (s : State) (w : W64) (step first last : Nat) : State :=
  if rd s rDET_TWIN_DIV fDET_TWIN_DIV_CAUSE ≠ 0 then s
  else
    let s1 := regSet (regSet s rDET_TWIN_DIV w) rDET_TWIN_DIV_STEP (BitVec.ofNat 64 (step % 2 ^ 48))
    regSet s1 rDET_TWIN_DIV_POS (BitVec.ofNat 64 (last % 2 ^ 32 * 2 ^ 32 + first % 2 ^ 32))

/-- A twin fault against the twinned context, whatever its plan's state (R244, R272, R281). -/
def twinFault (s : State) (c : CtxId) (code : BitVec 16) (w : W64) (unit step first last : Nat) : State :=
  raise (noteDiv s w step first last) c
    { code := code, engine := 14, unit := unit, offset := 0, d0 := w.toNat, d1 := last % 2 ^ 32 * 2 ^ 32 + first % 2 ^ 32, d2 := 0 }

/-- DET_TWIN_DIV of a cause and an item. -/
def divWord (cause : Nat) (i : TwinItem) : W64 :=
  fset fDET_TWIN_DIV_CAUSE (fset fDET_TWIN_DIV_KIND (fset fDET_TWIN_DIV_UNIT (fset fDET_TWIN_DIV_WINDOW 0 i.window.toNat) i.unit.toNat) i.kind.toNat) cause

/-- A cause with no item. -/
def divBare (cause : Nat) : W64 := fset fDET_TWIN_DIV_CAUSE 0 cause

/-- Own first and last stream offset of a tile window still open (R272). -/
def openPos (s : State) (c : CtxId) (i : TwinItem) : Nat × Nat :=
  let k := (i.step.toNat + 2 ^ 32 - resumeStep s c % 2 ^ 32) % 2 ^ 32 * 2 ^ 22 + i.window.toNat
  if i.kind = 1 then (let e := tget (fun _ => (0, 0, 0)) (getTile s i.unit.toNat).wpos k; (e.1, e.2.1 - 1)) else (0, 0)

/-- A fault that an item gives, with its own bundle window. -/
def itemFault (s : State) (c : CtxId) (code : BitVec 16) (cause : Nat) (i : TwinItem) (pos : Nat × Nat) : State :=
  twinFault s c code (divWord cause i) i.unit.toNat (stepNum s c / 2 ^ 32 * 2 ^ 32 + i.step.toNat) pos.1 pos.2

def sameItem (a b : TwinItem) : Bool := a.kind = b.kind && a.unit = b.unit && a.window = b.window && a.step = b.step

/-- Two items of one window meet: both leave the stores, and the first pair that differs raises EXEC 0x018 (R272). -/
def twinCompare (s : State) (c : CtxId) (own part : TwWait) : State :=
  let s1 := { s with twin := { s.twin with own := s.twin.own.filter fun w => !sameItem w.item own.item, part := s.twin.part.filter fun w => !sameItem w.item own.item } }
  if own.item.sig = part.item.sig then bump s1 rDET_TWIN_CNT fDET_TWIN_CNT_COMPARED
  else if s1.twin.diff then s1
  else itemFault { s1 with twin := { s1.twin with diff := true } } c 0x2018 own.item.kind.toNat own.item (own.first, own.last)

/-- An own item: sent to the partner, and compared or kept in the store of 4,096 (R271, R272). -/
def ownItem (s : State) (c : CtxId) (w : TwWait) : State :=
  let s1 := { s with twin := { s.twin with queue := s.twin.queue ++ [w] } }
  match s1.twin.part.find? fun p => sameItem p.item w.item with
  | some p => twinCompare s1 c w p
  | none => if s1.twin.own.length < 4096 then { s1 with twin := { s1.twin with own := s1.twin.own ++ [w] } } else s1

/-- A partner item (R272). -/
def partItem (s : State) (c : CtxId) (i : TwinItem) : State :=
  match s.twin.own.find? fun o => sameItem o.item i with
  | some o => twinCompare s c o { item := i, at_ := s.now, first := 0, last := 0 }
  | none =>
    if s.twin.part.length < 4096 then { s with twin := { s.twin with part := s.twin.part ++ [{ item := i, at_ := s.now, first := 0, last := 0 }] } }
    else itemFault (bump s rDET_TWIN_DROP fDET_TWIN_DROP_PART_FULL) c 0x2019 5 i (openPos s c i)

/-- Bytes 0 to 7 of the context's IMAGE_DIGEST. -/
def digest8 (x : Ctx) : Option W64 := x.image.map fun p => BitVec.setWidth 64 p.digest

/-- The twin unit takes a packet (R271, R272, R297). -/
def twinTake (s : State) (p : TwinPacket) : State :=
  match twinCtx s with
  | none => s
  | some c =>
    let x := getCtx s c
    if p.magic ≠ 0x5457 || p.items.any (fun i => i.kind ≠ 1 && i.kind ≠ 2) then bump s rDET_TWIN_DROP fDET_TWIN_DROP_BAD_PKT
    else if s.twin.seen.contains p.pnum.toNat then bump s rDET_TWIN_CNT fDET_TWIN_CNT_PKT_DUP
    else
      let s1 := { s with twin := { s.twin with seen := p.pnum.toNat :: s.twin.seen } }
      if (match digest8 x with | some d => decide (d ≠ p.digest) | none => false) then
        twinFault s1 c 0x2018 (divBare 3) 0 (stepNum s c) 0 0
      else
        let s2 := p.items.foldl (fun s i => partItem s c i) s1
        if p.stop && isRunning x then twinFault s2 c 0x2019 (divBare 6) 0 (stepNum s c) 0 0 else s2

/-- DET_TWIN_MBOX as an offset of management space (R271). -/
def twinBox : Nat := 0x1FFFCD00800

/-- A management request addressed to the partner's twin unit. -/
def toTwin (p : NiPkt) : Bool := bits p.tgt 43 41 = 1 && bits p.tgt 40 0 = twinBox

/-- An item from its two words (R271). -/
def itemOf (a b : W64) : TwinItem :=
  { kind := BitVec.ofNat 2 (bits a 63 62), unit := BitVec.ofNat 8 (bits a 61 54), window := BitVec.ofNat 22 (bits a 53 32)
    step := BitVec.ofNat 32 (bits a 31 0), sig := b }

/-- A twin packet from its payload. -/
def twinParse (p : NiPkt) : TwinPacket :=
  let w := p.data.getD 0 0
  { link := 0, magic := BitVec.ofNat 16 (bits w 15 0), stop := w.getLsbD 24, pnum := BitVec.ofNat 32 (bits w 63 32), digest := p.data.getD 1 0
    items := (List.range (bits w 23 16)).map fun i => itemOf (p.data.getD (2 + 2 * i) 0) (p.data.getD (3 + 2 * i) 0) }

end Machine
end Sys2Proof
end

