-- ==== Sys2Proof/Machine/Open.lean ====
section
/-! DEFINITION. The network interface and the transit part (07 R172 to R193): REQUEST_ISSUE to OPEN_PACKET_LIFETIME_EXPIRY. -/
namespace Sys2Proof
namespace Machine

/-! ### Routing at a hop (R180, R181, R191) -/

/-- Version stamped into new packets (R187). -/
def activeV (s : State) : Nat := rd s rOPN_RT_CTL fOPN_RT_CTL_ACTIVE
def verOf (b : Bool) : Nat := if b then 1 else 0

def routeCached (s : State) (v id : Nat) : Option W64 := (s.routeC.find? (·.1 = 2 ^ 20 * v + id)).map (·.2)

/-- A link that open traffic can leave on: UP, and not narrowed to discovery (R169, R181). -/
def openLink (s : State) (l : Nat) : Bool := lnkState s l = 6 && rd s (rLNK_STATUS l) fLNK_STATUS_INCOMPAT = 0

def portLinks (s : State) (p : Nat) : List LinkId := (List.finRange 24).filter fun l => portOf s l = p && openLink s l
/-- Candidate ports with a link UP at x4, in CAND order (R180, R181). -/
def candPorts (s : State) (e : W64) : List Nat :=
  ((List.range 4).map fun i => bits e (4 * i + 3) (4 * i)).filter fun p =>
    decide (p < 8) && (portLinks s p).any fun l => rd s (rLNK_STATUS l) fLNK_STATUS_WIDTH = 0

/-- The flow hash of a packet (R181). -/
def flowHash (p : NiPkt) : Nat :=
  crc32 (bytesLE 3 p.dest ++ bytesLE 2 p.job ++ bytesLE 2 (p.srank % 2 ^ 16) ++ [0]) % 2 ^ 16

/-- The entry of a multicast group for a version: its tree, if VALID (R191). -/
def groupTree (s : State) (g v : Nat) : Option (List LinkId × Bool) :=
  let w := tableWord s (tableAddr (0x1000000 + 16 * g + 8 * v))
  if w.getLsbD 63 then some ((List.finRange 24).filter fun l => w.getLsbD l, w.getLsbD 25) else none

/-- What routing answers: wait for the entry, discard into a counter, or leave on links, with a copy for this module. -/
inductive RouteRes where
  | wait
  | drop (off : Nat) (f : Fld)
  | go (outs : List LinkId) (loc : Bool)
  deriving DecidableEq, Repr

/-- The route of a packet whose head is present (R181). -/
def routeOf (s : State) (p : NiPkt) : RouteRes :=
  let v := verOf p.ep
  if expired s p.birth then .drop rOPN_DROP0 fOPN_DROP0_EXPIRED
  else if tget (fun _ => false) s.retired v then .drop rOPN_DROP1 fOPN_DROP1_OLD_EPOCH
  else match routeCached s v p.dest with
    | none => .wait
    | some e =>
      if !e.getLsbD 63 || e.getLsbD 62 ≠ p.mc then .drop rOPN_DROP0 fOPN_DROP0_NO_ROUTE
      else if p.mc then
        match groupTree s p.dest v with
        | some (ls, loc) => .go ls loc
        | none => .drop rOPN_DROP0 fOPN_DROP0_NO_ROUTE
      else
        let cs := candPorts s e
        match cs with
        | [] => .drop rOPN_DROP0 fOPN_DROP0_NO_ROUTE
        | c0 :: _ =>
          let h := flowHash p
          let port := if rd s rOPN_BAL fOPN_BAL_ENABLE = 1 && !p.dm then
              cs.foldl (fun b q => if portBeads s q < portBeads s b then q else b) c0
            else cs.getD (h % cs.length) c0
          let ls := portLinks s port
          match ls[h / 256 % ls.length]? with
          | some l => .go [l] false
          | none => .drop rOPN_DROP0 fOPN_DROP0_NO_ROUTE

/-- A packet joins the queue of a link. A copy for a link of no port has no route, and one for a link that cannot take it is
lost as at a link that is down (R138, R166, R191; log 127). -/
def pushJob (s : State) (l : LinkId) (j : TxJob) : State :=
  if 8 ≤ portOf s l then dropSource (bump s rOPN_DROP0 fOPN_DROP0_NO_ROUTE) l j
  else if openLink s l then cmapPeak (modLink s l fun x => { x with txq := x.txq ++ [j] }) (portOf s l)
  else dropSource (bump s (rLNK_DROP l) fLNK_DROP_DOWN_PKTS) l j

/-! ### Packets of the endpoint part (R183, R184, R187) -/

def niJob (o : NiOut) : TxJob :=
  { src := none, beads := o.pkt.beads, pos := 0, nb := o.pkt.beads.length, ready := o.ready, ring := true, mgmt := opMgmt o.pkt.op
    ep := o.pkt.ep, mc := o.pkt.mc, cm := o.pkt.cm, abort := false, req := o.req, retry := o.retry
    hold := if opResp o.pkt.op && !o.retry then some (8 * o.pkt.dataLen) else none }

/-- The status of a data request whose target lies outside data space or its context's bounds; 0 inside them (R81, R83, R182). -/
def tgtStatus (s : State) (c : Nat) (p : NiPkt) : Nat :=
  let a := bits p.tgt 40 0
  let n := tgtBytes p
  if bits p.tgt 43 41 ≠ 0 || !inDataSpace a n then 6 else if !inBounds s c a n then 2 else 0

/-- A multicast at its source: its copies, and a local write if the tree delivers here; a local write outside the context's bounds
ends the request in error (R83, R191). -/
def mcStart (s : State) (o : NiOut) (outs : List LinkId) (loc : Bool) : State :=
  match o.req with
  | none => s
  | some k =>
    let n := outs.length + (if loc then 1 else 0)
    let s1 := { s with outst := s.outst.map fun (e : Outst) => if e.key = k then { e with copies := n } else e }
    match s1.outst.find? (·.key = k) with
    | none => s1
    | some e =>
      if n = 0 then okReq s1 e (s.now + 1)
      else if !loc then s1
      else if tgtStatus s1 e.ctx o.pkt ≠ 0 then failReq s1 e (tgtStatus s1 e.ctx o.pkt)
      else { s1 with inb := s1.inb ++ [{ pkt := o.pkt, ctx := some e.ctx, at_ := s.now, local_ := some k, needs := reqNeeds o.pkt }] }

/-- One packet of the endpoint part given to its links; it waits for a route that is not cached. -/
def niRouteOne (s : State) (o : NiOut) : State :=
  match routeOf s o.pkt with
  | .wait => { s with niOut := s.niOut ++ [o] }
  | .drop off f => bump s off f
  | .go outs loc =>
    let s1 := if o.pkt.mc then mcStart s o outs loc else s
    outs.foldl (fun s l => pushJob s l (niJob o)) s1

/-- Every packet the endpoint part holds is tried again, in order. -/
def niRoute (s : State) : State := s.niOut.foldl niRouteOne { s with niOut := [] }

def niSend (s : State) (o : NiOut) : State := niRouteOne s o

/-! ### Rank entries (R178, R179, R189) -/

/-- One window of a Rank entry's token bucket (R189). -/
def rankWindow (s : State) (echo : Bool) (ws : List W64) : List W64 :=
  if getField ws 0 rkState ≠ 1 then ws
  else
    let rate := getField ws 3 rkRate
    let tok := getField ws 3 rkTokens
    let ws1 := setField ws 3 rkTokens (max tok (min (tok + rate) (max rate 14)))
    if echo then ws1
    else
      let calm := getField ws 3 rkCalm + 1
      if rd s rOPN_CC_CTL fOPN_CC_CTL_INC_PERIOD ≤ calm then
        setField (setField ws1 3 rkRate (min 1024 (rate + rd s rOPN_CC_CTL fOPN_CC_CTL_INC_STEP))) 3 rkCalm 0
      else setField ws1 3 rkCalm calm

/-- Rank entries that hold anything: cached ones, and those of the table region with a byte that is not 0. -/
def rankKeys (s : State) : List Nat :=
  let a0 := rankAddr 0 0
  let inMem := s.mem.filterMap fun e => if a0 ≤ e.1 ∧ e.1 < a0 + 0x2000000 then some ((e.1 - a0) / 64) else none
  ((s.rankC.map (·.1)) ++ inMem).eraseDups

/-- RATE_WINDOW (R189): once per window of 1,024 ticks, for every Rank entry, cached or not (log 124). -/
def execRateWindow (s : State) : Out :=
  if s.now / 1024 ≤ s.rateWin then .next s
  else
    let s1 := (rankKeys s).foldl (fun s k => rankMod s (k / 65536) (k % 65536) (rankWindow s (s.echoed.contains k))) s
    .next { s1 with rateWin := s.now / 1024, echoed := [] }

/-- CONGESTION_WINDOW (R190): the entry of a window is cleared as the window begins, and PEAK starts from the beads queued then. -/
def execCongestionWindow (s : State) : Out :=
  let w := s.now / 76800
  if w ≤ s.congWin then .next s
  else .next ((List.range 8).foldl (fun s p => cmapPeak (regSet s (rOPN_CMAP (w % 256) p) 0) p) { s with congWin := w })

/-- A line of the table region read for a cache, in a free period of its channel (R89, R179, R180). -/
def tableRead (s : State) (a n : Nat) : Option (Nat × State) :=
  let ch := chanOf a
  if !chanFree s ch then none
  else
    let g := groupOf ch
    let s1 := useChan { s with lpOpen := tset (fun _ => 0) s.lpOpen g (tget (fun _ => 0) s.lpOpen g + 1) } ch s.now
    let (v, _, s2) := openRead s1 a n
    some (v, s2)

/-- ROUTE_CACHE_MISS (R180): the entry is read into the cache of 65,536, and packets that wait for it are routed; it waits
while a device recovery keeps the table region away. -/
def execRouteCacheMiss (v : Bool) (id : BitVec 20) (s : State) : Out :=
  if (routeCached s (verOf v) id.toNat).isSome || s.recPhase ≠ 0 then .next s
  else match tableRead s (rd s rOPN_RT_BASE fOPN_RT_BASE_BASE + 0x800000 * verOf v + 8 * id.toNat) 8 with
    | none => .next s
    | some (w, s1) =>
      let s2 := bump s1 rOPN_CACHE fOPN_CACHE_RT_MISS
      let old := if 65536 ≤ s2.routeC.length then s2.routeC.drop 1 else s2.routeC
      .next (niRoute { s2 with routeC := old ++ [(2 ^ 20 * verOf v + id.toNat, BitVec.ofNat 64 w)] })

/-! ### REQUEST_ISSUE (R173, R174, R178, R179, R189) -/

/-- The ORD condition of a descriptor (R173). -/
def ordMet (s : State) (c : Nat) (d : BitVec 512) : Bool :=
  if dOrd d = 1 then !(s.outst.any fun o => o.ctx.val = c && o.rank = dDest d && o.pkt.mc = dMc d)
  else if dOrd d = 2 then !(s.outst.any fun o => o.ctx.val = c)
  else true

/-- The queue without its head; the next descriptor reaches the head now. -/
def popReq (s : State) (c : Nat) : State :=
  match tget (fun _ => []) s.reqq c with
  | _ :: d :: rest => { s with reqq := tset (fun _ => []) s.reqq c ({ d with at_ := s.now } :: rest) }
  | _ => { s with reqq := tset (fun _ => []) s.reqq c [] }

/-- The request packet of a descriptor, its payload read from the local buffer (R173, R175), and whether a line was bad. -/
def reqPkt (s : State) (c : Nat) (d : BitVec 512) (dest seq : Nat) : NiPkt × Bool × State :=
  let x := getCtx s c
  let (v, bad, s1) := if dOp d = 1 then (0, false, s) else openRead s (sramAddr (dTile d) (dU d)) (8 * dLen d)
  ({ op := dOp d, ep := decide (activeV s = 1), mc := dMc d, dest := dest, cm := false, dm := x.dm, len := dLen d
     birth := s.now / 2 ^ 16 % 2 ^ 16, gen := x.gen, seq := seq, job := x.job.toNat, srank := x.rank.toNat, ce := false, status := 0
     tgt := BitVec.ofNat 64 (dAlloyE d * 2 ^ 48 + dOffset d)
     data := if dOp d = 1 then [] else (List.range (dLen d)).map fun i => BitVec.ofNat 64 (v >>> (64 * i)) }, bad, s1)

def newKey (s : State) (o : Outst) : State := { s with outst := s.outst ++ [o], niKey := s.niKey + 1 }

def mkOutst (s : State) (c : CtxId) (d : ReqDesc) (rank : Nat) (p : NiPkt) : Outst :=
  { key := s.niKey, ctx := c, rank := rank, pkt := p, desc := d, sent := s.now, resend := none, copies := 0 }

def bumpIssued (s : State) (c : Nat) : State :=
  wr s (rOPN_CTX_CNT c) fOPN_CTX_CNT_ISSUED (rd s (rOPN_CTX_CNT c) fOPN_CTX_CNT_ISSUED + 1)

/-- A request leaves its queue as a packet, or onto the local path where `own` (R81, R179). -/
def issueUnicast (s : State) (c : CtxId) (d : ReqDesc) (rank : Nat) (ws : List W64) : State :=
  let gid := getField ws 0 rkGid
  let own := decide (gid = ownGid s)
  let (p, bad, s1) := reqPkt s c d.word gid (getField ws 1 rkOutSeq)
  let tok := getField ws 3 rkTokens
  let nb := beadsOf p.bytes
  if !own && decide (tok < nb) then s
  else
    let s2 := rankMod (bumpIssued (popReq s1 c) c) c rank fun ws =>
      let w1 := setField (setField ws 1 rkOutSeq (getField ws 1 rkOutSeq + 1)) 2 rkIssued (getField ws 2 rkIssued + 1)
      if own then w1 else setField w1 3 rkTokens (tok - nb)
    let o := mkOutst s2 c d rank p
    let s3 := newKey s2 o
    if bad then failReq s3 o 5
    else if own then
      if tgtStatus s c p ≠ 0 then failReq s3 o (tgtStatus s c p)
      else { s3 with inb := s3.inb ++ [{ pkt := p, ctx := some c, at_ := s.now, local_ := some o.key, needs := reqNeeds p }] }
    else niSend s3 { pkt := p, ready := s.now + 8, retry := false, req := some o.key }

/-- A multicast PUT leaves its queue (R191). -/
def issueMc (s : State) (c : CtxId) (d : ReqDesc) : State :=
  let (p, bad, s1) := reqPkt s c d.word (dDest d.word) 0
  let s2 := bumpIssued (popReq s1 c) c
  let o := mkOutst s2 c d (dDest d.word) p
  let s3 := newKey s2 o
  if bad then failReq s3 o 5 else niSend s3 { pkt := p, ready := s.now + 8, retry := false, req := some o.key }

/-- REQUEST_ISSUE (R174): the head of a context's request queue, when every condition on it holds. -/
def execRequestIssue (c : CtxId) (s : State) : Out :=
  match tget (fun _ => []) s.reqq c with
  | [] => .next s
  | d :: _ =>
    if (getCtx s c).stopped || s.recPhase ≠ 0 || decide (8192 ≤ s.outst.length) || !ordMet s c d.word then .next s
    else if dMc d.word then .next (issueMc s c d)
    else
      let rank := dDest d.word % 65536
      match rankCached s c rank with
      | none => .next s
      | some ws =>
        if getField ws 0 rkState ≠ 1 then
          let (p, _, _) := reqPkt s c d.word 0 0
          let s1 := popReq s c
          .next (failReq s1 (mkOutst s1 c d rank p) 7)
        else if 4096 ≤ (getField ws 2 rkIssued + 2 ^ 32 - getField ws 2 rkDone) % 2 ^ 32 then .next s
        else .next (issueUnicast s c d rank ws)

/-! ### The front of a receive buffer (R177, R181, R183) -/

/-- The packet at the front of a link's buffer: its beads so far, and whether its LAST bead is there. -/
def frontBeads (s : State) (l : Nat) : List OpenB × Bool :=
  let bs := (getLink s l).obuf
  let n := (bs.takeWhile fun b => !fLast b.pay).length
  if n < bs.length then (bs.take (n + 1), true) else (bs, false)

def frontPkt (s : State) (l : Nat) : Option (NiPkt × Bool) :=
  match frontBeads s l with
  | ([], _) => none
  | (bs, whole) => some (pktOfBeads (bs.map (·.pay)), whole)

/-- The packet at the front leaves the buffer unused; what of it is still to come is dropped as it comes (R181). -/
def dropFront (s : State) (l : Nat) : State :=
  let (bs, whole) := frontBeads s l
  let n := bs.length
  bufNote (creditRet (modLink s l fun y =>
    { y with obuf := y.obuf.drop n, route := none, fdrop := if whole then y.fdrop else true, fexp := if whole then y.fexp else 0 }) l n) l

/-- PACKET_HEAD_ROUTE (R181, R183, R191): the head of a packet that is not for this module. -/
def execPacketHeadRoute (l : LinkId) (s : State) : Out :=
  match frontPkt s l with
  | none => .next s
  | some (p, _) =>
    if (getLink s l).route.isSome then .next s
    else if !opKnown p.op then .next (bump (dropFront s l) rOPN_DROP3 fOPN_DROP3_FRAMING)
    else if !p.mc && p.dest = ownGid s then .next s
    else match routeOf s p with
      | .wait => .next s
      | .drop off f => .next (bump (dropFront s l) off f)
      | .go outs loc =>
        let nb := beadsOf p.bytes
        let port := portOf s l
        let job (o : LinkId) : TxJob :=
          { src := some l, beads := [], pos := 0, nb := nb, ready := s.now, ring := decide (portOf s o ≠ port ^^^ 1), mgmt := opMgmt p.op
            ep := p.ep, mc := p.mc, cm := p.cm, abort := false, req := none, retry := false, hold := none }
        let s1 := modLink s l fun y => { y with route := some { outs := outs, mc := p.mc, nb := nb, loc := loc } }
        .next (if outs = [] && !loc then dropFront s1 l else outs.foldl (fun s o => pushJob s o (job o)) s1)

/-! ### At the destination (R184, R185) -/

/-- The inbound store has room for a request, and the response store for its response (R184). -/
def storeRoom (s : State) (p : NiPkt) : Bool :=
  let ins := s.inb.filter fun i => i.local_.isNone
  let held := (List.range 24).flatMap fun l => (getLink s l).txq.filterMap (·.hold)
  let outs := (s.niOut.filter fun o => opResp o.pkt.op && !o.retry).map fun o => 8 * o.pkt.dataLen
  let kept := s.rankQ.filterMap fun w => match w.work with | .resp _ _ d _ false => some (8 * d.length) | _ => none
  decide (ins.length < 1024) && decide ((ins.map fun i => 8 * i.pkt.dataLen).sum + 8 * p.dataLen ≤ 2 ^ 20) &&
    decide (ins.length + held.length + outs.length + kept.length < 1024) &&
    decide ((ins.map fun i => respBytes i.pkt).sum + held.sum + outs.sum + kept.sum + respBytes p ≤ 2 ^ 20)

/-- RETRY headers in use (R184). -/
def retryUse (s : State) : Nat :=
  ((List.range 24).flatMap fun l => (getLink s l).txq.filter (·.retry)).length + (s.niOut.filter (·.retry)).length +
    (s.rankQ.filter fun w => match w.work with | .resp _ _ _ _ r => r | _ => false).length

/-- The response packet to a request, for a module and from a rank (R185). -/
def respPkt (s : State) (p : NiPkt) (dest srank status : Nat) (data : List W64) : NiPkt :=
  { op := if p.op = 0x30 then 0x31 else 0x20, ep := decide (activeV s = 1), mc := false, dest := dest, cm := false, dm := p.dm
    len := data.length, birth := p.birth, gen := p.gen, seq := p.seq, job := p.job, srank := srank, ce := p.cm, status := status
    tgt := 0, data := data }

/-- The response to a request (R185): it goes to the source rank's module, once that rank's entry is cached (R179), or to the source
module of a MGMT packet; where no context holds the job the identifier is one the spec does not give (log 24). -/
def respond (s : State) (p : NiPkt) (c : Option CtxId) (status : Nat) (data : List W64) (ready : Nat) (retry : Bool) : State :=
  let send (s : State) (dest srank : Nat) : State := niSend s { pkt := respPkt s p dest srank status data, ready := ready, retry := retry, req := none }
  if p.job = 0 then send s p.srank (ownGid s)
  else match c with
    | some c =>
      match rankCached s c (p.srank % 65536) with
      | some ws => send s (getField ws 0 rkGid) (getCtx s c).rank.toNat
      | none => rankWait s c (p.srank % 65536) (.resp p status data ready retry)
    | none => let (v, s1) := draw s; send s1 (v.toNat % 2 ^ 20) (v.toNat / 2 ^ 20 % 2 ^ 16)

/-- The open context that holds a job (R185). -/
def jobCtx (s : State) (job : Nat) : Option CtxId :=
  if job = 0 then none
  else allCtx.find? fun c => ((getCtx s c).st = .opened || (getCtx s c).st = .replay) && (getCtx s c).job.toNat = job

/-- The request is kept only within 4,095 of INB_HIGH either way; one ahead becomes the new INB_HIGH (R185). -/
def seqKeep (s : State) (c : CtxId) (p : NiPkt) (ws : List W64) : Option State :=
  let r := p.srank % 65536
  let hi := getField ws 1 rkInbHigh
  let ahead := (p.seq + 2 ^ 24 - hi) % 2 ^ 24
  let behind := (hi + 2 ^ 24 - p.seq) % 2 ^ 24
  if ahead ≤ 4095 then some (if ahead = 0 then s else rankMod s c r fun ws => setField ws 1 rkInbHigh p.seq)
  else if behind ≤ 4095 then some s else none

/-- A request is accepted, answered RETRY, or dropped (R184). -/
def storeReq (s : State) (p : NiPkt) (c : Option CtxId) (needs : List Need) : State :=
  if storeRoom s p then { s with inb := s.inb ++ [{ pkt := p, ctx := c, at_ := s.now, local_ := none, needs := needs }] }
  else if p.mc then bump s rOPN_DROP1 fOPN_DROP1_DROP_FULL
  else if retryUse s < 64 then respond (bump s rOPN_DROP4 fOPN_DROP4_RETRIES) p c 1 [] (s.now + 16) true
  else bump s rOPN_DROP1 fOPN_DROP1_DROP_FULL

/-- Bounds, space and store of a request to a context (R185): a copy of a multicast that fails is lost here, and counted (R191; log 127). -/
def placeReq (s : State) (p : NiPkt) (c : CtxId) : State :=
  if tgtStatus s c p = 0 then storeReq s p (some c) (reqNeeds p)
  else if p.mc then bump s rOPN_DROP0 fOPN_DROP0_NO_ROUTE
  else respond s p (some c) (tgtStatus s c p) [] (s.now + 16) false

/-- A request for this module, in the order of R185; one whose rank's entry is not cached waits for it (R179). -/
def takeReq (s : State) (p : NiPkt) : State :=
  if expired s p.birth || s.recPhase ≠ 0 then bump s rOPN_DROP0 fOPN_DROP0_EXPIRED
  else if p.op = 0x30 then
    if toTwin p then twinTake s (twinParse p)
    else if mgmtOk p then storeReq s p none [] else respond s p none 6 [] (s.now + 16) false
  else match jobCtx s p.job with
    | none => if p.mc then bump s rOPN_DROP0 fOPN_DROP0_NO_ROUTE else respond s p none 3 [] (s.now + 16) false
    | some c =>
      if p.mc then placeReq s p c
      else match rankCached s c (p.srank % 65536) with
        | none => rankWait s c (p.srank % 65536) (.req p)
        | some ws =>
          match seqKeep s c p ws with
          | none => bump s rOPN_DROP2 fOPN_DROP2_SEQ_WINDOW
          | some s1 => placeReq s1 p c

/-- REQUEST_ARRIVAL (R185): the whole packet at the front of a link's buffer is a request for this module; the local copy
of a multicast packet is taken beside its copies (R191). -/
def execRequestArrival (l : LinkId) (s : State) : Out :=
  match frontPkt s l with
  | some (p, true) =>
    if !opKnown p.op then .next (bump (dropFront s l) rOPN_DROP3 fOPN_DROP3_FRAMING)
    else if p.mc then
      match (getLink s l).route with
      | some r =>
        if r.loc then
          let s1 := takeReq s p
          .next (if r.outs = [] then dropFront s1 l else modLink s1 l fun y => { y with route := some { r with loc := false } })
        else .next s
      | none => .next s
    else if p.dest ≠ ownGid s || opResp p.op || (getLink s l).route.isSome then .next s
    else .next (takeReq (dropFront s l) p)
  | _ => .next s

/-! ### REQUEST_EXECUTE (R176, R183, R185) -/

/-- One 8-byte unit of an atomic (R176). -/
def atomicUnit (op : Nat) (old v : W64) : W64 :=
  let two (f : W32 → W32 → W32) : W64 :=
    f (old.extractLsb' 32 32) (v.extractLsb' 32 32) ++ f (old.extractLsb' 0 32) (v.extractLsb' 0 32)
  if op = 8 then old + v
  else if op = 9 then two (· + ·)
  else if op = 0x0A then two fun a b => toF32 .nearest (addN .nearest (ofF32 a) (ofF32 b))
  else if op = 0x0B then two maxF
  else if op = 0x0C then old ||| v
  else if op = 0x0D then old &&& v
  else v

def wordsOf (v n : Nat) : List W64 := (List.range n).map fun i => BitVec.ofNat 64 (v >>> (64 * i))
def ofWords (ws : List W64) : Nat := ws.foldr (fun w a => w.toNat + 2 ^ 64 * a) 0

/-- AFADD32 in Alloy form (R183): every lane is checked before any unit is written. -/
def alloyAdd (e : Int) (old data : List W64) : Option (List W64) :=
  let lanes := data.flatMap fun w => [w.extractLsb' 0 32, w.extractLsb' 32 32]
  let sums := (old.zip lanes).map fun (o, x) =>
    if decide (e < alloyExp x) then none
    else
      let v : Int := o.toInt + (alloyEnc e x).toInt
      if v < -(2 ^ 63) ∨ 2 ^ 63 ≤ v then none else some (BitVec.ofInt 64 v)
  if sums.any Option.isNone then none else some (sums.map fun o => o.getD 0)

/-- The effect of an accepted data request on memory: status, returned words, state (R176). -/
def perform (s : State) (p : NiPkt) : Nat × List W64 × State :=
  let a := bits p.tgt 40 0
  if p.op = 2 then (0, [], openWrite s a (8 * p.len) (ofWords p.data))
  else
    let n := tgtBytes p
    let (v, bad, s1) := openRead s a n
    if bad then (5, [], s1)
    else
      let old := wordsOf v (n / 8)
      if p.op = 1 then (0, old, s1)
      else if p.op = 0x0F then
        (0, old, if old.getD 0 0 = p.data.getD 0 0 then openWrite s1 a 8 (p.data.getD 1 0).toNat else s1)
      else if p.op = 0x0A && p.dm then
        match alloyAdd (BitVec.ofNat 16 (bits p.tgt 63 48)).toInt old p.data with
        | some ws => (0, [], openWrite s1 a n (ofWords ws))
        | none => (4, [], s1)
      else
        let ws := (old.zip p.data).map fun (o, w) => atomicUnit p.op o w
        (0, if respBytes p = 8 then old else [], openWrite s1 a n (ofWords ws))

/-- Words of a management response: the protocol's contents are not the spec's (log 25). -/
def drawWords : Nat → State → List W64 × State
  | 0, s => ([], s)
  | n + 1, s =>
    let (v, s1) := draw s
    let (ws, s2) := drawWords n s1
    (BitVec.ofNat 64 v.toNat :: ws, s2)

/-- Data on its way into the local buffer of a request (R186), or its completion where there is none. -/
def deliverData (s : State) (o : Outst) (loc : Bool) (data : List W64) : State :=
  if data = [] then okReq s o (s.now + 1)
  else
    let a := sramAddr (dTile o.desc.word) (dU o.desc.word)
    { s with respW := s.respW ++ [{ key := o.key, loc := loc, at_ := s.now, addr := a, data := data, needs := accessesOf a (8 * data.length) true }] }

/-- The request of the inbound store whose accesses are all served, the earliest accepted. -/
def execReq (s : State) (i : Inb) : State :=
  let s1 := { s with inb := s.inb.erase i }
  if i.pkt.op = 0x30 then
    let (v, s2) := draw s1
    let (ws, s3) := drawWords (v.toNat % 513) s2
    respond s3 i.pkt none (v.toNat / 1024 % 128) ws (max (i.at_ + 16) s.now) false
  else
    let (st, ws, s2) := perform s1 i.pkt
    match i.local_ with
    | some k =>
      match s2.outst.find? (·.key = k) with
      | none => s2
      | some o =>
        if i.pkt.mc then
          let s3 := { s2 with outst := s2.outst.map fun (e : Outst) => if e.key = k then { e with copies := e.copies - 1 } else e }
          if o.copies ≤ 1 then okReq s3 o (s.now + 1) else s3
        else if st = 0 then deliverData s2 o true ws else failReq s2 o st
    | none => if i.pkt.mc then s2 else respond s2 i.pkt i.ctx st ws (max (i.at_ + 16) s.now) false

/-- Two requests use one tile's SRAM or one controller group's LPDDR. -/
def shareUnit (a b : NiPkt) : Bool :=
  (reqNeeds a).any fun x => (reqNeeds b).any fun y =>
    match x, y with
    | .sram m _, .sram n _ => m / 2 ^ 19 = n / 2 ^ 19
    | .period m, .period n => groupOf m = groupOf n
    | _, _ => false

/-- The next request to execute: all its accesses served, and none accepted before it that uses a unit of its (R185). -/
def nextReq : List Inb → List Inb → Option Inb
  | _, [] => none
  | before, i :: rest =>
    if i.needs = [] && !(before.any fun j => i.pkt.op ≠ 0x30 && j.pkt.op ≠ 0x30 && shareUnit i.pkt j.pkt) then some i
    else nextReq (before ++ [i]) rest

/-- REQUEST_EXECUTE (R185); a request that has expired is discarded instead. -/
def execRequestExecute (s : State) : Out :=
  match nextReq [] s.inb with
  | some i =>
    if i.local_.isNone && expired s i.pkt.birth then
      .next (bump { s with inb := s.inb.erase i } rOPN_DROP0 fOPN_DROP0_EXPIRED)
    else .next (execReq s i)
  | none => .next s

/-! ### Responses (R186) -/

/-- The outstanding entry a response names: responder rank and SEQ within the job's context; one that is being written to
its buffer is matched already. -/
def matchOut (s : State) (c : CtxId) (p : NiPkt) : Option Outst :=
  s.outst.find? fun o => o.ctx = c && !o.pkt.mc && o.rank = p.srank && o.pkt.seq = p.seq && !(s.respW.any fun r => r.key = o.key)

/-- A response to a request of this module. -/
def takeResp (s : State) (p : NiPkt) : State :=
  if p.op = 0x31 then s
  else match allCtx.find? fun (c : CtxId) => (getCtx s c).st ≠ .closed && (getCtx s c).job.toNat = p.job with
    | none => bump s rOPN_DROP3 fOPN_DROP3_ORPHAN
    | some c =>
      if p.gen ≠ (getCtx s c).gen then bump s rOPN_DROP2 fOPN_DROP2_STALE_GEN
      else match matchOut s c p with
        | none => bump s rOPN_DROP3 fOPN_DROP3_ORPHAN
        | some o =>
          let s1 := if p.ce then rankNote s c o.rank .echo else s
          if p.status = 0 then deliverData s1 o false p.data
          else if p.status = 1 then
            let s2 := rankNote s1 c o.rank .slow
            { s2 with outst := s2.outst.map fun (e : Outst) => if e.key = o.key then { e with resend := some (s.now + 2048) } else e }
          else failReq s1 o p.status

/-- RESPONSE_ARRIVAL (R186): the whole packet at the front of a link's buffer is a response for this module; during a device
recovery it is lost as expired (R192). -/
def execResponseArrival (l : LinkId) (s : State) : Out :=
  match frontPkt s l with
  | some (p, true) =>
    if p.mc || p.dest ≠ ownGid s || !opResp p.op || (getLink s l).route.isSome then .next s
    else
      let s1 := dropFront s l
      .next (if s.recPhase ≠ 0 then bump s1 rOPN_DROP0 fOPN_DROP0_EXPIRED else takeResp s1 p)
  | _ => .next s

/-- REQUEST_TIMEOUT (R186): every entry 1,200,000 ticks after its injection with no response. -/
def execRequestTimeout (s : State) : Out :=
  let due := s.outst.filter fun o => decide (o.sent + 1200000 ≤ s.now) && !(s.respW.any fun r => r.key = o.key)
  let keys := due.map (·.key)
  .next (due.foldl (fun s o => failReq s o 0x10)
    { s with inb := s.inb.filter fun i => match i.local_ with | some k => !keys.contains k | none => true })

/-- A request may be sent again: 2,048 ticks have passed since its RETRY, its context has not stopped, and its rank's entry is
cached and holds the tokens of its beads (R179, R184, R189, R282). -/
def mayResend (s : State) (o : Outst) : Bool :=
  (match o.resend with | some t => decide (t ≤ s.now) | none => false) && !(getCtx s o.ctx).stopped &&
    (match rankCached s o.ctx o.rank with | some ws => decide (beadsOf o.pkt.bytes ≤ getField ws 3 rkTokens) | none => false)

/-- RETRY_RESEND (R184, R189): the same SEQ and BIRTH, for its tokens. -/
def execRetryResend (s : State) : Out :=
  match s.outst.find? (mayResend s) with
  | some o =>
    let s1 := { s with outst := s.outst.map fun (e : Outst) => if e.key = o.key then { e with resend := none } else e }
    let s2 := rankMod s1 o.ctx o.rank fun ws => setField ws 3 rkTokens (getField ws 3 rkTokens - beadsOf o.pkt.bytes)
    .next (niSend s2 { pkt := { o.pkt with ep := decide (activeV s = 1) }, ready := s.now + 8, retry := false, req := some o.key })
  | none => .next s

/-! ### RANK_CACHE_MISS (R179) -/

/-- Work that waited for an entry goes on. -/
def rankGo (s : State) (w : RankWait) : State :=
  match w.work with
  | .req p => takeReq s p
  | .resp p st d ready retry => respond s p (some w.ctx) st d ready retry
  | .note n => rankDo s w.ctx w.rank n

/-- RANK_CACHE_MISS (R179): the entry is read, one of 4,096 displaced is written back, and what waited for the entry goes on. -/
def execRankCacheMiss (c : CtxId) (rank : BitVec 16) (s : State) : Out :=
  if (rankCached s c rank.toNat).isSome then .next s
  else match tableRead s (rankAddr c rank.toNat) 40 with
    | none => .next s
    | some (v, s1) =>
      let s2 := bump s1 rOPN_CACHE fOPN_CACHE_RANK_MISS
      let s3 := match s2.rankC with
        | (k, ws) :: rest =>
          if 4096 ≤ s2.rankC.length then
            (List.range 4).foldl (fun s i => memWrite s (rankAddr (k / 65536) (k % 65536) + 8 * (i + 1)) 8 (ws.getD (i + 1) 0).toNat)
              { s2 with rankC := rest }
          else s2
        | [] => s2
      let mine (w : RankWait) : Bool := decide (w.ctx = c) && decide (w.rank = rank.toNat)
      .next ((s3.rankQ.filter mine).foldl rankGo
        { s3 with rankC := s3.rankC ++ [(65536 * c.val + rank.toNat, (List.range 5).map fun i => BitVec.ofNat 64 (v >>> (64 * i)))]
                  rankQ := s3.rankQ.filter fun w => !mine w })

end Machine
end Sys2Proof
end

