-- ==== Sys2Proof/Machine/LinkCmds.lean ====
section
/-! DEFINITION. Beads and control words of the link layer (06 R148 to R169): BEAD_IN_ERROR to HELLO_SEND, and the state of
the lock. A command on a link that receives no beads changes nothing. -/
namespace Sys2Proof
namespace Machine

/-! ### Errors and replay (R134, R153 to R157, R165) -/

/-- The slot that arrived in the present period (R128). -/
def arrSlot (s : State) (l : Nat) : Nat := nearestSlot (s.now - expOf s l)

/-- Lock is lost (R165). -/
def lockLostEff (s : State) (l : Nat) : State :=
  if (getLink s l).lockLost.isSome then s
  else
    let s1 := bump (wr s (rLNK_STATUS l) fLNK_STATUS_LOCK 0) (rLNK_FEC2 l) fLNK_FEC2_LOCK_LOSS
    modLink s1 l fun x => { x with lockLost := some s.now }

/-- The NAK rule for a bead in error (R155): the next new sequence at once, or the next clean bead settles it. A gap of a
quiet run's exit time or more leaves the cadence uncertain. -/
def errNak (s : State) (l : Nat) : State :=
  let x := getLink s l
  let slot := arrSlot s l
  let quiet := x.lastRx ≠ 0 && decide (x.lastRx + 240 ≤ s.now)
  if x.unsure || quiet || (fluxSlot s l slot && x.nakOut ≠ []) then setLink s l { x with unsure := true, lastRx := s.now }
  else
    setLink s l { x with rxNext := x.rxNext + 1, rxErr := (x.rxNext, slot) :: x.rxErr, naks := insertNak x.rxNext s.now x.naks
                         lastRx := s.now }

/-- More than 64 beads in error in a window of 2^20 beads, n being the newest (R165). -/
def tooMany (x : Link) (n : Nat) : Bool :=
  match x.errAt[63]? with
  | some m => decide (n < m + 2 ^ 20)
  | none => false

/-- What a bead in error adds to the counters (R153). -/
def errCount (s : State) (l : Nat) (e : BeadError) : State :=
  let s1 := bump s (rLNK_FEC l) fLNK_FEC_UNCORR
  match e with
  | .crc _ => bump s1 (rLNK_FEC2 l) fLNK_FEC2_CRC_ONLY
  | .uncorrectable => s1
  | .reservedClass _ => s1

/-- A bead in error is received (R153, R155, R165). -/
def beadError (s : State) (l : Nat) (e : BeadError) : State :=
  let s2 := errCount s l e
  let x := getLink s2 l
  let n := x.rxCount + 1
  let s3 := setLink s2 l { x with rxCount := n, consec := x.consec + 1, errAt := (n :: x.errAt).take 64 }
  if tooMany x n then linkDownEff s3 l 1
  else
    let s4 := errNak s3 l
    if 16 ≤ x.consec + 1 then lockLostEff s4 l else s4

/-- BEAD_IN_ERROR (R153, R155, R165): RS decoding, the CRC or the class finds the bead wrong. -/
def execBeadInError (l : LinkId) (b : WireBead) (s : State) : Out :=
  .next (match rxDecode b with
    | .bad e => if rxLive s l then beadError s l e else s
    | .ok _ _ _ => s)

/-- NAK (R156). -/
def execNak (l : LinkId) (x : BitVec 12) (s : State) : Out :=
  if !rxLive s l then .next s
  else
    let s1 := bump s (rLNK_RPL0 l) fLNK_RPL0_NAK_RECV
    let q := unwrap (getLink s l).txAck x.toNat 4096
    .next (if q < (getLink s l).txSeq then nakEff s1 l q else s1)

/-- IMPLICIT_NAK (R157): the oldest unacknowledged sequence, 2 x HOP + 12 ticks after it departed, not NAKed before. -/
def execImplicitNak (l : LinkId) (s : State) : Out :=
  let x := getLink s l
  match x.ring.find? (·.seq = x.txAck) with
  | some b =>
    if !rxLive s l || x.nakIn.contains x.txAck || decide (s.now < b.at_ + 2 * rd s (rLNK_HOP l) fLNK_HOP_HOP + 12) then .next s
    else .next (nakEff (bump s (rLNK_RPL1 l) fLNK_RPL1_IMPLICIT) l x.txAck)
  | none => .next s

/-- The end of the second flux slot that begins at least 4 ticks after a request (R133, R134). -/
def fluxDeadline (n req : Nat) : Nat :=
  let first := (req + 4 + 3) / 4
  let k := first + (n - 1 + n - first % n) % n
  4 * (k + n) + 4

/-- FLUX_BUDGET_EXHAUSTED (R134): a replay has not departed by its second flux slot. -/
def execFluxBudgetExhausted (l : LinkId) (s : State) : Out :=
  let late := (getLink s l).rplq.any fun r => decide (fluxDeadline (fluxN s l) r.req ≤ s.now)
  .next (if late then fluxOut s l else s)

/-! ### Open-class beads and credits (R161) -/

/-- OPEN_BEAD (R161, R164, R177): an OPEN or MGMT bead, fill beads with data among them. -/
def execOpenBead (l : LinkId) (h : BitVec 64) (pay : BitVec 2560) (err : BitVec 2816) (s : State) : Out :=
  match rxDecode { h := h, pay := pay, err := err } with
  | .bad _ => .next s
  | .ok h pay fixed =>
    if !rxLive s l || !(hClass h = 2 || hClass h = 3) then .next s
    else
      match rxBead s l h fixed with
      | (some q, s1) =>
        let b : OpenB := { seq := q, mgmt := hClass h = 3, fil := hFil h, at_ := s.now, pay := pay }
        .next (releaseHeld (modLink s1 l fun x => { x with held := insertOpen b x.held }) l)
      | (none, s1) => .next s1

/-- CREDIT (R161, R162). -/
def execCredit (l : LinkId) (cum : BitVec 16) (s : State) : Out :=
  if !rxLive s l then .next s else .next (credNote (modLink s l fun x => { x with credBack := cum.toNat }) l)

/-- CREDIT_RETURN (R161): at 16 pending returns, or 256 ticks after the first. -/
def execCreditReturn (l : LinkId) (s : State) : Out :=
  let x := getLink s l
  if lnkUp s l && x.retPend ≠ 0 && (decide (16 ≤ x.retPend) || decide (x.retFirst + 256 ≤ s.now)) then
    .next (ctrlPush (setLink s l { x with retPend := 0 }) l (2 ^ 56 + x.retCum))
  else .next s

/-- The control words of a CTRL bead, up to the word of type 0 that ends the list (R162). -/
def ctrlWords (pay : BitVec 2560) : List W64 :=
  ((List.range 40).map fun i => BitVec.ofNat 64 (payLane pay 64 i)).takeWhile fun w => bits w 63 56 ≠ 0

/-- The words of reserved type among them (R162). -/
def rsvWords (pay : BitVec 2560) : Nat := ((ctrlWords pay).filter fun w => decide (8 < bits w 63 56)).length

/-- EMPTY_BEAD_ARRIVAL (R154): an EMPTY or CTRL bead. The words of a CTRL bead come as commands of their own, but for those of a
reserved type, which are ignored and counted (R162). -/
def execEmptyBeadArrival (l : LinkId) (h : BitVec 64) (r : BeadBody) (s : State) : Out :=
  match rxDecode { r with h := h } with
  | .bad _ => .next s
  | .ok h pay fixed =>
    if !rxLive s l || !(hClass h = 0 || hClass h = 6) then .next s
    else
      let r := rxBead s l h fixed
      let s1 := rxDone r l
      .next (if hClass h = 6 && r.1.isSome then bumpBy s1 (rLNK_EVENTS l) fLNK_EVENTS_RSV_WORD (rsvWords pay) else s1)

/-! ### Control words (R148, R156, R162 to R164) -/

/-- PEER_RESET (R163, R285): the kind and the count, and the PEER field of the link's open LINK 0x001 records. -/
def execPeerReset (l : LinkId) (kind : BitVec 8) (s : State) : Out :=
  if !rxLive s l then .next s
  else
    let s1 := wr (wr s (rLNK_PEER l) fLNK_PEER_KIND kind.toNat) (rLNK_PEER l) fLNK_PEER_COUNT s.now
    let mine := s.recOpen.filter fun r => r.2.1 = l.val && decide (s.now < r.2.2 + 1200)
    .next (mine.foldl (fun s r => wr s (rGAF_FLOG r.1 0) ⟨23, 16⟩ kind.toNat) s1)

/-- FENCE_WORD (R164): the neighbour's end is fenced or not. -/
def execFenceWord (l : LinkId) (on : Bool) (_tag : BitVec 12) (s : State) : Out :=
  if !rxLive s l then .next s else .next (wr s (rLNK_STATUS l) fLNK_STATUS_FENCED (if on then 1 else 0))

/-- SKIP (R156): the sequence counts as accepted and empty; the packet it belonged to falls to the framing rule (R177). -/
def execSkip (l : LinkId) (x : BitVec 12) (s : State) : Out :=
  if !rxLive s l then .next s
  else
    let s1 := bump s (rLNK_RPL2 l) fLNK_RPL2_SKIP_RECV
    let y := getLink s1 l
    let q := unwrap y.rxNext x.toNat 4096
    .next (if y.has q then s1 else releaseHeld (setLink s1 l (y.accept q)) l)

/-- MEASURE (R148): a probe is answered; a reply gives one round trip. -/
def execMeasure (l : LinkId) (probe : BitVec 8) (reply : Bool) (turnaround : BitVec 32) (s : State) : Out :=
  if !rxLive s l then .next s
  else if !reply then .next (ctrlPush s l (8 * 2 ^ 56 + probe.toNat * 2 ^ 48 + 2 ^ 47 + s.now % 2 ^ 32))
  else
    let x := getLink s l
    match x.probes.find? (·.1 = probe.toNat) with
    | some (k, t) =>
      .next (setLink s l { x with probes := x.probes.filter (·.1 ≠ k), rtts := (s.now - t - turnaround.toNat) :: x.rtts })
    | none => .next s

/-! ### Discovery (R168, R169) -/

/-- The largest of the round trips measured (R148). -/
def ownRtt (x : Link) : Nat := x.rtts.foldl max 0

/-- RTT and HOP of a link (R148). -/
def setRtt (s : State) (l r : Nat) : State := wr (wr s (rLNK_HOP l) fLNK_HOP_RTT r) (rLNK_HOP l) fLNK_HOP_HOP ((r + 1) / 2)

/-- The payload of a HELLO bead (R168). -/
def helloPayload (s : State) (l : Nat) : BitVec 2560 :=
  let at_ (n v : Nat) : Nat := v * 2 ^ (8 * n)
  BitVec.ofNat 2560
    (at_ 0 (ownGid s + 2 ^ 31 * rd s rGAF_LOCATION fGAF_LOCATION_GID_VALID) + at_ 4 l + at_ 5 (s.protoMajor % 256) +
     at_ 6 (s.protoMinor % 256) + at_ 8 (regGet s rGAF_SERIAL_HASH).toNat + at_ 16 (rd s rGAF_LOCATION fGAF_LOCATION_RACK) +
     at_ 18 (rd s rGAF_LOCATION fGAF_LOCATION_POS) + at_ 20 (ownRtt (getLink s l) % 2 ^ 16))

/-- HELLO_SEND (R168): on entering HELLO, and every 1,200,000 ticks while UP. -/
def execHelloSend (l : LinkId) (s : State) : Out :=
  let x := getLink s l
  let due := (lnkState s l = 5 && decide (x.helloAt ≤ x.stateAt)) || (lnkState s l = 6 && decide (x.helloAt + 1200000 ≤ s.now + 1))
  .next (if due then setLink s l { x with helloAt := s.now + 1, special := x.special ++ [(5, helloPayload s l)] } else s)

/-- Training starts: DETECT, with the active lane map, which must be a permutation, and reseeded scramblers (R143, R144, R146, R171). -/
def startTraining (s : State) (l width : Nat) (full : Bool) : State :=
  let m := BitVec.ofNat 16 (rd s (rLNK_LANE_MAP l) fLNK_LANE_MAP_MAP)
  let (v, s0) := draw s
  let s1 := modLink (setLnkState s0 l 1) l fun x =>
    { x with attempts := 0, laneFails := [], lanesOk := 15, fullEq := full, reqWidth := width, laneMap := m, lockLost := none
             lanes := laneSeeds v, line := [], preRx := 0 }
  let s2 := wr s1 (rLNK_STATUS l) fLNK_STATUS_LOCK 0
  if ((List.range 4).map (physLane m)).eraseDups.length = 4 then s2 else linkDownEff s2 l 4

/-- Training that no request asked for: the link does not widen (R147). -/
def retryTraining (s : State) (l : Nat) : State := startTraining s l (rd s (rLNK_STATUS l) fLNK_STATUS_WIDTH) true

/-- The neighbour table and what follows from a Hello (R148, R169). -/
def helloEff (s : State) (l : Nat) (p : BitVec 2560) : State :=
  let f (n k : Nat) : Nat := payLane (p >>> (8 * n)) (8 * k) 0
  let hash := f 8 8
  let nbr := (regGet s (rLNK_NBR1 l)).toNat
  if rd s (rLNK_NBR0 l) fLNK_NBR0_VALID = 1 && decide (nbr ≠ hash) then retryTraining (linkDownEff s l 3) l
  else
    let w := fset fLNK_NBR0_VALID (fset fLNK_NBR0_GID (fset fLNK_NBR0_LINK (fset fLNK_NBR0_POS (fset fLNK_NBR0_RACK
      (fset fLNK_NBR0_VER_MAJOR (fset fLNK_NBR0_VER_MINOR 0 (f 6 1)) (f 5 1)) (f 16 2)) (f 18 1)) (f 4 1)) (f 0 4)) 1
    let s1 := regSet (regSet s (rLNK_NBR0 l) w) (rLNK_NBR1 l) (BitVec.ofNat 64 hash)
    let s2 := wr s1 (rFWD_EXP l) fFWD_EXP_XRACK (if f 16 2 = rd s rGAF_LOCATION fGAF_LOCATION_RACK then 0 else 1)
    let maj := f 5 1
    let s3 := wr s2 (rLNK_STATUS l) fLNK_STATUS_INCOMPAT (if maj ≤ s.protoMajor + 1 ∧ s.protoMajor ≤ maj + 1 then 0 else 1)
    if (getLink s l).rtts = [] then s3 else setRtt s3 l (max (ownRtt (getLink s l)) (f 20 2))

/-- HELLO (R169). -/
def execHello (l : LinkId) (h : BitVec 64) (r : BeadBody) (s : State) : Out :=
  match rxDecode { r with h := h } with
  | .bad _ => .next s
  | .ok h p fixed =>
    if !rxLive s l || hClass h ≠ 5 then .next s
    else match rxBead s l h fixed with
      | (some _, s1) => .next (helloEff (releaseHeld s1 l) l p)
      | (none, s1) => .next s1

/-! ### Lock (R165) -/

/-- LOSS_OF_LOCK (R165): a lane's clock recovery is unlocked. -/
def execLossOfLock (l : LinkId) (s : State) : Out := if !rxLive s l then .next s else .next (lockLostEff s l)

/-- LOCK_REGAINED (R165): a loss shorter than 1,200 ticks leaves the link UP. -/
def execLockRegained (l : LinkId) (s : State) : Out :=
  if !rxLive s l then .next s
  else .next (modLink (wr s (rLNK_STATUS l) fLNK_STATUS_LOCK 1) l fun x => { x with lockLost := none, consec := 0 })

/-- LOCK_LOSS (R165): lock lost for 1,200 ticks without a break takes the link DOWN. -/
def execLockLoss (l : LinkId) (s : State) : Out :=
  match (getLink s l).lockLost with
  | some t => if rxLive s l && decide (t + 1200 ≤ s.now) then .next (linkDownEff s l 2) else .next s
  | none => .next s

/-- LINK_DOWN (R166): the link is declared DOWN with one of the causes of R165 and R147. -/
def execLinkDown (l : LinkId) (cause : BitVec 4) (s : State) : Out :=
  if 1 ≤ cause.toNat && cause.toNat ≤ 5 then .next (linkDownEff s l cause.toNat) else .next s

/-! ### Retrain requests and training (R145 to R151, R167) -/

/-- A plan of this end holds positions on the link (R150). -/
def linkHeld (s : State) (l : Nat) : Bool := planCtxs s l ≠ []

def isMaster (s : State) (l : Nat) : Bool := rd s (rLNK_STATUS l) fLNK_STATUS_MASTER = 1

/-- LINK 0x008 against every context whose plan holds positions on the link (R150). -/
def forcedFault (s : State) (l : Nat) : State :=
  (planCtxs s l).foldl (fun s c => fwdRaise s c (faultInfo 0x4008 9 l 0)) s

/-- A retrain granted at this end: the link drains (R149, R151). -/
def drainFor (s : State) (l : Nat) (g : RtGrant) : State :=
  let s1 := if g.forced then forcedFault s l else s
  let s2 := if lnkState s l = 6 then bump (setLnkState s1 l 7) (rLNK_EVENTS l) fLNK_EVENTS_RETRAINS else s1
  modLink s2 l fun x => { x with grant := some g }

def goWord (g : RtGrant) : Nat :=
  3 * 2 ^ 56 + g.absorbed % 256 * 2 ^ 48 + g.width % 4 * 2 ^ 46 + (if g.forced then 2 ^ 45 else 0) + g.start / 256 % 2 ^ 45

/-- The master grants a request: RT_GO, whose start tick is set as it departs (R149). -/
def grantReq (s : State) (l absorbed width : Nat) (eq forced : Bool) : State :=
  let g : RtGrant := { absorbed := absorbed, eq := eq, width := width, forced := forced, start := 0 }
  drainFor (ctrlPush s l (goWord g)) l g

/-- LINK_CTL commands that wait for a retrain of the link end with a status and LNK_STATUS (R319, R326). -/
def retrainReply (s : State) (l status : Nat) : State :=
  finishAll s (fun h => pcode h.pkt = 0x70 && pf h.pkt 0 11 8 = 1 && pf h.pkt 0 4 0 = l) fun s h =>
    if status = stDone then
      let (v, s1) := withRsv s (rLNK_STATUS l) (regGet s (rLNK_STATUS l))
      done s1 h v.toNat
    else refuse s h status

/-- The status of a refusal (R150, R162). -/
def refuseStatus (reason : Nat) : Nat := if reason = 1 then 0x30 else 0x31

/-- How a request ends at its own end. -/
inductive ReqRes where
  | ok | plan | notUp | busy
  deriving DecidableEq, Repr

def reqWord (r : RtReq) : Nat :=
  2 * 2 ^ 56 + r.id * 2 ^ 16 + (if r.eq then 8 else 0) + r.width * 2 + (if r.forced then 1 else 0)

/-- A request at this end (R149, R150): granted by a master, sent by a slave, or refused. -/
def retrainReq (s : State) (l : Nat) (eq : Bool) (width : Nat) (forced : Bool) : ReqRes × State :=
  let x := getLink s l
  if lnkState s l ≠ 6 then (.notUp, s)
  else if 3 ≤ width || x.ownReq.isSome then (.busy, s)
  else if linkHeld s l && !forced then (.plan, s)
  else if isMaster s l then (.ok, grantReq s l 0 width eq forced)
  else
    let r : RtReq := { id := x.nextId, eq := eq, width := width, forced := forced }
    let s1 := wr s (rLNK_STATUS l) fLNK_STATUS_PEND_REQ r.id
    (.ok, ctrlPush (setLink s1 l { x with ownReq := some r, nextId := if x.nextId = 255 then 1 else x.nextId + 1 }) l (reqWord r))

/-- MARGIN_RETRAIN_REQUEST (R149): the Gaffer's margin policy asks. -/
def execMarginRetrainRequest (l : LinkId) (equalise : Bool) (width : BitVec 2) (forced : Bool) (s : State) : Out :=
  .next (retrainReq s l equalise width.toNat forced).2

/-- RT_REQ (R149, R150): the master refuses, grants, or absorbs it into a grant already made. -/
def execRtReq (l : LinkId) (id : BitVec 8) (equalise : Bool) (width : BitVec 2) (forced : Bool) (s : State) : Out :=
  let refuse (n : Nat) : Out := .next (ctrlPush s l (4 * 2 ^ 56 + id.toNat * 2 ^ 16 + n))
  if !rxLive s l || !isMaster s l || id = 0 then .next s
  else if lnkState s l = 6 then
    if linkHeld s l && !forced then refuse 1 else .next (grantReq s l id.toNat width.toNat equalise forced)
  else if lnkState s l = 7 then
    match (getLink s l).grant with
    | some g =>
      if g.start ≠ 0 && decide (g.start ≤ s.now + rd s (rLNK_HOP l) fLNK_HOP_HOP + 8) then .next s
      else
        let g' : RtGrant := { g with absorbed := id.toNat, eq := g.eq || equalise, width := max g.width width.toNat, forced := g.forced || forced }
        .next (drainFor (ctrlPush s l (goWord g')) l g')
    | none => .next s
  else refuse 2

/-- RT_GO (R149, R150): the slave drains toward S; an unforced grant is refused where a plan holds the link, and a request of the
slave's own that it names ends refused. The word does not say whether the master's request asks for equalisation: the training
frames of DETECT do (log 121). -/
def execRtGo (l : LinkId) (absorbed : BitVec 8) (width : BitVec 2) (forced : Bool) (start : BitVec 45) (s : State) : Out :=
  let st := unwrap s.now (256 * start.toNat) (2 ^ 53)
  let x := getLink s l
  if !lnkUp s l || isMaster s l || decide (st ≤ s.now) then .next s
  else
    let mine : Bool := match x.ownReq with | some r => r.id = absorbed.toNat | none => false
    let eq : Bool := match x.ownReq with | some r => mine && r.eq | none => false
    let s1 := if mine then wr (setLink s l { x with ownReq := none }) (rLNK_STATUS l) fLNK_STATUS_PEND_REQ 0 else s
    if linkHeld s l && !forced then
      let s2 := ctrlPush s1 l (4 * 2 ^ 56 + absorbed.toNat * 2 ^ 16 + 1)
      .next (if mine then retrainReply s2 l (refuseStatus 1) else s2)
    else .next (drainFor s1 l { absorbed := absorbed.toNat, eq := eq, width := width.toNat, forced := forced, start := st })

/-- RT_REFUSE (R150): the slave's request is refused; a master's unforced grant that the slave's plan refuses is withdrawn. -/
def execRtRefuse (l : LinkId) (id : BitVec 8) (reason : BitVec 8) (s : State) : Out :=
  let x := getLink s l
  if !rxLive s l then .next s
  else match x.ownReq with
    | some r =>
      if r.id = id.toNat then
        .next (retrainReply (wr (setLink s l { x with ownReq := none }) (rLNK_STATUS l) fLNK_STATUS_PEND_REQ 0) l (refuseStatus reason.toNat))
      else .next s
    | none =>
      match x.grant with
      | some g =>
        if isMaster s l && lnkState s l = 7 && !g.forced then
          .next (retrainReply (setLnkState (setLink s l { x with grant := none }) l 6) l (refuseStatus reason.toNat))
        else .next s
      | none => .next s

/-- RETRAIN_START (R151): at S both ends stop sending and train; what is unacknowledged is discarded. -/
def execRetrainStart (l : LinkId) (s : State) : Out :=
  let x := getLink s l
  match x.grant with
  | some g =>
    if lnkState s l = 7 && g.start ≠ 0 && decide (g.start ≤ s.now) then
      let lost := (x.ring.filter fun b => decide (x.txAck ≤ b.seq)).length
      let s1 := bumpBy s (rLNK_DROP l) fLNK_DROP_DOWN_BEADS lost
      let y := { Link.zero with
        held := x.held, obuf := x.obuf, fexp := x.fexp, fdrop := x.fdrop, route := x.route, txq := x.txq, retCum := 0
        coeff := x.coeff, laneMap := x.laneMap, ownReq := x.ownReq, nextId := x.nextId, lastLclk := x.lastLclk, lehr := x.lehr }
      .next (startTraining (wr (setLink s1 l y) (rLNK_NBR0 l) fLNK_NBR0_VALID 0) l g.width (g.eq || x.coeff.isNone))
    else .next s
  | none => .next s

/-- AUTO_RETRY (R167): a DOWN link tries again every second. -/
def execAutoRetry (l : LinkId) (s : State) : Out :=
  let x := getLink s l
  if lnkState s l = 8 && rd s (rLNK_CTL l) fLNK_CTL_AUTO_RETRY = 1 && rd s (rLNK_CTL l) fLNK_CTL_ENABLE = 1 &&
      decide (x.retryAt + 1200000000 ≤ s.now) then
    .next (retryTraining (setLink s l { x with retryAt := s.now }) l)
  else .next s

/-- The widest width that n passing lanes allow, within the requested one (R144, R147). -/
def widthOf (ok : BitVec 4) (req : Nat) : Nat :=
  let n := ((List.range 4).filter fun i => ok.getLsbD i).length
  max req (if n = 4 then 0 else if 2 ≤ n then 1 else 2)

/-- The link comes UP (R161, R167): 256 credits, LSEQ at 0, an empty map; a request still pending is sent again (R149). -/
def linkUpEff (s : State) (l : Nat) : State :=
  let s1 := modLink (setLnkState s l 6) l fun x =>
    { x with txSeq := 0, txAck := 0, ring := [], rplq := [], rxNext := 0, rxCum := 0, rxAcc := [], rxErr := [], naks := [], nakOut := []
             unsure := false, credOut := 0, credBack := 0, retCum := 0, retPend := 0, attempts := 0, laneFails := [], errAt := [], rxCount := 0
             consec := 0, grant := none, nakIn := [], lockSince := s.now }
  let s2 := credNote s1 l
  match (getLink s2 l).ownReq with
  | some r => ctrlPush s2 l (reqWord r)
  | none => retrainReply s2 l stDone

/-- This end is master toward a neighbour (R145). -/
def masterOver (s : State) (gid : Nat) (hash : W64) : Bool :=
  decide (ownGid s < gid) || (ownGid s = gid && decide ((regGet s rGAF_SERIAL_HASH).toNat < hash.toNat))

/-- A lane that has failed EQUALISE or ALIGN three times is marked failed (R147): what `lanes` leaves out of those still in training
has failed once more. The lanes that stay, and the link with their counts. -/
def failLanes (x : Link) (lanes : BitVec 4) : Link :=
  let fails := (List.range 4).foldl (fun t i =>
    if x.lanesOk.getLsbD i && !lanes.getLsbD i then tset (fun _ => 0) t i (tget (fun _ => 0) t i + 1) else t) x.laneFails
  let ok := (List.range 4).foldl (fun (b : BitVec 4) i => if 3 ≤ tget (fun _ => 0) fails i then b &&& ~~~ BitVec.ofNat 4 (2 ^ i) else b) x.lanesOk
  { x with laneFails := fails, lanesOk := ok }

/-- The lanes marked are shown in LANE_OK; with none left the link goes DOWN with cause 4, else `k` goes on (R147). -/
def withLanes (s : State) (l : Nat) (y : Link) (k : State → State) : State :=
  let s1 := wr (setLink s l y) (rLNK_STATUS l) fLNK_STATUS_LANE_OK y.lanesOk.toNat
  if y.lanesOk = 0 then linkDownEff s1 l 4 else k s1

/-- An attempt at training failed (R146, R147): the lanes of y stay; after three attempts that left out no lane the link narrows one
step (log 121). Training restarts from DETECT. -/
def attemptFailed (s : State) (l : Nat) (y : Link) : State :=
  let x := getLink s l
  let n := x.attempts + 1
  let w := if 3 ≤ n && y.lanesOk = x.lanesOk then widthOf y.lanesOk x.reqWidth + 1 else x.reqWidth
  withLanes s l { y with attempts := if 3 ≤ n then 0 else n, reqWidth := w } fun s =>
    if 3 ≤ w then linkDownEff s l 4 else setLnkState s l 1

/-- The precoders that EQUALISE chose (R143, R146). -/
def setPrecode (x : Link) (r : TrainResult) : Link :=
  { x with lanes := x.lanes.zipIdx.map fun e => { e.1 with pre := r.preTx.getLsbD e.2 }, preRx := r.preRx }

/-- TRAINING_STATE_COMPLETE (R146 to R148): the present training state ends, and the next begins. DETECT leads past EQUALISE only
where neither end asks for it. EQUALISE or ALIGN that ends with a lane not passed, and not yet marked failed, is an attempt that
failed: training restarts from DETECT (log 121). -/
def execTrainingStateComplete (l : LinkId) (r : TrainResult) (s : State) : Out :=
  let x := getLink s l
  let y := failLanes x r.lanes
  let again := decide (y.lanesOk &&& ~~~ r.lanes ≠ 0)
  let st := lnkState s l
  if st = 1 then
    let s1 := wr s (rLNK_STATUS l) fLNK_STATUS_MASTER (if masterOver s r.gid.toNat r.hash then 1 else 0)
    let known : Bool := match x.coeff with | some (_, h) => h = r.hash | none => false
    .next (setLnkState s1 l (if x.fullEq || r.equalise || !known then 2 else 3))
  else if (st = 2 || st = 3) && again then .next (attemptFailed s l y)
  else if st = 2 then .next (withLanes s l (setPrecode { y with coeff := some (r.coeff, r.hash) } r) fun s => setLnkState s l 3)
  else if st = 3 then
    let probes := (List.range 16).map fun i => BitVec.ofNat 64 (8 * 2 ^ 56 + i * 2 ^ 48)
    .next (withLanes s l y fun s =>
      let s1 := wr (wr s (rLNK_STATUS l) fLNK_STATUS_WIDTH (widthOf y.lanesOk y.reqWidth)) (rLNK_STATUS l) fLNK_STATUS_LOCK 1
      setLnkState (setLink s1 l { y with ctrlq := probes, rtts := [], probes := [] }) l 4)
  else if st = 4 then .next (setLnkState (setRtt s l (ownRtt x)) l 5)
  else if st = 5 then .next (linkUpEff s l)
  else .next s

/-- The limit of a training state in ticks (R146). -/
def trainLimit (st : Nat) : Nat :=
  if st = 1 then 12000000 else if st = 2 then 480000000 else if st = 3 then 2400000 else 1200000

/-- TRAINING_STATE_LIMIT (R146, R147): the state has passed its limit, with the lanes given passed so far. -/
def execTrainingStateLimit (l : LinkId) (lanes : BitVec 4) (s : State) : Out :=
  let x := getLink s l
  let st := lnkState s l
  if st = 0 || 5 < st || decide (s.now < x.stateAt + trainLimit st) then .next s
  else .next (attemptFailed s l (if st = 2 || st = 3 then failLanes x lanes else x))

end Machine
end Sys2Proof
end

