-- ==== Sys2Proof/Machine/Time.lean ====
section
/-! DEFINITION. Global Count, the time tree and its servo, time of day, and the LCLK edge on which the module's own clocks
advance (chapter 9, 08 R195 to R206). -/
namespace Sys2Proof
namespace Machine

/-! ### Rates and time of day (R214, R219, R225) -/

/-- A rate inside the range of R214. -/
def clampRate (r : Nat) : Nat := max 0xFFF00000 (min r 0x100000000)
/-- A time-of-day increment inside the range of R225. -/
def clampInc (i : Nat) : Nat := max 0xC0000000 (min i 0xF0000000)

def timState (s : State) : Nat := rd s rTIM_STATUS fTIM_STATUS_STATE
def setTimState (s : State) (n : Nat) : State :=
  if rd s rTIM_STATUS fTIM_STATUS_STATE = n then s else hostEvent (wr s rTIM_STATUS fTIM_STATUS_STATE n) 4 n

/-- Time of day in units of 2^-32 ns (R225). -/
def todTotal (s : State) : Int :=
  (((regGet s rTIM_TOD_SEC).toNat * 10 ^ 9 + rd s rTIM_TOD_NS fTIM_TOD_NS_NS) * 2 ^ 32 + rd s rTIM_TOD_NS fTIM_TOD_NS_FRAC : Nat)

def todInc (s : State) : Nat := (regGet s rTIM_TOD_INC).toNat

/-- Seconds, nanoseconds and fraction of a time of day. -/
def todSplit (t : Int) : Nat × Nat × Nat :=
  let n := t.toNat
  (n / 2 ^ 32 / 10 ^ 9, n / 2 ^ 32 % 10 ^ 9, n % 2 ^ 32)

def setTod (s : State) (t : Int) : State :=
  let (sec, ns, fr) := todSplit t
  wr (wr (regSet s rTIM_TOD_SEC (BitVec.ofNat 64 sec)) rTIM_TOD_NS fTIM_TOD_NS_NS ns) rTIM_TOD_NS fTIM_TOD_NS_FRAC fr

/-- Time of day as of count n (R226). -/
def todAt (s : State) (n : Nat) : Int := todTotal s + ((n : Int) - s.now) * todInc s

/-- {COUNT, FRAC} (R214). -/
def countFrac (s : State) : Nat := s.now * 2 ^ 32 + s.tim.frac
def setCountFrac (s : State) (n : Nat) : State := { s with now := n / 2 ^ 32, tim := { s.tim with frac := n % 2 ^ 32 } }

/-- A parison or a running plan of any context. -/
def planHeld (s : State) : Bool := allCtx.any fun c => holdsPlan (getCtx s c)

/-- A TIME fault against every context that holds a parison or a running plan (R232). -/
def timeFault (s : State) (n : Nat) : State :=
  raiseAll s (allCtx.filter fun c => holdsPlan (getCtx s c))
    { code := BitVec.ofNat 16 (0x6000 + n), engine := 12, unit := upstream s, offset := 0, d0 := timState s, d1 := 0, d2 := 0 }

/-! ### The epoch pulse (R218) -/

/-- The root edge of the present, modulo the 768 of the LCLK pattern: four to an LCLK period (R195, R218). -/
def rootEdge (s : State) (sub : Nat) : Nat := (4 * s.lclk + sub) % 768

/-- EPOCH_PULSE (R218): the first starts the pattern; a later one is captured and its phase checked against the pattern, which is
realigned to it only while no parison and no running plan is held. -/
def execEpochPulse (sub : BitVec 2) (s : State) : Out :=
  let r := rootEdge s sub.toNat
  let s1 := { s with tim := { s.tim with pulseAt := s.lclk, misses := 0 } }
  match s.tim.pat0 with
  | none => .next { s1 with tim := { s1.tim with pat0 := some r } }
  | some p =>
    let s2 := regSet s1 rTIM_EPOCH_CAP (BitVec.ofNat 64 s.now)
    if p = r then .next s2
    else
      let s3 := if planHeld s then s2 else { s2 with tim := { s2.tim with pat0 := some r } }
      .next (timeFault (bump s3 rTIM_EPOCH_ERR fTIM_EPOCH_ERR_OFF_PHASE) 3)

/-- EPOCH_PULSE_MISSING (R218): no pulse for two periods of 40 us, 48,000 LCLK edges each. -/
def execEpochPulseMissing (s : State) : Out :=
  if s.lclk < s.tim.pulseAt + 48000 * (s.tim.misses + 2) then .next s
  else
    let s1 := bump { s with tim := { s.tim with misses := s.tim.misses + 1 } } rTIM_EPOCH_ERR fTIM_EPOCH_ERR_MISSED
    .next (timeFault s1 3)

/-! ### Sync exchanges (R219 to R222, R224, R226) -/

/-- Four stamps of an exchange in units of 2^-32 ticks: twice theta and twice delta (R221). -/
def exchange (t1 t2 t3 t4 : Int) : Int × Int := ((t2 - t1) - (t4 - t3), (t2 - t1) + (t4 - t3))

def byteField (p : BitVec 2560) (n k : Nat) : Nat := payLane (p >>> (8 * n)) (8 * k) 0

/-- The exchange counts (R221): original, time-valid, of no lower epoch, and with a plausible delay. -/
def syncValid (s : State) (l : Nat) (h : W64) (p : BitVec 2560) (d2 : Int) : Bool :=
  let hop : Int := rd s (rLNK_HOP l) fLNK_HOP_HOP
  !(hRpl h) && (byteField p 36 1).testBit 1 && decide (rd s rTIM_STATUS fTIM_STATUS_MASTER_EPOCH ≤ byteField p 68 4) &&
    decide (2 * (hop - 2) * 2 ^ 32 ≤ d2) && decide (d2 ≤ 2 * (hop + 1) * 2 ^ 32)

/-- A time-valid original SYNC bead of any link with a higher master epoch: its master is adopted (R224). -/
def adoptMaster (s : State) (h : W64) (p : BitVec 2560) : State :=
  let e := byteField p 68 4
  let s0 := { s with tim := { s.tim with epochMax := max s.tim.epochMax e } }
  if hRpl h || !(byteField p 36 1).testBit 1 || decide (e ≤ rd s rTIM_STATUS fTIM_STATUS_MASTER_EPOCH) then s0
  else wr (wr s0 rTIM_STATUS fTIM_STATUS_MASTER_EPOCH e) rTIM_STATUS fTIM_STATUS_MASTER_GID (byteField p 64 4)

/-- What an upstream exchange tells of the master: identity, epoch, sync count and depth (R220, R224). -/
def adoptUp (s : State) (p : BitVec 2560) : State :=
  let dep := byteField p 37 1
  let mine := if dep = 255 then 31 else if timRole s = 2 then dep + 1 else dep
  let sq := byteField p 72 4
  let s1 := wr (wr (wr s rTIM_STATUS fTIM_STATUS_MASTER_EPOCH (byteField p 68 4)) rTIM_STATUS fTIM_STATUS_MASTER_GID (byteField p 64 4))
    rTIM_STATUS fTIM_STATUS_DEPTH (min mine 31)
  { s1 with tim := { s1.tim with masterSeq := sq, seqAt := if sq = s1.tim.masterSeq then s1.tim.seqAt else s.now } }

/-- {COUNT, FRAC} loaded to remove an offset: a jump (R222). Means taken before it no longer tell of the frequency. -/
def jumpTo (s : State) (n : Nat) : State :=
  let s1 := setCountFrac s n
  bump { s1 with tim := { s1.tim with thetas := [], lastMean := none } } rTIM_SYNC_ERR fTIM_SYNC_ERR_JUMPS

/-- Edges an accumulator takes at rate r from u to reach v. -/
def edgesTo (u v r : Nat) : Nat := (v - u + r - 1) / r

/-- An accumulator m LCLK periods after it read u: at its rate, and from RATE_AT on at the next (R219). -/
def accAfter (u m rate next at_ : Nat) : Nat :=
  let k := edgesTo u (at_ * 2 ^ 32) rate
  if u < at_ * 2 ^ 32 && decide (k < m) then u + k * rate + (m - k) * next else u + m * rate

/-- The upstream's accumulator and rate on the present LCLK edge: whole LCLK periods after the SYNC bead departed, as many as bring it
nearest to the own count less theta (R219). -/
def upNow (s : State) (p : BitVec 2560) (th2 : Int) : Nat × Nat :=
  let u : Nat := byteField p 0 8 * 2 ^ 32 + byteField p 8 4
  let rate := clampRate (byteField p 40 8)
  let next := clampRate (byteField p 48 8)
  let d : Int := (countFrac s : Int) - Int.fdiv th2 2 - (u : Int)
  let m := (Int.fdiv (2 * d + rate) (2 * rate)).toNat
  let v := accAfter u m rate next (byteField p 56 8)
  (v, if byteField p 56 8 ≤ v / 2 ^ 32 then next else rate)

/-- A MEMBER takes its upstream's accumulator and rate (R219); a load that moves the count by more than a tick is a jump (R222). -/
def joinUp (s : State) (p : BitVec 2560) (th2 : Int) : State :=
  let (v, r) := upNow s p th2
  let s1 := if 2 * 2 ^ 32 < (th2.natAbs : Int) then jumpTo s v else setCountFrac s v
  { wr s1 rTIM_RATE fTIM_RATE_RATE r with tim := { s1.tim with joined := true } }

/-- What an offset does to a LEAD in ACQUIRE or LOCKED (R222, R232): a jump over 1 tick where no plan forbids it, or the count of
offsets beyond the limit. -/
def useOffset (s : State) (th2 : Int) : State :=
  let lim : Int := rd s rTIM_LIMIT fTIM_LIMIT_OFF_LIMIT
  let mag : Int := th2.natAbs
  if timState s = 1 && !planHeld s && timRole s = 2 && decide (2 * 2 ^ 32 < mag) then jumpTo s ((countFrac s : Int) - Int.fdiv th2 2).toNat
  else
    let wide := timState s = 2 && decide (lim * 2 ^ 27 < mag)
    let n := if wide then s.tim.badOff + 1 else 0
    let s1 := { s with tim := { s.tim with badOff := if n = 4 then 0 else n } }
    if n = 4 then timeFault s1 2 else s1

/-- What an exchange does to a MEMBER (R219): it joins at its first where no plan forbids it; an offset over 1/4 tick makes it load
again, or raises TIME 0x003 where a plan is held. -/
def memberUp (s : State) (p : BitVec 2560) (th2 : Int) : State :=
  let far := decide (2 ^ 31 < (th2.natAbs : Int))
  if planHeld s then (if far then timeFault s 3 else s)
  else if far || !s.tim.joined then joinUp s p th2
  else s

/-- A non-master's time of day follows its upstream's: time and increment are reloaded at the next bead boundary (R226). -/
def followTod (s : State) (p : BitVec 2560) : State :=
  let tx := byteField p 0 8
  let up : Int := ((byteField p 80 8 * 10 ^ 9 + byteField p 88 4) * 2 ^ 32 + byteField p 92 4 : Nat)
  let inc := clampInc (byteField p 96 8)
  if todAt s tx = up && inc = todInc s then s
  else
    let (a, b, c) := todSplit (up + ((s.now : Int) - tx) * inc)
    bump { s with tim := { s.tim with todSet := some (BitVec.ofNat 64 a, BitVec.ofNat 32 b, BitVec.ofNat 32 c), todLoad := true, incSet := some inc } }
      rTIM_SYNC_ERR fTIM_SYNC_ERR_TOD_LOADS

/-- A valid exchange on the UPSTREAM link of a LEAD or MEMBER; a MEMBER applies an announced rate on its count edge (R219). -/
def upExchange (s : State) (p : BitVec 2560) (th2 d2 : Int) : State :=
  let th := Int.fdiv th2 (2 ^ 27)
  let s1 := wr (wr s rTIM_OFFSET fTIM_OFFSET_OFFSET (th % 2 ^ 32).toNat) rTIM_OFFSET fTIM_OFFSET_DELAY (Int.fdiv d2 (2 ^ 27)).toNat
  let s2 := adoptUp { s1 with tim := { s1.tim with lastValid := s.now, thetas := th2 :: s1.tim.thetas } } p
  let s3 := followTod s2 p
  if timRole s = 3 then
    let s4 := if s.now < byteField p 56 8 then
        { s3 with tim := { s3.tim with nextRate := clampRate (byteField p 48 8), rateAt := byteField p 56 8 } } else s3
    useOffset (memberUp s4 p th2) th2
  else useOffset s3 th2

/-- A SYNC bead as it came: its stamps are kept for the echo, and an exchange is made if it echoes one (R220, R221). -/
def syncEff (s : State) (l : Nat) (h : W64) (p : BitVec 2560) (rc rf : Nat) : State :=
  let s0 := adoptMaster s h p
  let s1 := if hRpl h then s0
    else
      let last := (tget (fun _ => (0, 0)) s.tim.syncIn l).1
      { s0 with tim := { s0.tim with
          echo := tset (fun _ => none) s.tim.echo l (some (byteField p 0 8, byteField p 8 4, rc, rf))
          syncIn := tset (fun _ => (0, 0)) s.tim.syncIn l (s.now, s.now - last) } }
  let q (n k : Nat) : Int := (byteField p n 8 * 2 ^ 32 + byteField p k 4 : Nat)
  if !(byteField p 36 1).testBit 4 then s1
  else
    let (th2, d2) := exchange (q 0 8) ((rc * 2 ^ 32 + rf : Nat) : Int) (q 24 32) (q 16 12)
    if !syncValid s1 l h p d2 then bump s1 rTIM_SYNC_ERR fTIM_SYNC_ERR_BAD_SYNC
    else if follows s1 && upstream s1 = l then upExchange s1 p th2 d2
    else wr (wr s1 (rTIM_NBR_OFF l) fTIM_NBR_OFF_VALID 1) (rTIM_NBR_OFF l) fTIM_NBR_OFF_OFFSET (Int.fdiv th2 (2 ^ 27) % 2 ^ 32).toNat

/-- SYNC_BEAD (R221). -/
def execSyncBead (l : LinkId) (h : BitVec 64) (r : BeadBody) (rxCount : BitVec 64) (rxFrac : BitVec 32) (s : State) : Out :=
  match rxDecode { r with h := h } with
  | .bad _ => .next s
  | .ok h p fixed =>
    if !rxLive s l || hClass h ≠ 4 then .next s
    else match rxBead s l h fixed with
      | (some _, s1) => .next (syncEff (releaseHeld s1 l) l h p rxCount.toNat rxFrac.toNat)
      | (none, s1) => .next s1

/-- SYNC_SEND (R220): one SYNC bead in an interval of a link that is UP. -/
def execSyncSend (l : LinkId) (s : State) : Out :=
  let x := getLink s l
  if lnkState s l = 6 && decide (x.syncAt / syncEvery s l < s.now / syncEvery s l) then
    .next (setLink s l { x with syncAt := s.now, special := x.special ++ [(4, 0)] })
  else .next s

/-! ### The servo (R222, R224) -/

/-- The frequency term: the own mean rate over the last two intervals less what theta's mean has moved between them a tick, in units of
2^-32; without two means the present rate (R222; log 26). -/
def freqTerm (s : State) (sum : Int) (n : Nat) : Int :=
  match s.tim.lastMean, s.tim.rates with
  | some (psum, pn), r0 :: r1 :: _ => Int.fdiv ((r0 : Int) + r1) 2 - Int.fdiv (sum * pn - psum * n) (2 * 65536 * n * pn)
  | _, _ => rd s rTIM_RATE fTIM_RATE_RATE

/-- 20 ppm of rate, in units of 2^-32. -/
def pullMax : Int := 85899

/-- The phase pull: theta's mean over 16 updates, within 20 ppm (R222). -/
def phasePull (sum : Int) (n : Nat) : Int := max (-pullMax) (min pullMax (Int.fdiv (-sum) (2 * 16 * 65536 * n)))

/-- A LEAD's rate for the next multiple of 65,536: frequency term and phase pull, the last unit of 2^-32 free (R219, R222; log 26). -/
def decideRate (s : State) (f : Int) (pull : Int) : State :=
  let (v, s1) := draw s
  { s1 with tim := { s1.tim with freq := (max 0 f).toNat, nextRate := clampRate (f + pull + v.toNat % 2).toNat, rateAt := s.now + 65536 } }

/-- The state a mean of exchanges leads to: LOCKED after four updates within 1/16 tick, ACQUIRE beyond the limit (R222). -/
def servoState (s : State) (sum : Int) (n : Nat) : State :=
  let good := if sum.natAbs ≤ 2 ^ 29 * n then s.tim.good + 1 else 0
  let s1 := { s with tim := { s.tim with good := good } }
  if timState s = 2 && decide (rd s rTIM_LIMIT fTIM_LIMIT_OFF_LIMIT * 2 ^ 27 * n < sum.natAbs) then setTimState s1 1
  else if timState s ≠ 2 && decide (4 ≤ good) then setTimState s1 2 else s1

/-- SERVO_UPDATE (R222): at a count that is a multiple of 65,536, by the mean of the interval's exchanges; in HOLDOVER a LEAD holds the
frequency term, with no phase pull. -/
def execServoUpdate (s : State) : Out :=
  if !follows s || s.now % 65536 ≠ 0 || decide (s.now ≤ s.tim.updAt) then .next s
  else
    let ts := s.tim.thetas
    let n := ts.length
    let sum : Int := ts.foldl (· + ·) 0
    let s1 := { s with tim := { s.tim with updAt := s.now, thetas := [], rates := (rd s rTIM_RATE fTIM_RATE_RATE :: s.tim.rates).take 2
                                           lastMean := if ts = [] then none else some (sum, n) } }
    if timState s = 3 && timRole s = 2 then
      let s2 := { s1 with tim := { s1.tim with nextRate := clampRate s.tim.freq, rateAt := s.now + 65536 } }
      .next (if ts = [] then s2 else servoState s2 sum n)
    else if ts = [] then .next s1
    else
      let s2 := servoState s1 sum n
      .next (if timRole s = 2 then decideRate s2 (freqTerm s sum n) (phasePull sum n) else s2)

/-- HOLDOVER (R222): no valid exchange for 16,384 ticks while LOCKED. -/
def execHoldover (s : State) : Out :=
  if timState s = 2 && follows s && decide (s.tim.lastValid + 16384 ≤ s.now) then
    .next (setTimState { s with tim := { s.tim with holdSince := s.now, good := 0, badOff := 0 } } 3)
  else .next s

/-- SYNC_LOST (R222, R232): 1,200,000 ticks in HOLDOVER. -/
def execSyncLost (s : State) : Out :=
  if timState s = 3 && decide (s.tim.holdSince + 1200000 ≤ s.now) then
    .next (setTimState (timeFault { s with tim := { s.tim with good := 0 } } 1) 1)
  else .next s

/-- The standby becomes master (R224): count and rate stay, the epoch advances, the identity is its own. -/
def takeOver (s : State) : State :=
  let r := rd s rTIM_RATE fTIM_RATE_RATE
  let put (s : State) (f : Fld) (v : Nat) : State := stage (wr s rTIM_ROLE f v) rTIM_ROLE f v
  let s1 := put (put s fTIM_ROLE_STANDBY 0) fTIM_ROLE_ROLE 1
  let s2 := stage (wr s1 rTIM_MASTER_RATE fTIM_MASTER_RATE_RATE r) rTIM_MASTER_RATE fTIM_MASTER_RATE_RATE r
  let e := max s.tim.epochMax (rd s rTIM_STATUS fTIM_STATUS_MASTER_EPOCH) + 1
  let s3 := wr (wr (wr (setTimState s2 4) rTIM_STATUS fTIM_STATUS_MASTER_EPOCH e) rTIM_STATUS fTIM_STATUS_MASTER_GID (ownGid s))
    rTIM_STATUS fTIM_STATUS_DEPTH 0
  bump { s3 with tim := { s3.tim with epochMax := e, pendRate := false, rateAt := 0 } } rTIM_SYNC_ERR fTIM_SYNC_ERR_TAKEOVERS

/-- TAKEOVER (R224): the sync count has stood still for 2,400,000 ticks while the UPSTREAM link stayed UP and valid. -/
def execTakeover (s : State) : Out :=
  if rd s rTIM_ROLE fTIM_ROLE_STANDBY = 1 && follows s && decide (s.tim.seqAt + 2400000 ≤ s.now) && lnkState s (upstream s) = 6 &&
      decide (s.tim.seqAt < s.tim.lastValid) then .next (takeOver s)
  else .next s

/-- Roles, rates and time of day as a committed TIM snapshot leaves them (R214, R216, R219, R225, R226). -/
def timApplied (old s : State) : State :=
  let r0 := timRole old
  let r1 := if 3 < timRole s then r0 else timRole s
  let s1 := wr (wr s rTIM_ROLE fTIM_ROLE_ROLE r1) rTIM_MASTER_RATE fTIM_MASTER_RATE_RATE (clampRate (rd s rTIM_MASTER_RATE fTIM_MASTER_RATE_RATE))
  let s2 := regSet s1 rTIM_TOD_INC (BitVec.ofNat 64 (clampInc (todInc s1)))
  let step := (regGet s2 rTIM_TOD_STEP).toInt
  let t := todTotal s2 + step * 2 ^ 32
  let s3 := if step = 0 || decide (t < 0) then s2 else setTod s2 t
  let s4 := shadowSet (regSet s3 rTIM_TOD_STEP 0) rTIM_TOD_STEP 0
  let s5 := { s4 with tim := { s4.tim with pendRate := r1 ≤ 1 } }
  if r1 = 1 && r0 ≠ 1 then
    if rd old rTIM_ROLE fTIM_ROLE_STANDBY = 1 then takeOver s5
    else wr (wr (setTimState s5 4) rTIM_STATUS fTIM_STATUS_MASTER_GID (ownGid s)) rTIM_STATUS fTIM_STATUS_DEPTH 0
  else if r1 = 0 && r0 ≠ 0 then wr (setTimState s5 0) rTIM_STATUS fTIM_STATUS_DEPTH 31
  else if 2 ≤ r1 && r0 ≤ 1 then
    setTimState { s5 with tim := { s5.tim with good := 0, badOff := 0, thetas := [], rates := [], lastMean := none, joined := false
                                               freq := rd s5 rTIM_RATE fTIM_RATE_RATE, seqAt := s.now, lastValid := s.now } } 1
  else if r1 ≠ r0 then { s5 with tim := { s5.tim with joined := false } }
  else s5

/-! ### The LCLK edge (R196, R204, R214, R215, R219, R225) -/

/-- Time of day on a count edge: it gains its increment, or takes a value that waits for a bead boundary (R225, R226). -/
def todTick (s : State) : State :=
  let s1 := setTod s (todTotal s + todInc s)
  match s.tim.todSet with
  | none => s1
  | some (a, b, c) =>
    let v : Int := ((a.toNat * 10 ^ 9 + b.toNat) * 2 ^ 32 + c.toNat : Nat)
    let inc := s.tim.incSet.getD (todInc s)
    let w := if s.tim.todLoad then v + inc else v
    if s.now % 4 = 0 then
      let s2 := { s1 with tim := { s1.tim with todSet := none, todLoad := false, incSet := none } }
      setTod (match s.tim.incSet with
        | some i => shadowSet (regSet s2 rTIM_TOD_INC (BitVec.ofNat 64 i)) rTIM_TOD_INC (BitVec.ofNat 64 i)
        | none => s2) w
    else
      let (x, y, z) := todSplit w
      { s1 with tim := { s1.tim with todSet := some (BitVec.ofNat 64 x, BitVec.ofNat 32 y, BitVec.ofNat 32 z) } }

/-- Rate changes and the master's sync count on a count edge (R219, R220). -/
def rateTick (s : State) : State :=
  let s1 := if s.tim.rateAt = s.now && s.now ≠ 0 then wr s rTIM_RATE fTIM_RATE_RATE (clampRate s.tim.nextRate) else s
  let s2 := if s.now % 65536 = 0 && s1.tim.pendRate then
      { s1 with tim := { s1.tim with pendRate := false, nextRate := rd s1 rTIM_MASTER_RATE fTIM_MASTER_RATE_RATE, rateAt := s.now + 65536 } }
    else s1
  if timState s2 = 4 && s.now % 4096 = 0 then { s2 with tim := { s2.tim with masterSeq := (s2.tim.masterSeq + 1) % 2 ^ 32 } } else s2

def zoneIssued (s : State) (z : Nat) : Nat := ((List.range 16).map fun i => (getTile s (16 * z + i)).issued).sum

/-- One LCLK period of a zone: its edges are credited to the tick they fall in (R204), an idle zone's as its step would
deliver them (R361); its tiles owe a cc for each. The window check disarms with the last running plan (R206). -/
def zoneTick (s : State) (held : Bool) (z : Nat) : State :=
  let x := getZone s z
  let stop := zoneStopped s z
  let e : Edges := if stop then ⟨0, x.phase, x.pat, x.stretchNow⟩ else edgesIn (zoneStep s z) 0 x.phase x.pat x.stretchNow
  let had := match x.hist with | (v, _) :: _ => decide (0 < v) | [] => false
  let tot := zoneIssued s z
  let y := { x with
    phase := e.ph, pat := e.pat, stretchNow := e.str, edge0 := !stop && !held && x.phase = 0
    hist := if held then rleHead (· + e.n) x.hist else rleTake (rlePush e.n x.hist) 4096
    prevEdge := if !held && had then s.now - 1 else x.prevEdge
    edges := (if held then x.edges else 0) + (if zoneIdle s z then 0 else e.n)
    ph0 := x.phase, pat0 := x.pat, str0 := x.stretchNow, strN := 0, n0 := e.n
    issues := if held || (x.issues = [] && tot = 0) then x.issues else rleTake (rlePush tot x.issues) 4097 }
  let s1 := disarmZone (setZone s z y) z
  if zoneIdle s z then s1 else ccCount s1 z e.n 0

/-- Commands that wait for a tick: FENCE (R324), and TIME_SET for its bead boundary (R226). -/
def hostTick (s : State) : State :=
  finishAll (fenceSettle s) (fun h => pcode h.pkt = 0x50 && decide (h.info ≤ s.now)) fun s h => done s h h.info

/-- LCLK_EDGE (R214): the zones' tiles first run the ccs they still owe the period that ends; RATE is then added to {COUNT, FRAC},
and tick-timed state advances on a count edge only (R215). -/
def execLclkEdge (s : State) : Out :=
  let s0 := runOwed s
  let sum := s0.tim.frac + rd s0 rTIM_RATE fTIM_RATE_RATE
  let held := decide (sum < 2 ^ 32)
  let s1 := { s0 with lclk := s0.lclk + 1, now := s0.now + sum / 2 ^ 32, tim := { s0.tim with frac := sum % 2 ^ 32 } }
  let s2 := if held then s1 else todTick (rateTick s1)
  .next (hostTick ((List.range 16).foldl (fun s z => zoneTick s held z) (idleSettle s2)))

/-! ### Timestamp registers (R228, R233) -/

/-- TIM_SNAP (R233). -/
def snapTime (s : State) : State :=
  regSet (regSet (regSet s rTIM_SNAP_COUNT (BitVec.ofNat 64 s.now)) rTIM_SNAP_SEC (regGet s rTIM_TOD_SEC)) rTIM_SNAP_NS (regGet s rTIM_TOD_NS)

end Machine
end Sys2Proof
end

