-- ==== Sys2Proof/Machine/Launch.lean ====
section
/-! DEFINITION. The launch of a plan and its step boundaries (09 R230; 10 R240, R250; 08 R206, R211; 12 R298). -/
namespace Sys2Proof
namespace Machine

/-- Tiles and engines the plan of a context holds (R243). -/
def planTileList (x : Ctx) : List Nat := (List.range 256).filter fun t => (planTiles x).getLsbD t
def planEngList (x : Ctx) : List Nat :=
  match x.image with | some p => (List.range 32).filter fun g => p.engines.getLsbD g | none => []

def forTiles (s : State) (ts : List Nat) (f : Tile → Tile) : State := ts.foldl (fun s t => modTile s t f) s
def forEngs (s : State) (gs : List Nat) (f : Engine → Engine) : State := gs.foldl (fun s g => modEng s g f) s

/-- Zones the plan holds tiles in. -/
def planZones (x : Ctx) : List Nat := (List.range 16).filter (inZone x)

/-- A zone slower than the floor the parison declares (R211). -/
def slowZones (s : State) (x : Ctx) : List Nat :=
  (planZones x).filter fun z =>
    match x.image with
    | some p => (match imageFs p z with | some v => decide (v.1 < zoneStep s z) | none => false)
    | none => false

/-- EXEC 0x011 of a zone below a parison's floor (R211): no window is judged, so no delivered count is stated. -/
def launchFloorFault (s : State) (z : Nat) : FaultInfo := floorFault z s.now 0 (zoneReq s z)

/-- The stores and packet numbers of the twin unit begin anew where its context launches or resets (R269, R271). -/
def twinClear (s : State) (c : Nat) : State := if twinOn s c then { s with twin := TwinSt.zero } else s

/-- Word indices of a context's channels return to 0 (R240, R250). -/
def chanRestart (s : State) (c : Nat) : State := { s with chanW := s.chanW.filter fun e => e.1 / 2 ^ 19 ≠ c }

/-- The window check of a zone arms at the first launch that holds it since no running plan did (R206). -/
def armZone (l : Nat) (s : State) (z : Nat) : State :=
  match (getZone s z).armedAt with
  | some _ => s
  | none => modZone s z fun x => { x with armedAt := some l }

/-- The parison runs: step counter 0, step 0 at L (R230). -/
def startPlan (s : State) (c : CtxId) : State :=
  let x := getCtx s c
  let s1 := modCtx (chanRestart (twinClear ((planZones x).foldl disarmZone s) c) c) c fun x =>
    { x with plan := .running, ran := true, stepCtr := 0, stepStart := x.launchAt }
  let s2 := forTiles s1 (planTileList x) fun y => { y with st := .issuing, steps := 0, stepSeen := 0, stepIssue := 0, draw := 0, wpos := [], wclosed := 0, sigs := [] }
  let s3 := forEngs s2 (planEngList x) fun y => { y with st := .waitStart, upNext := 0 }
  (planZones x).foldl (armZone x.launchAt) s3

/-- PLAN 0x022 with fault tick f and the step of that tick: the immediate abort of a running plan (R256, R321). -/
def abortNow (s : State) (c : CtxId) (f seq : Nat) : State :=
  let x := getCtx s c
  let step := match x.image with | some p => resumeStep s c + (stepAt p (resumeStep s c) (f - x.launchAt)).1 | none => 0
  let r := mkRec s (some c) true f { faultInfo 0x1022 0 0 0 with d0 := seq }
  modCtx (faultPush s { r with step := step }) c fun x =>
    { x with plan := .faulted, faultTick := (match x.faultTick with | some g => some (min f g) | none => some f) }

/-- The PLAN_ABORT commands of a context that wait to take effect reply with the count (R319, R321). -/
def abortReplies (s : State) (c : CtxId) (t : Nat) : State :=
  finishAll s (fun h => pcode h.pkt = 0x22 && pctx h.pkt = c) fun s h => done s h t

/-- An immediate abort that came too late to disarm acts as the plan launches (R231, R321). -/
def lateAbort (s : State) (c : CtxId) : State :=
  let x := getCtx s c
  if !x.lateArm then s
  else
    let seq := match s.cmds.find? fun h => h.started && pcode h.pkt = 0x22 && pctx h.pkt = c with | some h => h.pkt.seq.toNat | none => 0
    abortReplies (modCtx (abortNow s c x.launchAt seq) c fun x => { x with lateArm := false }) c x.launchAt

/-- LAUNCH (R230): at its count an armed parison runs, unless a job of several ranks has no time (TIME 0x004) or a zone is
below the parison's floor (EXEC 0x011, R211). -/
def execLaunch (c : CtxId) (s : State) : Out :=
  let x := getCtx s c
  match x.image with
  | some p =>
    if x.plan ≠ .armed || decide (s.now < x.launchAt) then .next s
    else
      let st := timState s
      if p.multi && !(decide (st = 2) || decide (st = 3) || decide (st = 4)) then
        .next (lateAbort (timeFault s 4) c)
      else
        match slowZones s x with
        | [] => .next (lateAbort (startPlan s c) c)
        | zs => .next (lateAbort (zs.foldl (fun s z => raise s c (launchFloorFault s z)) s) c)
  | none => .next s

/-- Channels with a word left in a tile's outbox, lowest first (R240). -/
def leftChans (x : Tile) : List Nat :=
  (x.outbox.filterMap fun e => e.2.map (·.chan)).foldl (fun l c => insertNat c (l.erase c)) []

/-- EXEC 0x013 for every channel with a word left in an outbox of the plan's tiles (R240). -/
def leftFaults (s : State) (c : CtxId) : State :=
  (planTileList (getCtx s c)).foldl (fun s t =>
    (leftChans (getTile s t)).foldl (fun s ch => raise s c (chanFault 0x2013 t ch (wordIdx s c t ch) 0)) s) s

/-- The units of a context still run: its plan runs, or its stop has not reached them yet (R282). -/
def runsOn (x : Ctx) (t : Nat) : Bool :=
  isRunning x || (x.plan = .faulted && x.ran && !x.stopped &&
    (match x.faultTick with | some f => decide (t < f + 8) | none => false))

/-- The step that ends is the plan's last: STEP_COUNT, or the END_STEP of a PLAN_ABORT or of a replay (R250, R264, R291, R321). -/
def lastStep (x : Ctx) (n : Nat) : Bool :=
  (match x.image with | some p => p.stepCount ≠ 0 && decide (p.stepCount ≤ n + 1) | none => false) ||
    (match x.endStep with | some e => decide (e ≤ n) | none => false)

/-- The plan is over: tiles stop issuing and engines fall idle (R250); a replayed suspect is cleared and held at the next
step (R291). -/
def endPlan (s : State) (c : CtxId) (n b : Nat) : State :=
  let x := getCtx s c
  let s1 := forEngs (forTiles s (planTileList x) fun y => { y with st := .idle, stall := none }) (planEngList x)
    fun y => { y with st := .idle }
  if x.st = .replay then
    let s2 := modCtx s1 c fun x => { x with plan := .parison, endStep := none, ran := false }
    replayEnd { setResume s2 c (n + 1) with
      hang := { s2.hang with cur := if s2.hang.cur = some c then none else s2.hang.cur, cleared := s2.hang.cleared ++ [c] } }
  else abortReplies (modCtx s1 c fun x => { x with plan := .complete, endStep := none }) c b

/-- STEP_BOUNDARY (R250): at the end of a step the counter advances and channels, gather lists and the bead program begin
anew; a tile's draw and issue indices begin anew at its own STEP (R72, R267). -/
def execStepBoundary (c : CtxId) (s : State) : Out :=
  let x := getCtx s c
  let b := stepEnd s c
  let n := stepNum s c
  if !runsOn x b || decide (s.now < b) then .next s
  else
    let s1 := leftFaults s c
    if lastStep x n then .next (fenceSettle (if isRunning (getCtx s1 c) then endPlan s1 c n b else s1))
    else if 2 ^ 48 ≤ n + 1 then .next (if isRunning (getCtx s1 c) then raise s1 c (faultInfo 0x201B 0 0 0) else s1)
    else
      let s2 := modCtx (chanRestart s1 c) c fun x => { x with stepCtr := x.stepCtr + 1, stepStart := b }
      .next (fenceSettle (forEngs s2 (planEngList x) fun y => { y with upNext := 0, st := if y.active then y.st else .waitStart }))

end Machine
end Sys2Proof
end

