-- ==== Sys2Proof/Machine/FaultLog.lean ====
section
/-! DEFINITION. The stop of a context, the fault collector and the fault log (12 R280 to R285, R291). -/
namespace Sys2Proof
namespace Machine

/-- A suspect whose replay faults or hangs again is guilty and stays FAULTED (R291). -/
def guilty (s : State) (c : CtxId) : State :=
  let s1 := suspectOut (hangNote s 2 c true) c
  let g := BitVec.ofNat 8 (rd s1 rGAF_HANG_STATUS fGAF_HANG_STATUS_GUILTY) ||| 1#8 <<< c.val
  replayEnd (modCtx (wr s1 rGAF_HANG_STATUS fGAF_HANG_STATUS_GUILTY g.toNat) c fun x => { x with st := .opened, endStep := none })

/-! ### FAULT_STOP (R282) -/

/-- The stop reaches every unit the context holds, 8 ticks after the fault: no block, descriptor, head or mesh word starts. -/
def stopUnits (s : State) (c : CtxId) : State := modCtx s c fun x => { x with stopped := true }

/-- FAULT_STOP (R282); a fault in a replay ends it (R291). -/
def execFaultStop (c : CtxId) (s : State) : Out :=
  let x := getCtx s c
  match x.faultTick with
  | some f =>
    if x.stopped || decide (s.now < f + 8) then .next s
    else
      let s1 := stopUnits s c
      .next (if x.st = .replay && s.hang.cur = some c then guilty s1 c else s1)
  | none => .next s

/-! ### FAULT_RECORD_LOG (R280 to R285) -/

/-- A logged record goes into its ring slot with its SEQ; an unread one there is overwritten (R284). -/
def ringWrite (s : State) (ws : List W64) : State :=
  let n := rd s rGAF_FLOG_CTL fGAF_FLOG_CTL_WR
  let i := n % 256
  let s1 := (List.range 8).foldl (fun s j => regSet s (rGAF_FLOG i j) (ws.getD j 0)) s
  let unread := (n + 2 ^ 32 - rd s rGAF_FLOG_CTL fGAF_FLOG_CTL_RD) % 2 ^ 32
  let s2 := if 256 ≤ unread then bump s1 rGAF_FLOG_OVW fGAF_FLOG_OVW_OVW else s1
  { wr s2 rGAF_FLOG_CTL fGAF_FLOG_CTL_WR (n + 1) with recNext := s.recNext + 1 }

/-- Fields of a record in its words (R280). -/
def wCode (w : W64) : Nat := fget ⟨63, 48⟩ w
def wStop (w : W64) : Bool := w.getLsbD 47
def wCtx (w : W64) : Option CtxId := if w.getLsbD 46 then some (Fin.ofNat 8 (fget ⟨45, 43⟩ w)) else none
def wEngine (w : W64) : Nat := fget ⟨34, 31⟩ w
def wUnit (w : W64) : Nat := fget ⟨15, 0⟩ w

/-- What the collector adds to a record: the SEQ of the HANG 0x001 record and of the replay's own (R299), and the PEER of
a LINK 0x001 whose word came within 1,200 ticks of its fault (R285). -/
def complete (s : State) (ws : List W64) : List W64 :=
  let w := ws.getD 0 0
  let l := wUnit w
  let hang := decide (0x9002 ≤ wCode w) && decide (wCode w ≤ 0x9005)
  let first := match wCtx w with | some c => (getCtx s c).firstSeq | none => 0
  let ws1 := if hang then (ws.set 4 (BitVec.ofNat 64 s.hang.seq)).set 5 (if wCode w = 0x9002 then BitVec.ofNat 64 first else 0) else ws
  let f := (ws.getD 1 0).toNat
  let k := rd s (rLNK_PEER l) fLNK_PEER_KIND
  let t := rd s (rLNK_PEER l) fLNK_PEER_COUNT
  let ws2 := if wCode w = 0x4001 && k ≠ 0 && decide (f ≤ t) && decide (t < f + 1200) then ws1.set 0 (fset ⟨23, 16⟩ w k) else ws1
  ws2.set 7 (BitVec.ofNat 64 (s.recNext.toNat * 2 ^ 32))

/-- A PLAN_LOAD that was refused replies once its record has its SEQ (R315, R316). -/
def loadReply (s : State) (w : W64) (seq : Nat) : State :=
  match wCtx w with
  | some c =>
    if wEngine w = 13 then
      finishAll s (fun h => pcode h.pkt = 0x20 && pctx h.pkt = c) fun s h => finish s h stFaulted (wCode w + seq * 2 ^ 32) []
    else s
  | none => s

/-- A record written, with the host's event and, for the first of a stop, the context's vector (R283, R309, R310). -/
def logOne (s : State) (ws0 : List W64) : State :=
  let ws := complete s ws0
  let w := ws.getD 0 0
  let i := rd s rGAF_FLOG_CTL fGAF_FLOG_CTL_WR % 256
  let seq := s.recNext.toNat
  let s1 := hostEvent (ringWrite s ws) 1 (match wCtx w with | some c => c.val | none => 0xFFFF)
  let s2 := if wCode w = 0x9001 then { s1 with hang := { s1.hang with seq := seq } } else s1
  let s3 := if wCode w = 0x4001 then { s2 with recOpen := s2.recOpen ++ [(i, wUnit w, (ws.getD 1 0).toNat)] } else s2
  loadReply s3 w seq

/-- The record counts in a stop of its context: it stops it, or follows a logged record of the stop (R283). -/
def inStop (x : Ctx) (w : W64) : Bool := (wStop w || x.codes ≠ []) && decide (BitVec.ofNat 8 (fget ⟨42, 35⟩ w) = x.gen)

/-- One record from a channel: module-level records are always logged; of a stop, the first and up to seven more with
codes not logged yet, the others counted in MORE (R283). -/
def logRecord (s : State) (ws : List W64) : State :=
  let w := ws.getD 0 0
  match wCtx w with
  | none => logOne s ws
  | some c =>
    let x := getCtx s c
    let code := BitVec.ofNat 16 (wCode w)
    if !inStop x w then logOne s ws
    else if x.codes.length < 8 && !x.codes.contains code then
      let first := decide (x.codes = [])
      let s1 := modCtx (logOne s ws) c fun y =>
        { y with codes := y.codes ++ [code], first := if first then code else y.first, firstSeq := if first then s.recNext.toNat else y.firstSeq }
      if first then emit s1 (.vector (if x.vfOwn then c.val + 1 else 0) x.vector) else s1
    else modCtx s c fun y => { y with more := min (y.more + 1) (2 ^ 32 - 1) }

/-- The eight items of a whole record at the head of a fault channel, as the collector's clock sees them (R340, R345). -/
def headRecord (s : State) (i : Nat) : Option (List W64) :=
  let its := caneSeen i s.now (getCane s i)
  if 8 ≤ its.length then some ((its.take 8).map (·.data)) else none

/-- Order of records: fault tick, ENGINE, UNIT (R283). -/
def recBefore (a b : List W64) : Bool :=
  let k (r : List W64) : Nat := (r.getD 1 0).toNat * 2 ^ 20 + wEngine (r.getD 0 0) * 2 ^ 16 + wUnit (r.getD 0 0)
  decide (k a < k b)

/-- The whole records of one fault channel go to the collector; `n` bounds how many a channel can hold. -/
def readChan (s : State) (i : Nat) : Nat → State
  | 0 => s
  | n + 1 =>
    match headRecord s i with
    | some ws => readChan { (List.range 8).foldl (fun s _ => (caneRead s i).2.2.2) s with gathered := s.gathered ++ [ws] } i n
    | none => s

/-- The collector reads what every fault channel shows it (R283, R345). -/
def gather (s : State) : State := (List.range 17).foldl (fun s k => readChan s (4 + k) 4) s

/-- The first of some records in the collector's order; of equal ones the one read first. -/
def firstRec : List (List W64) → Option (List W64)
  | [] => none
  | r :: rs => match firstRec rs with | some b => if recBefore b r then some b else some r | none => some r

/-- A record held by its unit goes into the channel once eight stages show free (R345). -/
def refill (s : State) : State :=
  s.faultHeld.foldl (fun s h =>
    let i := faultChan h.item.engine h.item.unit
    if 8 ≤ caneFree i s.now (getCane s i) then faultPush { s with faultHeld := s.faultHeld.erase h } h.item else s) s

/-- The collector logs the first of the records it has, in order of fault tick, ENGINE and UNIT (R283). -/
def logFirst (s : State) : State :=
  match firstRec s.gathered with
  | some ws => logRecord { s with gathered := s.gathered.erase ws } ws
  | none => s

/-- The collector reads every channel and logs one record. -/
def collect (s : State) : State := logFirst (gather s)

/-- FAULT_RECORD_LOG (R283). -/
def execFaultRecordLog (s : State) : Out := .next (refill (collect s))

/-! ### FAULT_SPILL, LINK_RECORD_CLOSE (R284, R285) -/

/-- Place of a record in the spill ring of 2^22 (R105, R284). -/
def spillAddr (seq : Nat) : Nat := tableAddr (0x5000000 + 64 * (seq % 2 ^ 22))

/-- FAULT_SPILL (R284): the oldest record of the ring not yet spilled is copied into the table region, while the Gaffer
runs and nothing else uses the table. -/
def execFaultSpill (s : State) : Out :=
  let n := rd s rGAF_FLOG_CTL fGAF_FLOG_CTL_WR
  let left := (n + 2 ^ 32 - s.spill) % 2 ^ 32
  let from_ := (n + 2 ^ 32 - min left 256) % 2 ^ 32
  if gafferDown s || left = 0 then .next s
  else
    let v := (List.range 8).foldr (fun j a => (regGet s (rGAF_FLOG (from_ % 256) j)).toNat + 2 ^ 64 * a) 0
    .next { memWrite s (spillAddr from_) 64 v with spill := (from_ + 1) % 2 ^ 32 }

/-- LINK_RECORD_CLOSE (R285). -/
def execLinkRecordClose (i : BitVec 8) (s : State) : Out :=
  .next { s with recOpen := s.recOpen.filter fun r => !(decide (r.1 = i.toNat) && decide (r.2.2 + 1200 ≤ s.now)) }

end Machine
end Sys2Proof
end

