-- ==== Sys2Proof/Machine/PlanCmds.lean ====
section
/-! DEFINITION. The plan commands (09 R229, R231; 10 R245, R256; 11 R265; 13 R321, R322). -/
namespace Sys2Proof
namespace Machine

/-- A PLAN record that tells of a refused PLAN_ARM: no stop (R256). -/
def planNote (s : State) (c : CtxId) (code : BitVec 16) (off : Nat) : State := note s (some c) (faultInfo code 0 0 off)

/-- PLAN_LOAD (R245, R321): accepted in NONE and COMPLETE; a refused one replies once its record is logged (R315). -/
def loadBody (s : State) (h : HeldCmd) : State :=
  let c := pctx h.pkt
  let x := getCtx s c
  if x.plan ≠ .none && x.plan ≠ .complete then refuse s h stState
  else
    let L := ldOf s c h.pkt.payload
    match L.refused with
    | some e => hold (loadNote (setResume (modCtx s c fun x => { x with plan := .none, image := none }) c 0) c e) h 0
    | none => done L.install h (fld (L.img 256 8) 63 0)

/-- The time check of PLAN_ARM (R229). -/
def armTime (s : State) (p : Plan) : Bool :=
  let st := timState s
  decide (2 ≤ st) && decide (st ≤ 4) || (st = 0 && !p.multi)

/-- The resume step is one the image lets a plan begin with (R265). -/
def armResume (p : Plan) (rs : Nat) : Bool := rs = 0 || ((stepLenOf p rs).2 && (p.stepCount = 0 || decide (rs < p.stepCount)))

/-- PLAN_ARM (R229, R265): checks at its start, in order; RESULT is the starting count, the take count where it waited for nothing. -/
def armBody (s : State) (h : HeldCmd) : State :=
  let c := pctx h.pkt
  let x := getCtx s c
  let l := (pw h.pkt 0).toNat
  let rs := resumeStep s c
  let a := if h.free then h.taken else s.now
  match x.image with
  | some p =>
    if x.plan ≠ .parison then finish s h 0x13 a []
    else if l < a + 240000 || a + 12000000000 < l then finish s h 0x10 a []
    else if p.beads ≠ [] && l % 256 ≠ 0 then finish (planNote s c 0x1020 l) h 0x11 a []
    else if !armTime s p then finish s h 0x12 a []
    else if !armResume p rs then finish (planNote s c 0x1021 rs) h 0x14 a []
    else done (modCtx s c fun x => { x with plan := .armed, launchAt := l, lateArm := false }) h a
  | none => finish s h 0x13 a []

/-- The tick of the boundary that ends step number e of a plan launched at its launch count; none for a step before its first. -/
def abortEnd (s : State) (c : CtxId) (p : Plan) (e : Nat) : Option Nat :=
  let rs := resumeStep s c
  if e < rs then none else some ((getCtx s c).launchAt + stepOffset p rs (e - rs + 1))

/-- PLAN_ABORT (R231, R321): disarms, or ends the plan with the step it names; it replies when it has taken effect. -/
def abortBody (s : State) (h : HeldCmd) : State :=
  let c := pctx h.pkt
  let x := getCtx s c
  match x.plan, x.image with
  | .armed, some p =>
    if h.taken + 1200 ≤ x.launchAt then done (modCtx s c fun x => { x with plan := .parison, launchAt := 0 }) h s.now
    else endAt s h c p
  | .running, some p => endAt s h c p
  | _, _ => refuse s h stState
where
  /-- The plan ends with step END_STEP, unless that boundary is too close (R321). -/
  endAt (s : State) (h : HeldCmd) (c : CtxId) (p : Plan) : State :=
    let e := pf h.pkt 0 47 0
    match abortEnd s c p e with
    | some b =>
      if b < h.taken + 1200 then refuse s h 0x15
      else hold (modCtx s c fun x => { x with endStep := some (match x.endStep with | some n => min n e | none => e) }) h e
    | none => refuse s h 0x15

/-- PLAN_ABORT with IMMEDIATE (R321): disarms in time, stops a running plan at the take tick, or one that launches anyway at L. -/
def abortImmBody (s : State) (h : HeldCmd) : State :=
  let c := pctx h.pkt
  let x := getCtx s c
  match x.plan with
  | .armed =>
    if h.taken + 1200 ≤ x.launchAt then done (modCtx s c fun x => { x with plan := .parison, launchAt := 0 }) h s.now
    else hold (modCtx s c fun x => { x with lateArm := true }) h 0
  | .running => done (abortNow s c h.taken h.pkt.seq.toNat) h s.now
  | _ => refuse s h stState

def planCode : PlanSt → Nat
  | .none => 0 | .loading => 1 | .parison => 2 | .armed => 3 | .running => 4 | .complete => 5 | .faulted => 6
def ctxCode : CtxSt → Nat
  | .closed => 0 | .opened => 1 | .resetting => 2 | .closing => 3 | .replay => 4

/-- CTX_FAULT_SUM (R300). -/
def faultSum (x : Ctx) : Nat := x.first.toNat * 2 ^ 48 + x.codes.length * 2 ^ 40 + x.more

/-- The 280 bytes of a status block (R322). -/
def statusBlock (s : State) (c : CtxId) : List Nat :=
  let x := getCtx s c
  let img (f : Plan → Nat) : Nat := match x.image with | some p => f p | none => 0
  [planCode x.plan, ctxCode x.st, x.gen.toNat, img fun p => if p.lc2 then 2 else 1] ++ bytesLE 4 0 ++ bytesLE 8 (stepNum s c) ++
    bytesLE 8 (resumeStep s c) ++ bytesLE 8 (img (·.stepCount)) ++ bytesLE 8 (if x.plan = .armed then x.launchAt else 0) ++
    bytesLE 8 s.now ++ bytesLE 64 (img fun p => p.digest.toNat) ++ bytesLE 32 (img fun p => p.hash.toNat) ++
    (List.range 16).flatMap (fun i => bytesLE 8 (img fun p => (p.seeds.getD i 0).toNat)) ++ bytesLE 8 (faultSum x)

/-- A command that returns data and whose RESULT is the byte count (R315). -/
def dataBody (f : State → List Nat) (s : State) (h : HeldCmd) : State := let d := f s; finishData s h d d.length

/-- PLAN_LOAD (R245, R321). -/
def execPlanLoad (src : Src) (p : Packet) (s : State) : Out := simpleCmd s src p 0x20 loadBody
/-- PLAN_ARM (R229). -/
def execPlanArm (src : Src) (p : Packet) (s : State) : Out := simpleCmd s src p 0x21 armBody
/-- PLAN_ABORT with IMMEDIATE = 0 (R321). -/
def execPlanAbort (src : Src) (p : Packet) (s : State) : Out :=
  .next (packetCmd s src p (pcode p = 0x22 && pf p 0 63 63 = 0) abortBody fun s _ => s)
/-- PLAN_ABORT with IMMEDIATE = 1 (R321). -/
def execPlanAbortImmediate (src : Src) (p : Packet) (s : State) : Out :=
  .next (packetCmd s src p (pcode p = 0x22 && pf p 0 63 63 = 1) abortImmBody fun s _ => s)
/-- PLAN_STATUS (R322). -/
def execPlanStatus (src : Src) (p : Packet) (s : State) : Out := simpleCmd s src p 0x23 (dataBody fun s => statusBlock s (pctx p))

end Machine
end Sys2Proof
end

