-- ==== Sys2Proof/Machine/SbdOps.lean ====
section
/-! DEFINITION. Events the sideband target sends: PLDM sensor events and in-band interrupts (14 R333, R336, R337; 15 R363). -/
namespace Sys2Proof
namespace Machine

/-- A PLDM event: to the event receiver as a PlatformEventMessage, or into the queue of 32, where the oldest makes room and is
counted in EVT_LOST (R337; the message bytes are DSP0248's, log 33). -/
def pldmEvent (s : State) (data : List Nat) : State :=
  if s.sbd.rcvMode = 1 || s.sbd.rcvMode = 3 then mctpSend s s.sbd.rcvEid 1 ([0x80, 0x02, 0x0A, 1, 0, 0] ++ data)
  else
    let q := s.sbd.events ++ [(s.sbd.nextEvt, data)]
    let s1 := { s with sbd := { s.sbd with events := q.drop (q.length - 32), nextEvt := s.sbd.nextEvt % 0xFFFE + 1 } }
    if 32 < q.length then bump s1 rSBD_STATUS fSBD_STATUS_EVT_LOST else s1

/-- A sensorEvent of a state sensor: its new state and the one before (R337). -/
def stateEvent (s : State) (sensor new old : Nat) : State := pldmEvent s (bytesLE 2 sensor ++ [1, 0, new, old])

/-- A change that may move the module to another state tells the event receiver of sensor 100 (R337). -/
def tellState (s s' : State) : State :=
  if moduleState s' = moduleState s then s' else stateEvent s' 100 (moduleState s') (moduleState s)

end Machine
end Sys2Proof
end

