-- ==== Sys2Proof/Machine/Service.lean ====
section
/-! DEFINITION. The service of open-class accesses (01 R16, 02 R46 and R48, 04 R89, 07 R185, 10 R238): open requests, returned data,
BAR4 accesses (13 R305) and the pieces of host copies (13 R323) wait for idle cycles of tile SRAM and free periods of LPDDR;
OPEN_SRAM_ACCESS, OPEN_LPDDR_ACCESS and OPEN_PACKET_LIFETIME_EXPIRY. -/
namespace Sys2Proof
namespace Machine

/-! ### Host accesses (R305, R323) -/

/-- Bytes moved by host copies (R331). -/
def moved (s : State) (n : Nat) : State := wr s rHST_COPY fHST_COPY_BYTES (rd s rHST_COPY fHST_COPY_BYTES + n)

/-- First local byte of a host copy: in the context's bounds, or in its plan staging area. -/
def copyBase (p : Packet) : Nat := if pcode p = 0x30 && pf p 1 63 63 = 1 then stagingAddr (pctx p) + pf p 1 40 0 else pf p 1 40 0
def copyLen (p : Packet) : Nat := pf p 2 40 0

/-- The piece of a copy that begins at an offset of its range: up to 4 KiB, and it waits for its accesses. -/
def pushPiece (s : State) (src : Src) (p : Packet) (off : Nat) : State :=
  let n := min 4096 (copyLen p - off)
  { s with hostAcc := s.hostAcc ++ [{ who := .piece src p off, addr := copyBase p + off, len := n, at_ := s.now
                                      needs := accessesOf (copyBase p + off) n (pcode p ≠ 0x31) }] }

/-- A piece has moved: the next follows, or the copy ends; one that a reset ends goes no further (R318). -/
def pieceEnd (s : State) (h : HeldCmd) (next : Nat) : State :=
  if h.info ≠ 0 then refuse s h stAborted
  else if next < copyLen h.pkt then pushPiece s h.src h.pkt next
  else done s h 0

/-- The lines of a range in order, up to the first that is uncorrectable or poisoned: its offset in the range if there is one. -/
def scanLines (s : State) (a : Nat) : Nat → Nat → Option Nat × State
  | 0, _ => (none, s)
  | k + 1, line =>
    let (_, bad, s1) := openLine s line
    if bad then (some (line - a), s1) else scanLines s1 a k (line + 64)

/-- A piece of COPY_OUT: the bytes before the first bad line are written, and RESULT names its offset in the copy. -/
def pieceOut (s : State) (h : HeldCmd) (off a n : Nat) : State :=
  let data := (openRead s a n).1
  let (bad, s1) := scanLines s a ((a + n - 1) / 64 - a / 64 + 1) (64 * (a / 64))
  let m := bad.getD n
  let s2 := moved (hostWrite s1 ((pw h.pkt 0).toNat + off) m data) m
  match bad with
  | some b => if h.info ≠ 0 then refuse s2 h stAborted else finish s2 h stUncorrectable (off + b) []
  | none => pieceEnd s2 h (off + n)

/-- A piece moves, once its accesses are served. -/
def pieceEff (s : State) (h : HeldCmd) (off a n : Nat) : State :=
  if pcode h.pkt = 0x30 then pieceEnd (moved (openWrite s a n (hostRead s ((pw h.pkt 0).toNat + off) n)) n) h (off + n)
  else if pcode h.pkt = 0x31 then pieceOut s h off a n
  else pieceEnd (openWrite s a n 0) h (off + n)

/-- A host access all of whose accesses are served; a piece whose command is gone moves nothing. -/
def hostEff (s : State) (a : HostAcc) : State :=
  match a.who with
  | .barRead fn tag =>
    let (v, bad, s1) := openRead s a.addr a.len
    emit s1 (.completion fn tag (b2n bad) (BitVec.ofNat 64 v))
  | .barWrite v => openWrite s a.addr a.len v.toNat
  | .piece src p off =>
    match s.cmds.find? (isCmd src p) with
    | some h => fenceSettle (pieceEff s h off a.addr a.len)
    | none => s

/-- A host access not served within the lifetime of R16: a BAR4 read completes with Completer Abort, a write is lost, and a copy ends
with an error status the spec does not give (log 126). -/
def hostLate (s0 : State) (a : HostAcc) : State :=
  let s := bump s0 rOPN_DROP0 fOPN_DROP0_EXPIRED
  match a.who with
  | .barRead fn tag => emit s (.completion fn tag 2 0)
  | .barWrite _ => s
  | .piece src p _ =>
    match s.cmds.find? (isCmd src p) with
    | some h => if h.info ≠ 0 then refuse s h stAborted else let (v, s1) := draw s; refuse s1 h (1 + v.toNat % 65535)
    | none => s

/-! ### Whose turn it is (R89, R185) -/

/-- The stores in which open-class accesses wait. -/
inductive Waiters where
  | inb
  | resp
  | host
  deriving DecidableEq, Repr

/-- The first entry of a list that needs an access p accepts: its arrival tick, and its needs. -/
def firstFor (p : Need → Bool) (l : List (Nat × List Need)) : Option (Nat × List Need) := l.find? fun e => e.2.any p

/-- What waits in each store, with its arrival tick. -/
def waitersOf (s : State) : Waiters → List (Nat × List Need)
  | .inb => s.inb.map fun i => (i.at_, i.needs)
  | .resp => s.respW.map fun r => (r.at_, r.needs)
  | .host => s.hostAcc.map fun a => (a.at_, a.needs)

/-- The oldest entry that waits for an access p accepts: the store it is in, and what it needs. -/
def turnOf (s : State) (p : Need → Bool) : Option (Waiters × List Need) :=
  ([Waiters.inb, .resp, .host].foldl (fun (best : Option (Nat × Waiters × List Need)) w =>
    match firstFor p (waitersOf s w), best with
    | some e, some b => if e.1 < b.1 then some (e.1, w, e.2) else best
    | some e, none => some (e.1, w, e.2)
    | none, _ => best) none).map (·.2)

/-- The first entry with an access p accepts has access n served. -/
def serveIn {α : Type} (needs : α → List Need) (put : α → List Need → α) (p : Need → Bool) (n : Need) : List α → List α
  | [] => []
  | a :: as => if (needs a).any p then put a ((needs a).erase n) :: as else a :: serveIn needs put p n as

/-- Returned data all of whose lines are written: the buffer holds it, and the request completes (R186). -/
def settleResp (s : State) : State :=
  s.respW.foldl (fun s r =>
    if r.needs = [] then
      let s1 := { s with respW := s.respW.filter (·.key ≠ r.key) }
      let s2 := openWrite s1 r.addr (8 * r.data.length) (r.data.foldr (fun w a => w.toNat + 2 ^ 64 * a) 0)
      match s2.outst.find? (·.key = r.key) with
      | some o => okReq s2 o (s.now + 1)
      | none => s2
    else s) s

/-- Host accesses all of whose accesses are served take their effect. -/
def settleHost (s : State) : State :=
  (s.hostAcc.filter fun a => a.needs = []).foldl hostEff { s with hostAcc := s.hostAcc.filter fun a => a.needs ≠ [] }

/-- Access n served for the entry whose turn it is. -/
def serve (s : State) (p : Need → Bool) (w : Waiters) (n : Need) : State :=
  match w with
  | .inb => { s with inb := serveIn (·.needs) (fun i ns => { i with needs := ns }) p n s.inb }
  | .resp => settleResp { s with respW := serveIn (·.needs) (fun r ns => { r with needs := ns }) p n s.respW }
  | .host => settleHost { s with hostAcc := serveIn (·.needs) (fun a ns => { a with needs := ns }) p n s.hostAcc }

/-! ### OPEN_SRAM_ACCESS (R46, R48, R238) -/

/-- A word of a channel departs d ticks after its step start (R240). -/
def departsAt (e : Chan) (d : Nat) : Bool :=
  e.dkind ≠ 0 && decide (e.first ≤ d) && decide (0 < e.count) &&
    (decide (d - e.first ≤ e.burst) ||
      (decide (0 < e.period) && decide ((d - e.first) / e.period < e.count) && decide ((d - e.first) % e.period ≤ e.burst)))

/-- The schedule uses tile t's mesh port outward in the present tick, or an open-class word has (R238). -/
def portOutBusy (s : State) (t : Nat) : Bool :=
  (getTile s t).portOut = s.now + 1 ||
    (match (getTile s t).own with
     | some c =>
       let x := getCtx s c
       meshRuns x && decide (x.stepStart ≤ s.now) &&
         (match x.image with
          | some p => (match p.chans.find? (·.1 = t) with | some e => e.2.any fun ch => departsAt ch (s.now - x.stepStart) | none => false)
          | none => false)
     | none => false)

/-- A word of the schedule arrives at tile t's mesh port in the present tick, or a word has (R238). -/
def portInBusy (s : State) (t : Nat) : Bool :=
  (getTile s t).portIn = s.now + 1 ||
    s.flight.any fun f =>
      decide (f.arrive ≤ s.now) &&
        (match (getCtx s f.ctx).image with
         | some p => (match chanAt p f.src f.chan with | some e => e.dkind = 1 && e.dest = t | none => false)
         | none => false)

/-- The tile's SRAM can serve a line to an open-class access in the present cc: its memory slot is idle, the bank is free, the limit
of 16 lines has room, and the mesh port is idle in that direction (R46, R48, R238), against what the cc's bundle has issued so far
(log 128). -/
def sramFree (s : State) (t u : Nat) (wr_ : Bool) : Bool :=
  let x := getTile s t
  let ls := (actsNow x).map Act.lines
  let rs := ls.flatMap (·.1)
  let ws := ls.flatMap (·.2)
  !x.memBusy && !((rs ++ ws ++ x.openRd ++ x.openWr).any fun v => bankOf v = bankOf u) && !x.blocked.contains (bankOf u) &&
    decide ((if wr_ then ws.length + x.openWr.length else rs.length + x.openRd.length) < 16) &&
    !(if wr_ then portInBusy s t else portOutBusy s t)

/-- The line is marked used by an open-class access in the present cc, and the port in the present tick. -/
def markOpen (s : State) (t u : Nat) (wr_ : Bool) : State :=
  modTile s t fun x => if wr_ then { x with openWr := u :: x.openWr, portIn := s.now + 1 } else { x with openRd := u :: x.openRd, portOut := s.now + 1 }

/-- The access of a list that tile t can serve now. -/
def sramServable (s : State) (t : Nat) : Need → Bool
  | .sram n w => decide (n / 2 ^ 19 = t) && sramFree s t (n % 2 ^ 19) w
  | .period _ => false

/-- OPEN_SRAM_ACCESS (R48): one line of a tile's SRAM for the oldest access that waits for the tile. -/
def execOpenSramAccess (t : TileId) (s : State) : Out :=
  if rd s (rCLK_ZONE_CTL (zoneOf t)) fCLK_ZONE_CTL_STOPPED = 1 || zoneDeep s (zoneOf t) then .next s
  else match turnOf s (Need.onTile t) with
    | none => .next s
    | some (w, ns) =>
      match ns.find? (sramServable s t) with
      | some (.sram n wr_) => .next (serve (markOpen s t (n % 2 ^ 19) wr_) (Need.onTile t) w (.sram n wr_))
      | _ => .next s

/-! ### OPEN_LPDDR_ACCESS (R89) -/

/-- A period of a channel goes to an open-class access (R88, R329). -/
def openPeriod (s : State) (ch : Nat) : State :=
  useChan { s with lpOpen := tset (fun _ => 0) s.lpOpen (groupOf ch) (tget (fun _ => 0) s.lpOpen (groupOf ch) + 1) } ch s.now

/-- OPEN_LPDDR_ACCESS (R89): one period of a channel that no plan and no refresh uses, for the oldest access that waits for its
controller group. -/
def execOpenLpddrAccess (ch : ChanId) (s : State) : Out :=
  if !chanFree s ch then .next s
  else match turnOf s (Need.onGroup (groupOf ch)) with
    | none => .next s
    | some (w, ns) =>
      if ns.contains (.period ch) then .next (serve (openPeriod s ch) (Need.onGroup (groupOf ch)) w (.period ch)) else .next s

/-! ### OPEN_PACKET_LIFETIME_EXPIRY (R16, R185, R305) -/

/-- What of the work that waits for Rank entries has expired: requests, and responses. -/
def rankLate (s : State) (w : RankWait) : Bool :=
  match w.work with
  | .req p => expired s p.birth
  | .resp p _ _ _ _ => expired s p.birth
  | .note _ => false

/-- OPEN_PACKET_LIFETIME_EXPIRY: accesses not served and requests not executed within their lifetime. -/
def execOpenPacketLifetimeExpiry (s : State) : Out :=
  let late (t : Nat) : Bool := decide (t + 1200000 ≤ s.now)
  let dead := s.inb.filter fun i => expired s i.pkt.birth
  let s1 := { s with inb := s.inb.filter fun i => !expired s i.pkt.birth, respW := s.respW.filter fun r => !late r.at_
                     hostAcc := s.hostAcc.filter fun a => !late a.at_, rankQ := s.rankQ.filter fun w => !rankLate s w }
  let s2 := dead.foldl (fun s i =>
    let s := bump s rOPN_DROP0 fOPN_DROP0_EXPIRED
    match i.local_ with | some k => failKey s k 0x10 | none => s) s1
  let s3 := (s.respW.filter fun r => late r.at_).foldl (fun s r => failKey (bump s rOPN_DROP0 fOPN_DROP0_EXPIRED) r.key 0x10) s2
  let s4 := (s.hostAcc.filter fun a => late a.at_).foldl hostLate s3
  .next (bumpBy s4 rOPN_DROP0 fOPN_DROP0_EXPIRED (s.rankQ.filter (rankLate s)).length)

end Machine
end Sys2Proof
end

