-- ==== Sys2Proof/Machine/Reset.lean ====
section
/-! DEFINITION. Context reset and close (12 R277, R286 to R288), the abort of earlier commands (13 R318), and the start and
failure of a device recovery (12 R293, R295). -/
namespace Sys2Proof
namespace Machine

/-! ### Device recovery (R293, R295) -/

/-- PHASE of GAF_RECOVERY follows the recovery (R294). -/
def setRecPhase (s : State) (n : Nat) : State :=
  { wr s rGAF_RECOVERY fGAF_RECOVERY_PHASE n with recPhase := n, recStep := s.now }

/-- The contexts a recovery closes: every open one that is not forwarding-only (R278, R293). -/
def recovCtxs (s : State) : List CtxId := allCtx.filter fun c => (getCtx s c).st ≠ .closed && !(getCtx s c).fwOnly

/-- HANG 0x007, whatever has stopped the context before (R293). -/
def recovNote (s : State) (c : CtxId) (cause : Nat) : State :=
  faultPush s (mkRec s (some c) true s.now { hangInfo 7 c with d0 := cause })

/-- A context the recovery closes gives up its plan; its slots depart as VOID until the recovery ends (R137), and the records
of its stop still find their context (R283). FWD_OWN stays as it is (R12). -/
def recovTake (s : State) (c : CtxId) : State :=
  let x := getCtx s c
  let s1 := { s with recov := s.recov ++ [(c, x)] }
  setCtx s1 c { Ctx.zero with
    gen := x.gen, genLeft := x.genLeft, st := .closing, vfOwn := x.vfOwn, vector := x.vector, codes := x.codes, first := x.first
    firstSeq := x.firstSeq, more := x.more }

/-- The PEER_RESET control word of a kind (R162, R163). -/
def peerResetWord (k : Nat) : Nat := 0x05 * 2 ^ 56 + k

/-- The count of recoveries (R300). -/
def recovCount (s : State) : State := bump s rGAF_RECOVERY fGAF_RECOVERY_COUNT

/-- A recovery fails: PEER_RESET 0x03, HANG 0x008 with the phase, DEAD, and an event over the sideband (R295, R333). -/
def recovFail (s : State) : State :=
  let s1 := note (ctrlAll s (peerResetWord 3)) none { faultInfo 0x9008 15 0 0 with d0 := s.recPhase }
  tellState s (emit { wr s1 rGAF_RECOVERY fGAF_RECOVERY_DEAD 1 with recPhase := 0 } .ibi)

def isPiece (a : HostAcc) : Bool := match a.who with | .piece .. => true | _ => false

/-- Device recovery begins (R293): HANG 0x007 for each context it closes, commands dropped without replies (R318), phase 1,
and PEER_RESET 0x01 on every UP link. A trigger during a recovery fails it (R295). -/
def recovStart (s : State) (cause : Nat) : State :=
  if dead s || s.pwr.quenched then s
  else if s.recPhase ≠ 0 then recovFail s
  else
    let cs := recovCtxs s
    let s1 := cs.foldl (fun s c => recovNote s c cause) s
    let s2 := cs.foldl recovTake s1
    let who := (s.cmds.filter fun h => h.src = .sideband).map (·.who)
    let s3 := { s2 with cmds := [], hang := HangSt.zero, recAt := s.now, hostAcc := s2.hostAcc.filter fun a => !isPiece a
                        sbd := { s2.sbd with busy := s2.sbd.busy.filter fun w => !who.contains w }
                        boot := { s2.boot with lcAt := none } }
    tellState s (ctrlAll (setRecPhase (recovCount (wr s3 rGAF_HANG_STATUS fGAF_HANG_STATUS_SUSPECTS 0)) 1) (peerResetWord 1))

/-! ### The purge of each engine (R287) -/

/-- An open request to the context is answered NO_CONTEXT; a multicast is dropped; one of the local path completes at the
context that sent it (R185, R287). -/
def noContext (s : State) (i : Inb) : State :=
  match i.local_ with
  | some k => failKey s k 3
  | none => if i.pkt.mc then s else respond s i.pkt i.ctx 3 [] (s.now + 16) false

/-- The requests to a context that satisfy a test leave the inbound store unserved; those of its own local path go with
their outstanding entries. -/
def purgeInb (s : State) (c : CtxId) (q : Inb → Bool) : State :=
  let own := (s.outst.filter fun o => o.ctx = c).map (·.key)
  let mine (i : Inb) : Bool := match i.local_ with | some k => own.contains k | none => false
  let out := s.inb.filter fun i => q i && (decide (i.ctx = some c) || mine i)
  (out.filter fun i => !mine i).foldl noContext { s with inb := s.inb.filter fun i => !out.contains i }

def Need.isSram : Need → Bool
  | .sram _ _ => true
  | .period _ => false
def tileNeeds (i : Inb) : Bool := i.needs.any Need.isSram
def chanNeeds (i : Inb) : Bool := i.needs.any fun n => !n.isSram

/-- Pieces of the context's host copies that satisfy a test are removed, and their copies end with ABORTED (R287, R318). -/
def purgeCopies (s : State) (c : CtxId) (q : HostAcc → Bool) : State :=
  let mine (a : HostAcc) : Bool := match a.who with | .piece _ p _ => decide (pctx p = c) && q a | _ => false
  (s.hostAcc.filter mine).foldl (fun s a =>
    match a.who with
    | .piece src p _ => (match s.cmds.find? (isCmd src p) with | some h => refuse s h stAborted | none => s)
    | _ => s) { s with hostAcc := s.hostAcc.filter fun a => !mine a }

/-- A purged tile: issue stops, boxes and crossing buffers are empty, a pending BLOAD is cancelled. -/
def purgeTile (x : Tile) : Tile :=
  { x with st := .idle, stall := none, outbox := [], xout := [], inbox := [], xin := [], blkFrom := [], made := [], isOpen := false
           acts := x.acts.filter fun a => match a.2 with | .rdB _ _ => false | .rdOut _ _ _ => false | .wrIn _ _ _ => false | _ => true }

def ctxTileList (x : Ctx) : List Nat := (List.range 256).filter fun t => x.tiles.getLsbD t
def ctxEngList (x : Ctx) : List Nat := (List.range 32).filter fun g => x.engines.getLsbD g

def purgeTiles (s : State) (c : CtxId) : State :=
  purgeInb (forTiles s (ctxTileList (getCtx s c)) purgeTile) c tileNeeds

/-- Whether an increment would reach a counter of the context. -/
def ctrOf (x : Ctx) : CtrRef → Bool
  | .chip n => decide (x.ctrBase ≤ n) && decide (n < x.ctrBase + x.ctrLen)
  | .tile t _ => x.tiles.getLsbD t

def purgeSync (s : State) (c : CtxId) : State :=
  let x := getCtx s c
  let s1 := forTiles s (ctxTileList x) fun y =>
    { y with punty := [], incs := [], acts := y.acts.filter fun a => match a.2 with | .pun _ _ => false | _ => true }
  { s1 with chip := s1.chip.filter fun e => !ctrOf x (.chip e.1)
            syncNet := s1.syncNet.filter fun i => !ctrOf x i.ctr }

def purgeMesh (s : State) (c : CtxId) : State :=
  chanRestart { s with flight := s.flight.filter fun f => f.ctx ≠ c, deliv := s.deliv.filter fun d => d.ctx ≠ c } c

def purgeEngines (s : State) (c : CtxId) : State :=
  forEngs s (ctxEngList (getCtx s c)) fun e => { Engine.zero with own := e.own, lastEnd := e.lastEnd, slot := e.slot, blocks := e.blocks }

/-- Every entry of an image set to KIND none. -/
def noSlots (p : Plan) : Plan :=
  { p with beads := p.beads.map fun b =>
      { b with tx := b.tx.map fun r => r.map fun e => { e with kind := 0 }, rx := b.rx.map fun r => r.map fun e => { e with kind := 0 } } }

/-- The Lehr of a link without the beads at the positions of a mask. -/
def purgeLehr (s : State) (l : Nat) (m : W64) : State :=
  let s1 := modLink s l fun x => { x with lehr := x.lehr.filter fun e => !m.getLsbD (e.1 % 64) }
  wr s1 (rFWD_LNK_LEHR l) fFWD_LNK_LEHR_NOW ((getLink s1 l).lehr.filter fun e => e.2.isSome).length

def purgeFwd (s : State) (c : CtxId) : State :=
  let x := getCtx s c
  let s1 := (List.range 24).foldl (fun s l => if ownMask s c l = 0 then s else purgeLehr s l (ownMask s c l)) s
  let s2 := { s1 with rel := s1.rel.filter fun r => r.ctx ≠ c, foldB := s1.foldB.filter fun f => f.ctx ≠ c }
  match x.image with
  | some p =>
    modCtx { s2 with abuf := s2.abuf.filter fun e => !(decide (32 * p.bankBase ≤ e.1) && decide (e.1 < 32 * (p.bankBase + p.banks))) }
      c fun x => { x with image := some (noSlots p) }
  | none => s2

/-- DONE of a Rank entry set to ISSUED. -/
def rankSettle (ws : List W64) : List W64 := setField ws 2 rkDone (getField ws 2 rkIssued)

/-- The Rank entries of a context that hold anything, in the table region or in the cache. -/
def rankUsed (s : State) (c : Nat) : List Nat :=
  let lo := rankAddr c 0
  ((s.mem.filter fun e => decide (lo ≤ e.1) && decide (e.1 < lo + 0x400000)).map fun e => (e.1 - lo) / 64).eraseDups ++
    ((s.rankC.filter fun e => e.1 / 65536 = c).map fun e => e.1 % 65536)

def purgeNi (s : State) (c : CtxId) : State :=
  let s1 := purgeInb s c fun i => i.needs = [] || (match i.local_ with | some k => s.outst.any fun o => o.key = k && o.ctx = c | none => false)
  let keys := (s1.outst.filter fun o => o.ctx = c).map (·.key)
  let s2 := { s1 with reqq := s1.reqq.filter fun e => e.1 ≠ c
                      outst := s1.outst.filter fun o => o.ctx ≠ c
                      respW := s1.respW.filter fun r => !keys.contains r.key
                      rankQ := s1.rankQ.filter fun w => !(decide (w.ctx = c) && (match w.work with | .resp .. => false | _ => true)) }
  let reqs := s1.rankQ.filterMap fun w => match w.work with | .req p => if w.ctx = c then some p else none | _ => none
  let s3 := (rankUsed s2 c).foldl (fun s r => rankMod s c r rankSettle) (reqs.foldl (fun s p => respond s p (some c) 3 [] (s.now + 16) false) s2)
  wr s3 (rOPN_CTX_CNT c) fOPN_CTX_CNT_DONE (rd s3 (rOPN_CTX_CNT c) fOPN_CTX_CNT_ISSUED)

/-- What each engine does when it purges a context, in the bit order of PENDING (R287). -/
def purgeEff (s : State) (c : CtxId) (e : Nat) : State :=
  match e with
  | 0 => purgeTiles s c
  | 1 => purgeSync s c
  | 2 => purgeMesh s c
  | 3 => purgeEngines s c
  | 4 => purgeFwd s c
  | 5 => purgeNi s c
  | 6 => purgeCopies (purgeInb s c chanNeeds) c fun a => a.needs.any fun n => !n.isSram
  | _ => twinClear s c

/-! ### The reset (R277, R286) -/

/-- The next generation may become current (R277). -/
def genFree (x : Ctx) (now : Nat) : Bool :=
  match tget (fun _ => none) x.genLeft (x.gen + 1).toNat with
  | some t => decide (t + 1200000 ≤ now)
  | none => true

/-- The reset completes: GEN advances, the plan enters NONE and the context returns to OPEN, to REPLAY where the detector
holds it, or goes on to the wipe of a close; resets waiting for it reply (R286, R288, R291). -/
def resetDone (s : State) (c : CtxId) : State :=
  let s1 := modCtx s c fun x =>
    { x with plan := .none, image := none, fwOnly := false, gen := x.gen + 1
             genLeft := tset (fun _ => none) x.genLeft x.gen.toNat (some s.now)
             launchAt := 0, lateArm := false, ran := false, fwdStop := none, stepCtr := 0, stepStart := 0, faultTick := none
             stopped := false, codes := [], first := 0, firstSeq := 0, more := 0, purge := none, endStep := none
             wiping := x.toClose
             st := if x.toClose then .closing else if x.replay.isSome then .replay else .opened }
  let s2 := floorUpdate (purgeCopies s1 c fun _ => true)
  finishAll s2 (fun h => pcode h.pkt = 0x12 && pctx h.pkt = c) fun s h => done s h (getCtx s c).gen.toNat

/-- Once every engine has acknowledged, the reset completes unless the guard of R277 delays it. -/
def resetTry (s : State) (c : CtxId) : State :=
  let x := getCtx s c
  match x.purge with
  | some p => if p.pending = 0 && genFree x s.now then resetDone s c else s
  | none => s

/-- A reset begins (R286): RESETTING, the stop of R282 without a record if the context has not stopped, and the purge. A plan
that is loaded and has not ended enters FAULTED; NONE and COMPLETE stay what they are (log 132). -/
def resetStart (s : State) (c : CtxId) (close : Bool) (replay : Option Nat) : State :=
  modCtx s c fun x =>
    let stop := x.plan = .parison || x.plan = .armed || x.plan = .running
    { x with st := .resetting, toClose := close, replay := replay
             plan := if stop then .faulted else x.plan
             faultTick := match x.faultTick with | some f => some f | none => some s.now
             purge := some { began := s.now, pending := 255 } }

/-- Earlier unfinished commands of the context end with ABORTED, whatever window they came from; a copy ends after the piece it is
moving (R318). -/
def abortEarlier (s : State) (h : HeldCmd) : State :=
  let old := (cmdsBefore s h.src h.pkt).filter fun k => decide (pctx k.pkt = pctx h.pkt) && !isReset k
  old.foldl (fun s k => if isCopy k && k.started then hold s k 1 else refuse s k stAborted) s

/-- CTX_RESET and CTX_CLOSE start: a context in replay leaves it with no outcome record (R297), and one that a reset of the
detector holds is left to finish first (R318). -/
def resetBody (close : Bool) (s : State) (h : HeldCmd) : State :=
  let c := pctx h.pkt
  let x := getCtx s c
  if x.st = .resetting || x.st = .closing then s
  else
    let s1 := abortEarlier s h
    let s2 := if x.st = .replay then replayEnd (suspectOut s1 c) else s1
    hold (resetStart s2 c close none) h 0

/-- CTX_RESET (R286, R318, R319). -/
def execCtxReset (src : Src) (p : Packet) (s : State) : Out := simpleCmd s src p 0x12 (resetBody false)

/-- CTX_CLOSE (R288, R318, R319). -/
def execCtxClose (src : Src) (p : Packet) (s : State) : Out := simpleCmd s src p 0x11 (resetBody true)

/-- PURGE_ACK (R286, R287): before the deadline, the engine's purge is done and its bit of PENDING clears. -/
def execPurgeAck (c : CtxId) (e : PurgeEngine) (s : State) : Out :=
  match (getCtx s c).purge with
  | some p =>
    if !p.pending.getLsbD e || decide (p.began + 120000 ≤ s.now) then .next s
    else
      let s1 := modCtx (purgeEff s c e) c fun x => { x with purge := some { p with pending := p.pending &&& ~~~ (1#8 <<< e.val) } }
      .next (resetTry s1 c)
  | none => .next s

/-- PURGE_DEADLINE (R286): an engine has not acknowledged by 120,000 ticks; HANG 0x006 and device recovery. A second one at
the tick a recovery began starts no other (R297). -/
def execPurgeDeadline (c : CtxId) (s : State) : Out :=
  match (getCtx s c).purge with
  | some p =>
    if p.pending = 0 || decide (s.now < p.began + 120000) then .next s
    else
      let s1 := note s none { faultInfo 0x9006 15 0 0 with d0 := p.pending.toNat + 256 * c.val }
      .next (if s.recPhase ≠ 0 && s.recAt = s.now then s1 else recovStart s1 1)
  | none => .next s

/-- GEN_GUARD_EXPIRY (R277). -/
def execGenGuardExpiry (c : CtxId) (s : State) : Out := .next (resetTry s c)

/-! ### The close (R288) -/

/-- The wipe of a tile's SRAM, of a region, of a context's Rank table and of its plan staging area (R83, R105, R288). -/
def wipeTile (s : State) (t : Nat) : State := memWipe s (sramAddr t 0) 0x2000000
def wipeRegion (s : State) (c r : Nat) : State :=
  match rgnOf s c r with | some (a, b) => memWipe s a (b - a) | none => s
def wipeRanks (s : State) (c : Nat) : State :=
  { memWipe s (rankAddr c 0) 0x400000 with rankC := s.rankC.filter fun e => e.1 / 65536 ≠ c }
def wipeStaging (s : State) (c : Nat) : State := memWipe s (stagingAddr c) 0x100000000

/-- Twin mode ends when its context closes (R269). -/
def twinOff (s : State) (c : Nat) : State :=
  if twinOn s c then { wr s rDET_TWIN_CTL fDET_TWIN_CTL_ENABLE 0 with twin := TwinSt.zero } else s

/-- Every resource of a context is released: its units, its positions and its regions. -/
def release (s : State) (c : CtxId) : State :=
  let x := getCtx s c
  let s1 := forEngs (forTiles (twinOff s c) (ctxTileList x) fun y => { y with own := none }) (ctxEngList x) fun y => { y with own := none }
  let s2 := (List.range 24).foldl (fun s l => regSet s (rFWD_OWN c l) 0) s1
  let s3 := (List.range 8).foldl (fun s r => regSet (regSet s (rMEM_CTX_RGN c r) 0) (rMEM_CTX_RGN_LIM c r) 0) s2
  let s4 := wr (regSet s3 (rOPN_CTX_ID c) 0) (rDET_CTX_CTL c) fDET_CTX_CTL_DM 0
  setCtx s4 c { Ctx.zero with gen := x.gen, genLeft := x.genLeft, rs := x.rs }

/-- CLOSE_WIPE_COMPLETE (R288): the wipe is done, and the context is CLOSED. -/
def execCloseWipeComplete (c : CtxId) (s : State) : Out :=
  let x := getCtx s c
  if !x.wiping then .next s
  else
    let s1 := (ctxTileList x).foldl wipeTile s
    let s2 := (List.range 8).foldl (fun s r => wipeRegion s c r) s1
    let s3 := pd31Settle (release (wipeStaging (wipeRanks s2 c) c) c)
    .next (finishAll s3 (fun h => pcode h.pkt = 0x11 && pctx h.pkt = c) fun s h => done s h (getCtx s c).gen.toNat)

end Machine
end Sys2Proof
end

