-- ==== Sys2Proof/Machine/Host.lean ====
section
/-! DEFINITION. The Marver windows (13 R312 to R314), NOP, CTX_OPEN (R320), host copies (R323) and FENCE (R324). -/
namespace Sys2Proof
namespace Machine

/-! ### The window ring (R311 to R313) -/

/-- Key of 64-bit word k of unit u of window w; units wrap at 16,384. -/
def ringKey (w u k : Nat) : Nat := 131072 * w + 8 * (u % 16384) + k
def winWord (s : State) (w u k : Nat) : W64 := tget (fun _ => 0) s.winMem (ringKey w u k)
def winTake (s : State) (w : Nat) : Nat := rd s (rHST_WIN w) fHST_WIN_TAKE
def winExpect (s : State) (w : Nat) : Nat := rd s (rHST_WIN w) fHST_WIN_EXPECT
/-- Bytes 28 to 31 of a unit. -/
def winSeq (s : State) (w u : Nat) : Nat := fget ⟨63, 32⟩ (winWord s w u 3)
/-- The packet at TAKE is valid (R312). -/
def winValid (s : State) (w : Nat) : Bool := winSeq s w (winTake s w) = winExpect s w
/-- Units of the packet at TAKE: a LENGTH outside 1 to 64 counts as one (R314). -/
def winUnits (s : State) (w : Nat) : Nat :=
  let n := fget ⟨63, 48⟩ (winWord s w (winTake s w) 0)
  if n < 1 || 64 < n then 1 else n

/-- The packet at TAKE (R311). -/
def winPacket (s : State) (w : Nat) : Packet :=
  let u := winTake s w
  let ws := (List.range (8 * winUnits s w)).map fun i => winWord s w (u + i / 8) (i % 8)
  let x (i : Nat) : W64 := ws.getD i 0
  { opcode := BitVec.ofNat 16 (fget ⟨15, 0⟩ (x 0)), flags := BitVec.ofNat 16 (fget ⟨31, 16⟩ (x 0)), context := BitVec.ofNat 8 (fget ⟨39, 32⟩ (x 0))
    gen := BitVec.ofNat 8 (fget ⟨47, 40⟩ (x 0)), length := BitVec.ofNat 16 (fget ⟨63, 48⟩ (x 0)), reply := x 1
    tag := BitVec.ofNat 32 (fget ⟨31, 0⟩ (x 2)), rsv := BitVec.ofNat 64 (fget ⟨63, 32⟩ (x 2) + 2 ^ 32 * fget ⟨31, 0⟩ (x 3))
    seq := BitVec.ofNat 32 (fget ⟨63, 32⟩ (x 3)), payload := ws.drop 4 }

/-- The function that wrote the word which made a unit valid (R302). -/
def winSrc (s : State) (w : CtxId) : Src := if tget (fun _ => false) s.winVf (16384 * w + winTake s w) then .vf w else .pf w

/-- An error of a window is counted and reported (R310, R312, R313). -/
def winError (s : State) (w : Nat) (f : Fld) : State := hostEvent (bump s (rHST_WIN_ERR w) f) 7 w

/-- A write to a window: discarded in a valid packet, a wrong nonzero sequence at TAKE ignored (R312, R313). -/
def windowPut (s : State) (w : CtxId) (vf : Bool) (off : Nat) (wide : Bool) (data : W64) : State :=
  let u := off / 64 % 16384
  let k := off / 8 % 8
  let high := wide || decide (4 ≤ off % 8)
  let old := winWord s w u k
  let hi := if wide then fget ⟨63, 32⟩ data else fget ⟨31, 0⟩ data
  if winValid s w && decide ((u + 16384 - winTake s w) % 16384 < winUnits s w) then winError s w fHST_WIN_ERR_OVERWRITE
  else
    let bad := k = 3 && high && u = winTake s w && hi ≠ 0 && hi ≠ winExpect s w
    let v1 := if high && !bad then fset ⟨63, 32⟩ old hi else old
    let v2 := if wide || !high then fset ⟨31, 0⟩ v1 (fget ⟨31, 0⟩ data) else v1
    let s1 := { s with winMem := tset (fun _ => 0) s.winMem (ringKey w u k) v2
                       winVf := if k = 3 && high && !bad then tset (fun _ => false) s.winVf (16384 * w + u) vf else s.winVf }
    if bad then winError s1 w fHST_WIN_ERR_BAD_SEQ else s1

/-- WINDOW_WRITE (R312, R313). -/
def execWindowWrite (src : Src) (off : BitVec 20) (wide : Bool) (data : BitVec 64) (s : State) : Out :=
  match src with
  | .pf c => .next (windowPut s c false off.toNat wide data)
  | .vf c => .next (windowPut s c true off.toNat wide data)
  | .sideband => .next s

/-- The sequence after n (R312). -/
def nextSeq (n : Nat) : Nat := if n = 0xFFFFFFFF then 1 else n + 1

/-- The packet at TAKE leaves the window. -/
def winAdvance (s : State) (w : Nat) : State :=
  let s1 := wr (wr s (rHST_WIN w) fHST_WIN_EXPECT (nextSeq (winExpect s w))) (rHST_WIN w) fHST_WIN_TAKE ((winTake s w + winUnits s w) % 16384)
  wr s1 (rHST_WIN_TAKEN w) fHST_WIN_TAKEN_COUNT (rd s1 (rHST_WIN_TAKEN w) fHST_WIN_TAKEN_COUNT + 1)

/-- PACKET_TAKE (R308, R312, R314): a valid packet is taken unless the window holds 64 commands or the link stream is insecure. -/
def execPacketTake (w : WinId) (s : State) : Out :=
  if h : w.val < 8 then
    let c : CtxId := ⟨w.val, h⟩
    let src := winSrc s c
    let n := (s.cmds.filter fun k => winOf k.src = c.val).length
    if !winValid s c || !served s src || decide (64 ≤ n) || tget (fun _ => false) s.ideBad 15 then .next s
    else .next (takePacket (winAdvance s c) src 0 (winPacket s c))
  else .next s

/-- NOP (R319). -/
def execNopCommand (src : Src) (p : Packet) (s : State) : Out := simpleCmd s src p 1 fun s h => done s h 0

/-! ### CTX_OPEN (R275, R320) -/

/-- The first of n free chip-wide counters in a row (R55); the lowest such range is given. -/
def freeCounters (s : State) (n : Nat) : Option Nat :=
  if n = 0 then some 0
  else
    let used := allCtx.filterMap fun (c : CtxId) => let x := getCtx s c; if x.st = .closed || x.ctrLen = 0 then none else some (x.ctrBase, x.ctrBase + x.ctrLen)
    let starts := 0 :: used.map (·.2)
    let good (a : Nat) : Bool := decide (a + n ≤ 4096) && used.all fun u => decide (a + n ≤ u.1) || decide (u.2 ≤ a)
    (starts.filter good).foldl (fun m a => match m with | some b => some (min a b) | none => some a) none

/-- A mask names a flux position of its link (R113, R114). -/
def fluxMask (s : State) (l : Nat) (m : W64) : Bool := (List.range 64).any fun i => m.getLsbD i && isFlux (fluxN s l) i

/-- The tiles, and the engines, of a CTX_OPEN. -/
def openTiles (p : Packet) : BitVec 256 := BitVec.ofNat 256 ((List.range 4).foldl (fun a i => a + (pw p (2 + i)).toNat * 2 ^ (64 * i)) 0)
def openEngines (p : Packet) : BitVec 32 := BitVec.ofNat 32 (pf p 1 31 0)

/-- LPDDR region r of a CTX_OPEN as its first and last 2 MiB unit. -/
def openRegion (p : Packet) (r : Nat) : Option (Nat × Nat) := if pf p (6 + r) 63 63 = 1 then some (pf p (6 + r) 19 0, pf p (6 + r) 51 32) else none

/-- A resource another open context holds (R320). -/
def openClash (s : State) (p : Packet) : Bool :=
  (allCtx.filter fun (c : CtxId) => (getCtx s c).st ≠ .closed).any fun (c : CtxId) =>
    let x := getCtx s c
    x.tiles &&& openTiles p ≠ 0 || x.engines &&& openEngines p ≠ 0 ||
      ((List.range 24).any fun l => ownMask s c l &&& pw p (14 + l) ≠ 0) ||
      (List.range 8).any fun r => match openRegion p r with
        | some (a, b) => (List.range 8).any fun q => match rgnOf s c q with
          | some (lo, hi) => decide (2 ^ 21 * a < hi) && decide (lo < 2 ^ 21 * (b + 1))
          | none => false
        | none => false

/-- The context opens with its resources (R275). -/
def openCtx (s : State) (c : CtxId) (p : Packet) (base : Nat) : State :=
  let dm := pf p 0 63 63
  let s1 := modCtx s c fun x =>
    { x with st := .opened, plan := .none, vfOwn := pf p 0 62 62 = 1, tiles := openTiles p, engines := openEngines p, ctrBase := base
             ctrLen := pf p 0 12 0, job := BitVec.ofNat 12 (pf p 0 59 48), rank := BitVec.ofNat 16 (pf p 0 47 32), dm := dm = 1
             vector := pf p 1 63 54 }
  let x := getCtx s1 c
  let s2 := forEngs (forTiles s1 (ctxTileList x) fun y => { y with own := some c }) (ctxEngList x) fun y => { y with own := some c }
  let s3 := (List.range 24).foldl (fun s l => regSet s (rFWD_OWN c l) (pw p (14 + l))) s2
  let s4 := (List.range 8).foldl (fun s r => match openRegion p r with
    | some (a, b) => wr (wr (wr s (rMEM_CTX_RGN c r) fMEM_CTX_RGN_VALID 1) (rMEM_CTX_RGN c r) fMEM_CTX_RGN_UNIT a) (rMEM_CTX_RGN_LIM c r) fMEM_CTX_RGN_LIM_UNIT b
    | none => s) s3
  let id := fset fOPN_CTX_ID_VALID (fset fOPN_CTX_ID_DM (fset fOPN_CTX_ID_JOB (fset fOPN_CTX_ID_RANK 0 x.rank.toNat) x.job.toNat) dm) 1
  wr (regSet s4 (rOPN_CTX_ID c) id) (rDET_CTX_CTL c) fDET_CTX_CTL_DM dm

/-- CTX_OPEN (R275, R320, R384, R400). -/
def openBody (s : State) (h : HeldCmd) : State :=
  let p := h.pkt
  let c := pctx p
  if (List.range 24).any fun l => fluxMask s l (pw p (14 + l)) then refuse s h stBadParam
  else if (getCtx s c).st ≠ .closed || rd s rGAF_LOCATION fGAF_LOCATION_GID_VALID = 0 then refuse s h stState
  else if s.boot.lcAt.isSome then refuse s h stBusy
  else if openClash s p then refuse s h stNoResource
  else match freeCounters s (pf p 0 12 0) with
    | none => refuse s h stNoResource
    | some b => done (openCtx s c p b) h (b + 2 ^ 16 * (getCtx s c).gen.toNat)

/-- CTX_OPEN (R320). -/
def execCtxOpen (src : Src) (p : Packet) (s : State) : Out := simpleCmd s src p 0x10 openBody

/-! ### Host copies (R323) -/

/-- A copy whose range passes its check is held while its pieces move, the first at once (R323). -/
def startCopy (s : State) (h : HeldCmd) : State := pushPiece (hold s h 0) h.src h.pkt 0

/-- COPY_IN (R323). -/
def copyInBody (s : State) (h : HeldCmd) : State :=
  let c := pctx h.pkt
  let off := pf h.pkt 1 40 0
  let n := copyLen h.pkt
  if pf h.pkt 1 63 63 = 1 then
    if (getCtx s c).plan ≠ .none && (getCtx s c).plan ≠ .complete then refuse s h stState
    else if 2 ^ 32 < off + n then refuse s h stBounds
    else startCopy s h
  else if !inBounds s c off n then refuse s h stBounds
  else startCopy s h

/-- COPY_OUT and FILL (R98, R323). -/
def copyBody (s : State) (h : HeldCmd) : State :=
  if !inBounds s (pctx h.pkt) (pf h.pkt 1 40 0) (copyLen h.pkt) then refuse s h stBounds else startCopy s h

/-- WIPE (R323): accepted in NONE, COMPLETE and FAULTED; a region the context does not hold fails all of it. -/
def wipeBody (s : State) (h : HeldCmd) : State :=
  let c := pctx h.pkt
  let x := getCtx s c
  let m := BitVec.ofNat 8 (pf h.pkt 0 7 0)
  let rs := (List.range 8).filter fun r => m.getLsbD r
  if x.plan ≠ .none && x.plan ≠ .complete && x.plan ≠ .faulted then refuse s h stState
  else if rs.any fun r => (rgnOf s c r).isNone then refuse s h stBadParam
  else
    let s1 := if pf h.pkt 0 8 8 = 1 then (ctxTileList x).foldl wipeTile s else s
    done (rs.foldl (fun s r => wipeRegion s c r) s1) h 0

/-- COPY_IN (R323). -/
def execCopyIn (src : Src) (p : Packet) (s : State) : Out := simpleCmd s src p 0x30 copyInBody
/-- COPY_OUT (R323). -/
def execCopyOut (src : Src) (p : Packet) (s : State) : Out := simpleCmd s src p 0x31 copyBody
/-- FILL (R323). -/
def execFill (src : Src) (p : Packet) (s : State) : Out := simpleCmd s src p 0x32 copyBody
/-- WIPE (R323). -/
def execWipe (src : Src) (p : Packet) (s : State) : Out := simpleCmd s src p 0x33 wipeBody

/-- FENCE (R324): holds its window until earlier commands, and the step it may wait for, have passed. -/
def execFence (src : Src) (p : Packet) (s : State) : Out :=
  .next (packetCmd s src p (decide (pcode p = 0x40)) (fun s h => fenceSettle (hold s h 0)) fun s _ => fenceSettle s)

end Machine
end Sys2Proof
end

