-- ==== Sys2Proof/Machine/RegView.lean ====
section
/-! DEFINITION. What a register read returns (18 R406 to R415): the stored word, or a view of the state it shows; DBG_DATA (R415);
and the reads with side effects (R410). -/
namespace Sys2Proof
namespace Machine

/-- The instance of a register whose copies stand `stp` apart from `base`. -/
def instOf (base n stp off : Nat) : Option Nat :=
  if base ≤ off && (off - base) % stp = 0 && decide ((off - base) / stp < n) then some ((off - base) / stp) else none

def fput (fs : List (Fld × Nat)) : W64 := fs.foldl (fun w f => fset f.1 w f.2) 0

/-! ### Contexts and units -/

/-- The CTX registers (R300). -/
def viewCtx (s : State) (off : Nat) : Option W64 :=
  match instOf 0x200000 8 0x10000 (off - off % 0x10000) with
  | some c =>
    let x := getCtx s c
    match off % 0x10000 with
    | 0 => some (fput [(fCTX_STATUS_GEN, x.gen.toNat), (fCTX_STATUS_STATE, ctxCode x.st), (fCTX_STATUS_PLAN, planCode x.plan),
        (fCTX_STATUS_FW_ONLY, b2n x.fwOnly), (fCTX_STATUS_MULTI, match x.image with | some p => b2n p.multi | none => 0)])
    | 8 => some (BitVec.ofNat 64 (faultSum x))
    | 16 => match x.purge with
      | some p => some (fput [(fCTX_PURGE_ELAPSED, s.now - p.began), (fCTX_PURGE_PENDING, p.pending.toNat)])
      | none => some 0
    | 24 => match tget (fun _ => none) x.genLeft (x.gen + 1).toNat with
      | some t => some (BitVec.ofNat 64 (t + 1200000))
      | none => some 0
    | _ => none
  | none => none

def tileCode : TileSt → Nat
  | .idle => 0 | .parison => 1 | .issuing => 2 | .waiting => 3 | .atStep => 4 | .halted => 5 | .faulted => 6

/-- TIL_STATUS of a logical tile (R58). -/
def tileStatus (x : Tile) : W64 :=
  fput [(fTIL_STATUS_OWNED, b2n x.own.isSome), (fTIL_STATUS_CTX, match x.own with | some c => c.val | none => 0),
    (fTIL_STATUS_STATE, tileCode x.st), (fTIL_STATUS_ISAT, b2n x.isat), (fTIL_STATUS_BIDX, x.bidx)]

/-- The physical tile of a window, and the offset in it (R407). -/
def tileWin (off : Nat) : Option (Nat × Nat) :=
  if 0xC00000 ≤ off && off < 0xD00000 then some ((off - 0xC00000) / 0x1000, off % 0x1000)
  else if 0x1000000 ≤ off && off < 0x1010000 then some (256 + (off - 0x1000000) / 0x1000, off % 0x1000)
  else none

/-- The logical tile a physical tile backs (R25). -/
def logicalOf (s : State) (p : Nat) : Option Nat := (List.range 16).findSome? fun i =>
  let t := 16 * (p / 17) + i
  if rd s (rTIL_MAP p) fTIL_MAP_MAPPED = 1 && physOf s t = p then some t else none

/-- The TIL registers (R58): by physical tile; one that backs no logical tile shows no state. -/
def viewTile (s : State) (off : Nat) : Option W64 :=
  match tileWin off with
  | some (p, o) =>
    let f (g : Tile → W64) : Option W64 := match logicalOf s p with | some t => some (g (getTile s t)) | none => some 0
    if o = 0 then some (fset fTIL_MAP_ZONE (regGet s off) (p / 17))
    else if o = 8 then f tileStatus
    else if o = 0x10 then f fun x => BitVec.ofNat 64 (streamOff x x.bidx)
    else if o = 0x18 then f fun x => BitVec.ofNat 64 x.issued
    else if o = 0x20 then f fun x => BitVec.ofNat 64 x.stalled
    else match instOf 0x200 64 8 o with
      | some c => f fun x => BitVec.setWidth 64 (localCtr x c)
      | none => none
  | none => none

def engCode : EngSt → Nat
  | .idle => 0 | .waitStart => 1 | .waitSlot => 2 | .transferring => 3 | .ended => 4 | .faulted => 5

/-- The GTH registers and MEM_ECC_H (R107). -/
def viewMem (s : State) (off : Nat) : Option W64 :=
  match instOf (rGTH_STATUS 0) 32 0x100 off with
  | some g =>
    let e := getEng s g
    some (fput [(fGTH_STATUS_OWNED, b2n e.own.isSome), (fGTH_STATUS_CTX, match e.own with | some c => c.val | none => 0),
      (fGTH_STATUS_STATE, engCode e.st), (fGTH_STATUS_STAGED, e.staging.length), (fGTH_STATUS_DESC, e.idx)])
  | none =>
    match instOf (rGTH_BLOCKS 0) 32 0x100 off with
    | some g => some (BitVec.ofNat 64 (getEng s g).blocks)
    | none => (instOf (rMEM_ECC_H 0) 64 8 off).map eccH

/-! ### Open traffic (R187, R194) -/

/-- The EP bit of a packet whose head bead is given (R175, R177). -/
def headEp (b : OpenB) : Option Bool := if fOffset b.pay = 0 then some ((BitVec.ofNat 64 (payLane b.pay 64 1)).getLsbD 57) else none

/-- A packet of a version is on its way through link l's buffer with its head gone: what is left of it, or still to come (R183). -/
def tailOf (s : State) (l : Nat) (v : Bool) : Bool :=
  let x := getLink s l
  x.route.isSome && (match x.obuf with | b :: _ => fOffset b.pay ≠ 0 | [] => true) &&
    (List.range 24).any fun m => (getLink s m).txq.any fun j => (match j.src with | some k => decide (k.val = l) | none => false) && j.ep = v

/-- Packets of a version present at a port, or at the endpoint part for port 8 (R187). -/
def epochCount (s : State) (v : Bool) (p : Nat) : Nat :=
  if p = 8 then (s.niOut.filter fun o => o.pkt.ep = v).length + (s.inb.filter fun i => i.local_.isNone && i.pkt.ep = v).length +
    (s.rankQ.filter fun w => match w.work with | .req q => q.ep = v | _ => false).length
  else
    (((List.range 24).filter fun l => portOf s l = p).map fun (l : Nat) =>
      let x := getLink s l
      ((x.obuf ++ x.held).filter fun b => headEp b = some v).length + b2n (tailOf s l v) + (x.txq.filter fun j => j.ep = v).length).sum

def viewOpen (s : State) (off : Nat) : Option W64 :=
  match instOf (rOPN_EPOCH_CNT 0) 9 8 off with
  | some p => some (fput [(fOPN_EPOCH_CNT_EP1, epochCount s true p), (fOPN_EPOCH_CNT_EP0, epochCount s false p)])
  | none =>
    match instOf (rOPN_CTX_Q 0) 8 0x20 off with
    | some c => some (fput [(fOPN_CTX_Q_QNOW, (tget (fun _ => []) s.reqq c).length), (fOPN_CTX_Q_OUTST, (s.outst.filter fun o => o.ctx.val = c).length)])
    | none =>
      if off = rOPN_RT_CTL then some (fset fOPN_RT_CTL_OLD_LIVE (regGet s off) (b2n (!tget (fun _ => false) s.retired (1 - activeV s)))) else none

/-! ### The forwarding plane (R141) -/

/-- WIN_NOW of FWD_LNK_FLUX: the replay requests of the present window of 256 slots (R134, R141). -/
def viewFwd (s : State) (off : Nat) : Option W64 :=
  (instOf (rFWD_LNK_FLUX 0) 24 0x40 off).map fun l =>
    if (getLink s l).reqWin = slotWindow s.now then regGet s off else fset fFWD_LNK_FLUX_WIN_NOW (regGet s off) 0

/-! ### Cane instances (R345, R346) -/

/-- DROPPED, OVF and LEVEL of a status register of CN00 or CN01. -/
def viewQueue (s : State) (i : Nat) (d o l : Fld) : W64 :=
  let x := getCane s i
  fput [(d, x.dropped.toNat), (o, b2n x.ovr), (l, (caneSeen i s.now x).length)]

def viewCane (s : State) (off : Nat) : Option W64 :=
  match instOf 0xE01000 21 0x20 (off - off % 0x20) with
  | some i =>
    let x := getCane s i
    let m := b2n (!x.flagMd)
    match off % 0x20 with
    | 0 => some (fset fSBD_CANE_CTL_DEPTH (fset fSBD_CANE_CTL_MODE_ACTIVE (fset fSBD_CANE_CTL_FULL_MODE (regGet s off) m) m) (caneDepth i - 1))
    | 16 =>
      let seen := caneSeen i s.now x
      some (fput [(fSBD_CANE_STAT_LAST_EMPTY, b2n x.lastEmpty), (fSBD_CANE_STAT_LAST_END, b2n x.lastEnd), (fSBD_CANE_STAT_LAST_POISON, b2n x.lastPoison),
        (fSBD_CANE_STAT_TMO, b2n x.tmo), (fSBD_CANE_STAT_OVR, b2n x.ovr), (fSBD_CANE_STAT_LEVEL, seen.length),
        (fSBD_CANE_STAT_PACKETS, (seen.filter fun it => it.last).length)])
    | 24 => some (fput [(fSBD_CANE_ERR_DROPPED, x.dropped.toNat), (fSBD_CANE_ERR_PARITY, x.parity.toNat)])
    | _ => none
  | none => none

/-! ### Clock zones (R206, R213) -/

/-- CHECK of CLK_ZONE_CTL, and LAST of CLK_ZONE_WIN: the cc of the window that ends at the present tick. -/
def viewZone (s : State) (off : Nat) : Option W64 :=
  match instOf (rCLK_ZONE_CTL 0) 16 0x40 off with
  | some z => some (fset fCLK_ZONE_CTL_CHECK (regGet s off) (b2n (zoneArmed s z)))
  | none => (instOf (rCLK_ZONE_WIN 0) 16 0x40 off).map fun z => fset fCLK_ZONE_WIN_LAST (regGet s off) (delivered (getZone s z) % 2 ^ 14)

/-! ### The rest -/

/-- A twin link is UP to the partner (R274). -/
def twinLinkOk (s : State) (l : Nat) : Bool :=
  lnkState s l = 6 && rd s (rLNK_NBR0 l) fLNK_NBR0_VALID = 1 && rd s (rLNK_NBR0 l) fLNK_NBR0_GID = rd s rDET_TWIN_CTL fDET_TWIN_CTL_PARTNER

def viewMisc (s : State) (off : Nat) : Option W64 :=
  if off = rTIM_COUNT then some (BitVec.ofNat 64 s.now)
  else if off = rTIM_TS_STATUS then some (viewQueue s 0 fTIM_TS_STATUS_DROPPED fTIM_TS_STATUS_OVF fTIM_TS_STATUS_LEVEL)
  else if off = rHST_EVT_STATUS then some (viewQueue s 1 fHST_EVT_STATUS_DROPPED fHST_EVT_STATUS_OVF fHST_EVT_STATUS_LEVEL)
  else if off = rSBD_STATUS then some (fset fSBD_STATUS_STATE (regGet s off) (moduleState s))
  else if off = rDET_TWIN_STATUS then
    let on := rd s rDET_TWIN_CTL fDET_TWIN_CTL_ENABLE = 1
    some (fput [(fDET_TWIN_STATUS_OWN_WAIT, s.twin.own.length), (fDET_TWIN_STATUS_PART_WAIT, s.twin.part.length),
      (fDET_TWIN_STATUS_LINKB_OK, b2n (on && twinLinkOk s (rd s rDET_TWIN_CTL fDET_TWIN_CTL_LINKB))),
      (fDET_TWIN_STATUS_LINKA_OK, b2n (on && twinLinkOk s (rd s rDET_TWIN_CTL fDET_TWIN_CTL_LINKA)))])
  else none

/-- The WO fields of a register, which read 0 (R9). -/
def readMask (r : RegRow) : W64 := r.fields.foldl (fun m f => if f.acc = .wo then m else m ||| fmask f.fld) 0

/-- What a register reads as, without the side effects of R410; an offset with no register reads 0 (R408). Reserved bits
are left 0 here; `regValue` makes them free. -/
def regRead (s : State) (off : Nat) : W64 :=
  match regAt off with
  | none => 0
  | some r =>
    let v := match [viewCtx, viewTile, viewMem, viewOpen, viewFwd, viewCane, viewZone, viewMisc].findSome? fun f => f s off with
      | some v => v
      | none => regGet s off
    v &&& readMask r

def regValue (s : State) (off : Nat) : W64 × State := withRsv s off (regRead s off)

/-! ### DBG_DATA (R415) -/

def pairWord (a b : W32) : W64 := b ++ a

/-- Word i of the sequencer file. -/
def seqWord (x : Tile) (i : Nat) : W64 :=
  if i = 0 then tileStatus x
  else if i ≤ 4 then match x.loops[i - 1]? with | some l => BitVec.ofNat 64 (l.left % 2 ^ 14 * 2 ^ 16 + l.first % 2 ^ 11) | none => 0
  else if i = 5 then BitVec.ofNat 64 (x.stream.toNat * 2 ^ 32 + x.draw % 2 ^ 32)
  else if i = 6 then BitVec.ofNat 64 ((wbuf x 0).fmt.toNat + 16 * (wbuf x 1).fmt.toNat)
  else
    let bits (b : Tbl (Option BoxWord)) (lo : Nat) : W64 :=
      BitVec.ofNat 64 ((List.range 64).foldl (fun a k => if (boxGet b (lo + k)).isSome then a + 2 ^ k else a) 0)
    if i = 7 then bits x.outbox 0 else if i = 8 then bits x.outbox 64 else if i = 9 then bits x.inbox 0 else bits x.inbox 64

def boxWord64 (b : Tbl (Option BoxWord)) (i : Nat) : W64 :=
  match boxGet b (i / 8) with | some w => BitVec.ofNat 64 (w.word.toNat >>> (64 * (i % 8))) | none => 0

/-- Word i of a file of a tile. -/
def dbgWord (x : Tile) (file i : Nat) : W64 :=
  let acc (a : Nat) : W64 := let r := (accRow x a (i / 64)).lanes; pairWord (r.getD (2 * (i % 64)) 0) (r.getD (2 * (i % 64) + 1) 0)
  let wb (b : Nat) : W64 :=
    if i < 1024 then BitVec.ofNat 64 ((wbuf x b).elems.toNat >>> (64 * i)) else BitVec.ofNat 64 ((wbuf x b).scales.toNat >>> (64 * (i - 1024)))
  if file = 0 && i < 4096 then let r := vreg x (i / 128); pairWord (r.getD (2 * (i % 128)) 0) (r.getD (2 * (i % 128) + 1) 0)
  else if file = 1 && i < 32 then BitVec.ofNat 64 ((qreg x (i / 4)).toNat >>> (64 * (i % 4)))
  else if file = 2 && i < 8 then BitVec.setWidth 64 (adreg x i)
  else if file = 3 && i < 16384 then acc 0
  else if file = 4 && i < 16384 then acc 1
  else if file = 5 && i < 1088 then wb 0
  else if file = 6 && i < 1088 then wb 1
  else if file = 7 && i < 1024 then boxWord64 x.outbox i
  else if file = 8 && i < 1024 then boxWord64 x.inbox i
  else if file = 9 && i < 11 then seqWord x i
  else 0

/-- The life-cycle state (R381): 0 BLANK, 1 PROVISIONED, 2 FIELD, 3 FIELD_DEBUG, 4 RETURNED, 5 SCRAPPED. -/
def lcState (s : State) : Nat := rd s rSEC_LC fSEC_LC_STATE
/-- Private JTAG, DBG writes and sideband register writes are permitted (R338, R381). -/
def lcOpen (s : State) : Bool := lcState s ≠ 2 && lcState s ≠ 5

/-- A read of DBG_DATA: word INDEX of FILE of TILE; with AUTO the index then advances (R412, R415). -/
def dbgRead (s : State) : W64 × State :=
  if !pd31On s then (0, s)
  else
    let x := getTile s (rd s rDBG_SEL fDBG_SEL_TILE)
    let i := rd s rDBG_SEL fDBG_SEL_INDEX
    let v := if x.own.isNone || lcState s = 2 || lcState s = 5 then 0 else dbgWord x (rd s rDBG_SEL fDBG_SEL_FILE) i
    (v, if rd s rDBG_SEL fDBG_SEL_AUTO = 1 then wr s rDBG_SEL fDBG_SEL_INDEX (i + 1) else s)

/-- A register read with its side effects (R410, R415). -/
def regReadEff (s : State) (off : Nat) : W64 × State :=
  if off = rTIM_TS_DATA then let (v, _, _, s1) := caneRead s 0; (v, s1)
  else if off = rHST_EVENT then let (v, _, _, s1) := caneRead s 1; (v, s1)
  else if off = rDBG_DATA then dbgRead s
  else regValue s off

end Machine
end Sys2Proof
end

