-- ==== Sys2Proof/Machine/HostTab.lean ====
section
/-! DEFINITION. Table, link and time commands (13 R325 to R327; 07 R178, R187, R191; 06 R149, R164; 09 R226, R228). -/
namespace Sys2Proof
namespace Machine

/-! ### Tables (R187, R325) -/

/-- Entry i of a TABLE_STAGE: from host memory, or inline over the sideband (R335). -/
def stageEntry (s : State) (h : HeldCmd) (i : Nat) : W64 :=
  match h.src with
  | .sideband => pw h.pkt (3 + i)
  | _ => BitVec.ofNat 64 (hostRead s ((pw h.pkt 2).toNat + 8 * i) 8)

/-- A Rank entry's word 0; one written valid gets its other words at their initial values (R178; TOKENS 0, log 36). -/
def putRank (s : State) (c r : Nat) (w : W64) : State :=
  let s1 := openWrite { s with rankC := s.rankC.filter fun e => e.1 ≠ 65536 * c + r } (rankAddr c r) 8 w.toNat
  if fget rkState w = 1 then
    openWrite s1 (rankAddr c r + 8) 32 ((fset rkRate 0 1024).toNat * 2 ^ 128)
  else s1

/-- One staged entry in its table (R105, R180, R191). -/
def putEntry (s : State) (c table v i : Nat) (w : W64) : State :=
  if table = 1 then
    openWrite { s with routeC := s.routeC.filter fun e => e.1 ≠ 2 ^ 20 * v + i } (rd s rOPN_RT_BASE fOPN_RT_BASE_BASE + 0x800000 * v + 8 * i) 8 w.toNat
  else if table = 2 then openWrite s (tableAddr (0x1000000 + 16 * i + 8 * v)) 8 w.toNat
  else putRank s c i w

def retiredV (s : State) (v : Nat) : Bool := tget (fun _ => false) s.retired v

/-- TABLE_STAGE (R325). -/
def tableStageBody (s : State) (h : HeldCmd) : State :=
  let c := pctx h.pkt
  let t := pf h.pkt 0 63 60
  let v := pf h.pkt 0 56 56
  let first := pf h.pkt 0 19 0
  let n := pf h.pkt 1 31 0
  let x := getCtx s c
  if t = 3 && (x.st = .closed || x.plan = .armed || x.plan = .running) then refuse s h stState
  else if t ≠ 3 && (v = activeV s || !retiredV s v) then refuse s h 0x20
  else done ((List.range n).foldl (fun s i => putEntry s c t v (first + i) (stageEntry s h i)) s) h n

/-- TABLE_COMMIT (R187, R325): it waits for the bead boundary at which the snapshot applies. -/
def tableCommitBody (s : State) (h : HeldCmd) : State :=
  let v := pf h.pkt 0 0 0
  let base := pf h.pkt 1 40 0
  if v = activeV s then done s h (regGet s rOPN_FLIP).toNat
  else if !retiredV s v then refuse s h 0x20
  else
    let s1 := stage s rOPN_RT_CTL fOPN_RT_CTL_ACTIVE v
    let s2 := if base = 0 then s1 else stage s1 rOPN_RT_BASE fOPN_RT_BASE_BASE base
    hold (commitBlock s2 .opn) h 0

/-- TABLE_RETIRE (R187). -/
def tableRetireBody (s : State) (h : HeldCmd) : State :=
  let v := 1 - activeV s
  if retiredV s v then done s h 0
  else if (List.range 9).any fun p => epochCount s (v = 1) p ≠ 0 then refuse s h 0x21
  else if s.now < (regGet s rOPN_FLIP).toNat + 1200000 then refuse s h 0x22
  else done { s with retired := tset (fun _ => false) s.retired v true } h 0

/-- TABLE_STAGE (R325). -/
def execTableStage (src : Src) (p : Packet) (s : State) : Out := simpleCmd s src p 0x60 tableStageBody
/-- TABLE_COMMIT (R325). -/
def execTableCommit (src : Src) (p : Packet) (s : State) : Out := simpleCmd s src p 0x61 tableCommitBody
/-- TABLE_RETIRE (R187, R325). -/
def execTableRetire (src : Src) (p : Packet) (s : State) : Out := simpleCmd s src p 0x62 tableRetireBody

/-! ### Links (R326) -/

/-- LNK_STATUS, which LINK_CTL returns. -/
def doneLink (s : State) (h : HeldCmd) (l : Nat) : State :=
  let (v, s1) := regValue s (rLNK_STATUS l)
  done s1 h v.toNat

/-- A LINK_CTL command with one OP. -/
def linkCtl (s : State) (src : Src) (p : Packet) (op : Nat) (body : Nat → State → HeldCmd → State) : Out :=
  .next (packetCmd s src p (decide (pcode p = 0x70) && decide (pf p 0 11 8 = op)) (body (pf p 0 4 0)) fun s _ => s)

/-- A request with the arguments of LINK_CTL or of a write to LNK_CTL (R149, R150). -/
def askRetrain (s : State) (l : Nat) (eq force : Bool) (width : Nat) : ReqRes × State :=
  let s1 := wr (wr (wr s (rLNK_CTL l) fLNK_CTL_EQUALISE (b2n eq)) (rLNK_CTL l) fLNK_CTL_FORCE (b2n force)) (rLNK_CTL l) fLNK_CTL_WIDTH width
  retrainReq s1 l eq width force

def retrainBody (l : Nat) (s : State) (h : HeldCmd) : State :=
  let a := (pw h.pkt 1).toNat
  match askRetrain s l (a / 4 % 2 = 1) (a / 8 % 2 = 1) (a % 4) with
  | (.ok, s1) => hold s1 h 0
  | (.plan, s1) => refuse s1 h 0x30
  | (.notUp, s1) => refuse s1 h 0x31
  | (.busy, s1) => refuse s1 h stBusy

/-- A disabled link is enabled: full training (R146). -/
def enableLink (s : State) (l : Nat) : State :=
  let s1 := wr s (rLNK_CTL l) fLNK_CTL_ENABLE 1
  if lnkState s l = 0 then startTraining s1 l 0 true else s1

/-- ENABLE is cleared: DOWN with cause 0x5, then DISABLED (R146, R165). -/
def disableLink (s : State) (l : Nat) : State :=
  let s1 := wr s (rLNK_CTL l) fLNK_CTL_ENABLE 0
  if lnkState s l = 8 then setLnkState s1 l 0 else linkDownEff s1 l 5

/-- The fence of a link is set or cleared, and its neighbour told (R162, R164). -/
def setFence (s : State) (l : Nat) (on : Bool) (tag : Nat) : State :=
  let s1 := wr (wr s (rLNK_FENCE l) fLNK_FENCE_ENABLE (b2n on)) (rLNK_FENCE l) fLNK_FENCE_TAG tag
  ctrlPush s1 l (6 * 2 ^ 56 + b2n on * 2 ^ 12 + tag % 4096)

/-- LINK_CTL 0x1 (R149, R326). -/
def execLinkCtlRetrain (src : Src) (p : Packet) (s : State) : Out := linkCtl s src p 1 retrainBody
/-- LINK_CTL 0x2 (R326). -/
def execLinkCtlEnable (src : Src) (p : Packet) (s : State) : Out := linkCtl s src p 2 fun l s h => doneLink (enableLink s l) h l
/-- LINK_CTL 0x3 (R165, R326). -/
def execLinkCtlDisable (src : Src) (p : Packet) (s : State) : Out :=
  linkCtl s src p 3 fun l s h => if linkHeld s l && pf h.pkt 1 3 3 = 0 then refuse s h 0x30 else doneLink (disableLink s l) h l
/-- LINK_CTL 0x4 (R164, R326). -/
def execLinkCtlFenceOn (src : Src) (p : Packet) (s : State) : Out := linkCtl s src p 4 fun l s h => doneLink (setFence s l true (pf h.pkt 1 11 0)) h l
/-- LINK_CTL 0x5 (R164, R326). -/
def execLinkCtlFenceOff (src : Src) (p : Packet) (s : State) : Out :=
  linkCtl s src p 5 fun l s h => doneLink (setFence s l false (rd s (rLNK_FENCE l) fLNK_FENCE_TAG)) h l
/-- LINK_CTL 0x6 (R167, R326). -/
def execLinkCtlAutoRetry (src : Src) (p : Packet) (s : State) : Out :=
  linkCtl s src p 6 fun l s h => doneLink (wr s (rLNK_CTL l) fLNK_CTL_AUTO_RETRY (pf h.pkt 1 0 0)) h l
/-- LINK_CTL 0x7 (R144, R326). -/
def execLinkCtlLaneMap (src : Src) (p : Packet) (s : State) : Out :=
  linkCtl s src p 7 fun l s h => doneLink (commitBlock (stage s (rLNK_LANE_MAP l) fLNK_LANE_MAP_MAP (pf h.pkt 1 15 0)) (.lnk (Fin.ofNat 24 l))) h l

/-- The registers of a LINK_STATUS record (R326). -/
def linkRegs (l : Nat) : List Nat :=
  [rLNK_STATUS l, rLNK_HOP l, rLNK_FENCE l, rLNK_CREDIT l, rLNK_FEC l, rLNK_FEC2 l, rLNK_RPL0 l, rLNK_RPL1 l, rLNK_RPL2 l, rLNK_DROP l,
   rLNK_FENCE_DROP l, rLNK_EVENTS l, rFWD_LNK_RX0 l, rFWD_LNK_RX1 l, rFWD_LNK_RX2 l, rFWD_LNK_FLUX l]

/-- Registers read one after another, as bytes. -/
def readRegs : List Nat → State → List Nat × State
  | [], s => ([], s)
  | r :: rs, s =>
    let (v, s1) := regValue s r
    let (bs, s2) := readRegs rs s1
    (bytesLE 8 v.toNat ++ bs, s2)

/-- A command whose data draws on the state. -/
def dataBody2 (f : State → List Nat × State) (s : State) (h : HeldCmd) : State :=
  let (d, s1) := f s
  finishData s1 h d d.length

/-- LINK_STATUS (R326). -/
def linkStatusBody (s : State) (h : HeldCmd) : State :=
  dataBody2 (readRegs (((List.range 24).filter fun l => (BitVec.ofNat 24 (pf h.pkt 2 23 0)).getLsbD l).flatMap linkRegs)) s h

/-- The record DISCOVER gives of the module itself (R326). -/
def selfRecord (s : State) : List Nat :=
  bytesLE 8 (fput [(fLNK_NBR0_VALID, 1), (fLNK_NBR0_GID, ownGid s), (fLNK_NBR0_LINK, 0x1F), (fLNK_NBR0_POS, rd s rGAF_LOCATION fGAF_LOCATION_POS),
    (fLNK_NBR0_RACK, rd s rGAF_LOCATION fGAF_LOCATION_RACK), (fLNK_NBR0_VER_MAJOR, s.protoMajor), (fLNK_NBR0_VER_MINOR, s.protoMinor)]).toNat ++
    bytesLE 8 (regGet s rGAF_SERIAL_HASH).toNat ++ bytesLE 8 s.now

/-- DISCOVER (R326). -/
def discoverBody (s : State) (h : HeldCmd) : State :=
  dataBody2 (fun s =>
    let (bs, s1) := readRegs ((List.range 24).flatMap fun l => [rLNK_NBR0 l, rLNK_NBR1 l, rTIM_NBR_OFF l]) s
    (selfRecord s ++ bs, s1)) s h

/-- LINK_STATUS (R326). -/
def execLinkStatus (src : Src) (p : Packet) (s : State) : Out := simpleCmd s src p 0x71 linkStatusBody
/-- DISCOVER (R326). -/
def execDiscover (src : Src) (p : Packet) (s : State) : Out := simpleCmd s src p 0x72 discoverBody

/-! ### Time (R226 to R228, R327) -/

/-- TIME_SET (R226): the time of day takes effect at the next bead boundary. -/
def timeSetBody (s : State) (h : HeldCmd) : State :=
  if 2 ≤ timRole s then refuse s h 0x40
  else
    let v := (pw h.pkt 0, BitVec.ofNat 32 (pf h.pkt 1 63 32), BitVec.ofNat 32 (pf h.pkt 1 31 0))
    hold { s with tim := { s.tim with todSet := some v, todLoad := false, incSet := none } } h (4 * (s.now / 4 + 1))

/-- TIME_ADJUST (R226): staged and committed; it replies as the snapshot applies. -/
def timeAdjustBody (s : State) (h : HeldCmd) : State :=
  let setStep := pf h.pkt 2 1 1 = 1
  if 2 ≤ timRole s then refuse s h 0x40
  else if setStep && decide (todTotal s + (pw h.pkt 1).toInt * 2 ^ 32 < 0) then refuse s h 0x41
  else
    let s1 := if pf h.pkt 2 0 0 = 1 then shadowSet s rTIM_TOD_INC (pw h.pkt 0) else s
    let s2 := if setStep then shadowSet s1 rTIM_TOD_STEP (pw h.pkt 1) else s1
    hold (commitBlock s2 .tim) h 0

/-- The full count of a stamp, less than 2^44 ticks old (R228). -/
def stampCount (s : State) (w : W64) : Nat :=
  let c := s.now / 2 ^ 45 * 2 ^ 45 + 4 * fget ⟨42, 0⟩ w
  if s.now < c then c - 2 ^ 45 else c

/-- The entry TS_READ writes for a stamp (R227, R327). -/
def stampEntry (s : State) (w : W64) : List Nat :=
  let n := stampCount s w
  let (sec, ns, fr) := todSplit (todAt s n)
  let ok := decide (sec < 2 ^ 48)
  let z (v : Nat) : Nat := if ok then v else 0
  bytesLE 2 (fget ⟨63, 48⟩ w) ++ [fget ⟨47, 43⟩ w, b2n ok, 0, 0, 0, 0] ++ bytesLE 8 n ++ bytesLE 8 sec ++ bytesLE 4 ns ++ bytesLE 4 fr ++
    bytesLE 6 (z sec) ++ bytesLE 4 (z ns) ++ bytesLE 2 (z (fr / 2 ^ 16)) ++ [0, 0, 0, 0]

/-- Every stamp the reader sees, oldest first, taken from the FIFO. -/
def drainStamps : Nat → State → List W64 × State
  | 0, s => ([], s)
  | n + 1, s =>
    if caneSeen 0 s.now (getCane s 0) = [] then ([], s)
    else
      let (v, _, _, s1) := caneRead s 0
      let (vs, s2) := drainStamps n s1
      (v :: vs, s2)

/-- TS_READ (R228, R327): a buffer that is too short leaves the stamps where they are. -/
def tsReadBody (s : State) (h : HeldCmd) : State :=
  let (vs, s1) := drainStamps 16 s
  let ovr := (getCane s 0).ovr
  if h.src ≠ .sideband && decide (pf h.pkt 1 31 0 < 48 * vs.length) then refuse s h stBufShort
  else finishData (setCane s1 0 { getCane s1 0 with ovr := false }) h (vs.flatMap (stampEntry s)) (vs.length + 256 * b2n ovr)

/-- TIME_SET (R226, R327). -/
def execTimeSet (src : Src) (p : Packet) (s : State) : Out := simpleCmd s src p 0x50 timeSetBody
/-- TIME_ADJUST (R226, R327). -/
def execTimeAdjust (src : Src) (p : Packet) (s : State) : Out := simpleCmd s src p 0x51 timeAdjustBody
/-- TS_READ (R228, R327). -/
def execTsRead (src : Src) (p : Packet) (s : State) : Out := simpleCmd s src p 0x52 tsReadBody

end Machine
end Sys2Proof
end

