-- ==== Sys2Proof/Machine/Regs.lean ====
section
/-! DEFINITION. Register writes by their access codes and paths (00 R9 to R11; 10 R253, R254; 13 R304; 16 R381; 18 R408, R411,
R412), the registers that act, and the staged snapshots. -/
namespace Sys2Proof
namespace Machine

/-! ### What a write does to the word (R9) -/

/-- The stored word after a write of v: RW and RWS fields take it, W1C bits clear unless hardware set them in the same GCLK
cycle (R10), the others stay. -/
def writeWord (s : State) (r : RegRow) (off : Nat) (old v : W64) : W64 :=
  r.fields.foldl (fun w f =>
    match f.acc with
    | .rw => fset f.fld w (fget f.fld v)
    | .rws => fset f.fld w (fget f.fld v)
    | .w1c => if flagFresh s off f.fld then w else fset f.fld w (fget f.fld (old &&& ~~~ v))
    | _ => w) old

/-- Staged fields of a write go to the shadow copy, which remembers what it held before the present GCLK cycle (R11). -/
def writeShadow (s : State) (off : Nat) (v : W64) : State :=
  let m := stagedMask off
  if m = 0 then s
  else
    let s1 := if (tget (fun _ => (0, 0)) s.shadowAt off).1 = gclk s + 1 then s
      else { s with shadowAt := tset (fun _ => (0, 0)) s.shadowAt off (gclk s + 1, shadowGet s off) }
    shadowPut s1 off ((shadowGet s off &&& ~~~ m) ||| (v &&& m))

/-- OVR of a Cane instance after a write of 1 or 0 to it (R9, R10). -/
def clearOvr (s : State) (i : Nat) (bit : Nat) : Bool :=
  (getCane s i).ovr && (decide (bit = 0) || flagFresh s (rSBD_CANE_STAT i) fSBD_CANE_STAT_OVR)

/-- A write to the counters and flags of a Cane instance. -/
def writeQueue (s : State) (i : Nat) (v : W64) (d o : Fld) : State :=
  setCane s i { getCane s i with dropped := BitVec.ofNat 32 (fget d v), ovr := clearOvr s i (fget o v) }

/-! ### Registers that act when written -/

/-- LNK_CTL (R146, R149, R165). -/
def writeLnkCtl (s : State) (l : Nat) (v : W64) (s1 : State) : State :=
  let was := rd s (rLNK_CTL l) fLNK_CTL_ENABLE
  let en := fget fLNK_CTL_ENABLE v
  if en = 0 then (if was = 0 then s1 else disableLink s1 l)
  else
    let s2 := if was = 0 then enableLink s1 l else s1
    if fget fLNK_CTL_REQUEST v = 1 then
      (askRetrain s2 l (fget fLNK_CTL_EQUALISE v = 1) (fget fLNK_CTL_FORCE v = 1) (fget fLNK_CTL_WIDTH v)).2
    else s2

/-- GAF_LOCATION (R400): applied while every context is CLOSED, with a HELLO at once on every UP link; else refused and marked. -/
def writeLocation (s : State) (v : W64) : State :=
  if allCtx.all fun c => (getCtx s c).st = .closed then
    let w := regGet s rGAF_LOCATION
    let put (w : W64) (f : Fld) : W64 := fset f w (fget f v)
    let w1 := put (put (put w fGAF_LOCATION_GID_VALID) fGAF_LOCATION_RACK) fGAF_LOCATION_GID
    let clears := fget fGAF_LOCATION_WR_REFUSED v = 1 && !flagFresh s rGAF_LOCATION fGAF_LOCATION_WR_REFUSED
    let w2 := if clears then fset fGAF_LOCATION_WR_REFUSED w1 0 else w1
    let s1 := regSet s rGAF_LOCATION w2
    (List.range 24).foldl (fun s l =>
      if lnkState s l = 6 then modLink s l fun x => { x with helloAt := s.now + 1, special := x.special ++ [(5, helloPayload s l)] } else s) s1
  else raiseFlag s rGAF_LOCATION fGAF_LOCATION_WR_REFUSED

/-- The block a COMMIT register belongs to (R253). -/
def commitOf (off : Nat) : Option Block :=
  if off = rFWD_COMMIT then some .fwd
  else if off = rTIM_COMMIT then some .tim
  else if off = rOPN_COMMIT then some .opn
  else match instOf (rLNK_COMMIT 0) 24 0x4000 off with
    | some l => some (.lnk (Fin.ofNat 24 l))
    | none => (instOf (rSBD_CANE_COMMIT 0) 21 0x20 off).map fun i => .cane (Fin.ofNat 21 i)

/-- Writes that act in the units the register shows or commands; `s1` is the state once the stored word has changed. -/
def writeLink (s : State) (off : Nat) (v : W64) (s1 : State) : Option State :=
  match instOf (rLNK_CTL 0) 24 0x4000 off with
  | some l => some (writeLnkCtl s l v s1)
  | none =>
    match instOf (rLNK_FENCE 0) 24 0x4000 off with
    | some l =>
      let on := fget fLNK_FENCE_ENABLE v
      let tag := fget fLNK_FENCE_TAG v
      if on = rd s off fLNK_FENCE_ENABLE && (on = 0 || tag = rd s off fLNK_FENCE_TAG) then some s1 else some (setFence s1 l (on = 1) tag)
    | none => none

def writeCane (_s : State) (off : Nat) (v : W64) (s1 : State) : Option State :=
  match instOf 0xE01000 21 0x20 (off - off % 0x20) with
  | some i =>
    let x := getCane s1 i
    if off % 0x20 = 16 then
      some (setCane s1 i { x with
        tmo := x.tmo && (decide (fget fSBD_CANE_STAT_TMO v = 0) || flagFresh s1 (rSBD_CANE_STAT i) fSBD_CANE_STAT_TMO)
        ovr := clearOvr s1 i (fget fSBD_CANE_STAT_OVR v) })
    else if off % 0x20 = 24 then
      some (setCane s1 i { x with dropped := BitVec.ofNat 32 (fget fSBD_CANE_ERR_DROPPED v), parity := BitVec.ofNat 32 (fget fSBD_CANE_ERR_PARITY v) })
    else none
  | none => none

def writeTile (s : State) (off : Nat) (v : W64) (s1 : State) : Option State :=
  match tileWin off with
  | some (p, 8) => if fget fTIL_STATUS_ISAT v = 1 && !flagFresh s off fTIL_STATUS_ISAT then (logicalOf s p).map fun t => modTile s1 t fun x => { x with isat := false } else none
  | _ => none

def writeMisc (_s : State) (off : Nat) (v : W64) (s1 : State) : Option State :=
  if off = rTIM_TS_STATUS then some (writeQueue s1 0 v fTIM_TS_STATUS_DROPPED fTIM_TS_STATUS_OVF)
  else if off = rHST_EVT_STATUS then some (writeQueue s1 1 v fHST_EVT_STATUS_DROPPED fHST_EVT_STATUS_OVF)
  else if off = rTIM_SNAP then some (if fget fTIM_SNAP_SNAP v = 1 then snapTime s1 else s1)
  else if off = rTIM_TS_ARM then some (if fget fTIM_TS_ARM_ARM v = 1 then { s1 with tim := { s1.tim with tsArm := true } } else s1)
  else if off = rGAF_RECOVERY then some (if fget fGAF_RECOVERY_START v = 1 then recovStart s1 4 else s1)
  else if off = rDBG_CTL then some (pd31Settle s1)
  else none

/-- A write to a register by its access codes, and what it sets off. -/
def regAct (s : State) (r : RegRow) (off : Nat) (v : W64) : State :=
  match commitOf off with
  | some b => if v.getLsbD 0 then commitBlock s b else s
  | none =>
    let s1 := writeShadow (regSet s off (writeWord s r off (regGet s off) v)) off v
    match [writeLink, writeCane, writeTile, writeMisc].findSome? fun f => f s off v s1 with
    | some s2 => s2
    | none => s1

/-! ### Who may write what (R213, R264, R381, R400, R408, R411, R412) -/

/-- A count of HST_MAP_ERR. -/
def mapErr (s : State) (f : Fld) : State := bump s rHST_MAP_ERR f

def isDbg (off : Nat) : Bool := decide (0xF00000 ≤ off) && decide (off < 0x1000000)
def isDet (off : Nat) : Bool := decide (0xD00000 ≤ off) && decide (off < 0xE00000)

/-- A register that only the Gaffer writes (R213). -/
def gafferOnly (off : Nat) : Bool := off = rCLK_COMMIT

/-- A write to BAR0 offset `off` over a path, 64 bits and aligned. -/
def regWrite (s : State) (path : Path) (off : Nat) (v : W64) : State :=
  if path = .sideband && !lcOpen s then mapErr s fHST_MAP_ERR_LC_REFUSED
  else if isDbg off && !lcOpen s then mapErr s fHST_MAP_ERR_LC_REFUSED
  else match regAt off with
    | none => mapErr s fHST_MAP_ERR_UNMAPPED
    | some r =>
      if (isDbg off || isDet off) && off ≠ rDBG_CTL && !pd31On s then s
      else if gafferOnly off then (if path = .gaffer && v.getLsbD 0 then commitBlock s .clk else s)
      else if off = rGAF_LOCATION then (if path = .pfBar0 || path = .sideband then writeLocation s v else s)
      else match instOf (rCLK_ZONE_CTL 0) 16 0x40 off with
        | some _ => if path = .gaffer then writeShadow s off v else s
        | none =>
          match instOf (rDET_CTX_CTL 0) 8 0x40 off with
          | some c => if (getCtx s c).plan = .parison then setResume (regAct s r off v) c (fget fDET_CTX_CTL_RESUME v) else s
          | none => regAct s r off v

/-- The BAR0 offset of a VF's register, from its own 128 KiB (R303). -/
def vfReg (k off : Nat) : Option Nat :=
  if off < 0x10000 then some (0x200000 + 0x10000 * k + off)
  else if off < 0x10018 then some (0x100100 + 0x20 * k + (off - 0x10000))
  else none

/-- A 32-bit word of an MSI-X table: that of the PF at 0x010_8000, or of VF k at 0x1_8000 of its BAR0 (R303). -/
def msixWord (path : Path) (off : Nat) : Option Nat :=
  match path with
  | .vf k => if 0x18000 ≤ off && off < 0x18800 then some (4096 * (k.val + 1) + (off - 0x18000) / 4) else none
  | _ => if 0x108000 ≤ off && off < 0x10C000 then some ((off - 0x108000) / 4) else none

/-- The pending bits of MSI-X, which only the module writes. -/
def isPba (path : Path) (off : Nat) : Bool :=
  match path with
  | .vf _ => decide (0x1C000 ≤ off) && decide (off < 0x1C010)
  | _ => decide (0x10C000 ≤ off) && decide (off < 0x10C080)

def msixPut (s : State) (w : Nat) (v : W32) : State := { s with msix := tset (fun _ => 0) s.msix w v }

/-- HST_APERTURE of the PF or of VF k (R303, R305). -/
def apertureWrite (s : State) (fn : Nat) (v : W64) : State :=
  let w := fset fHST_APERTURE_BASE 0 (fget fHST_APERTURE_BASE v)
  if fn = 0 then regSet s rHST_APERTURE w else { s with vfApt := tset (fun _ => 0) s.vfApt fn w }

/-- A write over a path, of any size (R304). -/
def busWrite (s : State) (path : Path) (off : Nat) (size : AccSize) (v : W64) : State :=
  match msixWord path off with
  | some w =>
    if off % 4 ≠ 0 then bump s rHST_ACC_ERR fHST_ACC_ERR_SIZE_ERR
    else match size with
      | .aligned64 => msixPut (msixPut s w (BitVec.setWidth 32 v)) (w + 1) (BitVec.ofNat 32 (v.toNat / 2 ^ 32))
      | .other => msixPut s w (BitVec.setWidth 32 v)
  | none =>
    if isPba path off then s
    else if size = .other || off % 8 ≠ 0 then bump s rHST_ACC_ERR fHST_ACC_ERR_SIZE_ERR
    else match path with
      | .vf k =>
        if off = 0x10020 then apertureWrite s (k.val + 1) v
        else match vfReg k off with
          | some o => regWrite s path o v
          | none => mapErr s fHST_MAP_ERR_UNMAPPED
      | _ => regWrite s path off v

/-- REGISTER_WRITE (R9). -/
def execRegisterWrite (path : Path) (off : BitVec 26) (size : AccSize) (v : BitVec 64) (s : State) : Out :=
  .next (busWrite s path off.toNat size v)

/-- The paths on which every register of the map exists (R411). -/
def wholeMap : Path → Bool
  | .vf _ => false
  | _ => true

/-- A write to one register by its own row. -/
def ownRow (s : State) (path : Path) (off : Nat) (v : W64) : Out := .next (if wholeMap path then regWrite s path off v else s)

/-- FWD_COMMIT (R11). -/
def execFwdCommit (path : Path) (v : BitVec 64) (s : State) : Out := ownRow s path rFWD_COMMIT v
/-- LNK_COMMIT (R144). -/
def execLnkCommit (path : Path) (l : LinkId) (v : BitVec 64) (s : State) : Out := ownRow s path (rLNK_COMMIT l) v
/-- TIM_COMMIT (R253). -/
def execTimCommit (path : Path) (v : BitVec 64) (s : State) : Out := ownRow s path rTIM_COMMIT v
/-- OPN_COMMIT (R187). -/
def execOpnCommit (path : Path) (v : BitVec 64) (s : State) : Out := ownRow s path rOPN_COMMIT v
/-- CLK_COMMIT (R207, R213): the Gaffer's; a write from anywhere else is discarded. -/
def execClkCommit (path : Path) (v : BitVec 64) (s : State) : Out := ownRow s path rCLK_COMMIT v
/-- SBD_CANE_COMMIT (R343). -/
def execSbdCaneCommit (path : Path) (i : CaneId) (v : BitVec 64) (s : State) : Out := ownRow s path (rSBD_CANE_COMMIT i) v
/-- LNK_CTL with REQUEST (R149). -/
def execLnkCtlRequest (path : Path) (l : LinkId) (v : BitVec 64) (s : State) : Out :=
  if fget fLNK_CTL_REQUEST v = 1 then ownRow s path (rLNK_CTL l) v else .next s
/-- LNK_CTL with ENABLE = 0 (R165). -/
def execLnkCtlEnableClear (path : Path) (l : LinkId) (v : BitVec 64) (s : State) : Out :=
  if fget fLNK_CTL_ENABLE v = 0 then ownRow s path (rLNK_CTL l) v else .next s
/-- LNK_FENCE (R164). -/
def execLnkFence (path : Path) (l : LinkId) (v : BitVec 64) (s : State) : Out := ownRow s path (rLNK_FENCE l) v
/-- TIM_SNAP (R233). -/
def execTimSnap (path : Path) (v : BitVec 64) (s : State) : Out := ownRow s path rTIM_SNAP v
/-- TIM_TS_ARM (R228). -/
def execTimTsArm (path : Path) (v : BitVec 64) (s : State) : Out := ownRow s path rTIM_TS_ARM v
/-- GAF_RECOVERY with START (R293). -/
def execGafRecoveryStart (path : Path) (v : BitVec 64) (s : State) : Out := ownRow s path rGAF_RECOVERY v
/-- GAF_LOCATION (R400). -/
def execGafLocation (path : Path) (v : BitVec 64) (s : State) : Out := ownRow s path rGAF_LOCATION v
/-- DBG_CTL (R412). -/
def execDbgCtl (path : Path) (v : BitVec 64) (s : State) : Out := ownRow s path rDBG_CTL v
/-- DET_CTX_CTL (R264). -/
def execDetCtxCtl (path : Path) (c : CtxId) (v : BitVec 64) (s : State) : Out := ownRow s path (rDET_CTX_CTL c) v
/-- HST_APERTURE (R305). -/
def execHstAperture (fn : Fin 9) (v : BitVec 64) (s : State) : Out := .next (apertureWrite s fn v)

/-- A read over a path puts its value on that interface; a register that does not exist for a VF reads 0 (R408, R411). -/
def readRow (s : State) (path : Path) (off : Nat) : Out :=
  if wholeMap path then let (v, s1) := regReadEff s off; .next (emit s1 (.regRead path v)) else .next (emit s (.regRead path 0))

/-- TIM_TS_DATA (R228, R410). -/
def execTimTsData (path : Path) (s : State) : Out := readRow s path rTIM_TS_DATA
/-- HST_EVENT (R310, R410). -/
def execHstEvent (path : Path) (s : State) : Out := readRow s path rHST_EVENT
/-- DBG_DATA (R415). -/
def execDbgData (path : Path) (s : State) : Out := readRow s path rDBG_DATA

/-! ### STAGED_APPLY (R11, R254) -/

/-- The bead boundary at which a snapshot applies: the next multiple of 4 ticks. -/
def nextBead (t : Nat) : Nat := 4 * (t / 4 + 1)

/-- Routing as an applied snapshot leaves it: a change of ACTIVE sets OPN_FLIP, and neither version is retired (R187). -/
def opnApplied (old s : State) : State :=
  let s1 := if activeV old = activeV s then s
    else { regSet s rOPN_FLIP (BitVec.ofNat 64 s.now) with retired := [] }
  finishAll s1 (fun h => pcode h.pkt = 0x61) fun s h => done s h (regGet s rOPN_FLIP).toNat

/-- FULL_MODE takes effect: a write held then is completed if a stage shows free, and dropped under FLAG otherwise (R343). -/
def caneApplied (s : State) (i : CaneId) : State :=
  let flag := rd s (rSBD_CANE_CTL i) fSBD_CANE_CTL_FULL_MODE = 0
  let s1 := caneSettle (setCane s i { getCane s i with flagMd := flag }) i
  if !flag then s1
  else
    let x := getCane s1 i
    let s2 := match x.held with
      | some _ => caneOvr (setCane s1 i { x with held := none, ovr := true, dropped := satAdd32 x.dropped 1 }) i
      | none => s1
    let late := s2.faultHeld.filter fun h => h.chan = i
    late.foldl (fun s h => faultPush s h.item) { s2 with faultHeld := s2.faultHeld.filter fun h => h.chan ≠ i }

/-- What a block does with its new active values. -/
def applied (old s : State) : Block → State
  | .tim => finishAll (timApplied old s) (fun h => pcode h.pkt = 0x51) fun s h => done s h s.now
  | .opn => opnApplied old s
  | .cane i => caneApplied s i
  | _ => s

/-- STAGED_APPLY (R11, R254): the whole snapshot at once, at or after its bead boundary. -/
def execStagedApply (b : Block) (s : State) : Out :=
  match s.snaps.find? fun q => decide (q.block = b) with
  | some q =>
    if s.now < nextBead q.at_ then .next s
    else
      let s1 := q.words.foldl (fun s w => applyWord s w.1 w.2) { s with snaps := s.snaps.filter fun k => k.block ≠ b }
      .next (applied s s1 b)
  | none => .next s

end Machine
end Sys2Proof
end

