-- ==== Sys2Proof/Machine/Ed25519.lean ====
section
/-! DEFINITION. Ed25519 signatures (RFC 8032), by which images, tokens, certificates and reports are signed
(16 R371, R377, R380, R383). -/
namespace Sys2Proof
namespace Machine

/-- The field prime and the order of the base point. -/
def edP : Nat := 2 ^ 255 - 19
def edL : Nat := 2 ^ 252 + 27742317777372353535851937790883648493

/-- b^e mod the field prime, for e below 2^256, square and multiply from the top bit. -/
def edPow (b e : Nat) : Nat :=
  (List.range 256).foldl (fun a i => let q := a * a % edP; if e.testBit (255 - i) then q * b % edP else q) 1

def edInv (a : Nat) : Nat := edPow a (edP - 2)

/-- The curve constant -121665/121666. -/
def edD : Nat := (edP - 121665) * edInv 121666 % edP

/-- A point in extended coordinates X, Y, Z, T. -/
structure EdPt where
  x : Nat
  y : Nat
  z : Nat
  t : Nat
  deriving DecidableEq, Repr

def edZero : EdPt := { x := 0, y := 1, z := 1, t := 0 }
def edAff (x y : Nat) : EdPt := { x := x, y := y, z := 1, t := x * y % edP }

/-- The sum of two points. -/
def edAdd (d : Nat) (p q : EdPt) : EdPt :=
  let a := (p.y + edP - p.x) * (q.y + edP - q.x) % edP
  let b := (p.y + p.x) * (q.y + q.x) % edP
  let c := 2 * p.t * q.t % edP * d % edP
  let dd := 2 * p.z * q.z % edP
  let e := b + edP - a
  let f := dd + edP - c
  let g := dd + c
  let h := b + a
  { x := e * f % edP, y := g * h % edP, z := f * g % edP, t := e * h % edP }

/-- n times a point. -/
def edMul (d n : Nat) (p : EdPt) : EdPt :=
  (List.range 256).foldl (fun a i => let q := edAdd d a a; if n.testBit (255 - i) then edAdd d q p else q) edZero

def edEq (p q : EdPt) : Bool := (p.x * q.z) % edP = (q.x * p.z) % edP && (p.y * q.z) % edP = (q.y * p.z) % edP

/-- A square root of u/v if there is one. -/
def edRoot (u v : Nat) : Option Nat :=
  let x := u * edInv v % edP
  let r := edPow x ((edP + 3) / 8)
  if r * r % edP = x then some r
  else
    let r2 := r * edPow 2 ((edP - 1) / 4) % edP
    if r2 * r2 % edP = x then some r2 else none

/-- A point from its 32 bytes. -/
def edDecode (bs : List Nat) : Option EdPt :=
  let n := leBytes (bs.take 32)
  let y := n % 2 ^ 255
  let odd := n / 2 ^ 255 % 2
  if edP ≤ y then none
  else match edRoot ((y * y + edP - 1) % edP) ((edD * y % edP * y + 1) % edP) with
    | none => none
    | some r => if r = 0 && odd = 1 then none else some (edAff (if r % 2 = odd then r else edP - r) y)

def edEncode (p : EdPt) : List Nat :=
  let i := edInv p.z
  let x := p.x * i % edP
  bytesLE 32 (p.y * i % edP + x % 2 * 2 ^ 255)

/-- The base point. -/
def edBase : EdPt :=
  edAff 15112221349535400772501151409588531511454012693041857206046113283949847762202
    46316835694926478169428394003475163141307993866256225615783033603165251855960

/-- The secret scalar and the prefix of a 32-byte seed. -/
def edExpand (seed : List Nat) : Nat × List Nat :=
  let h := sha512 seed
  let a := leBytes (h.take 32)
  (a % 2 ^ 254 / 8 * 8 + 2 ^ 254, h.drop 32)

/-- The public key of a seed. -/
def edPublic (seed : List Nat) : List Nat := edEncode (edMul edD (edExpand seed).1 edBase)

/-- A signature: 64 bytes. -/
def edSign (seed msg : List Nat) : List Nat :=
  let (a, pre) := edExpand seed
  let r := leBytes (sha512 (pre ++ msg)) % edL
  let rb := edEncode (edMul edD r edBase)
  let k := leBytes (sha512 (rb ++ edPublic seed ++ msg)) % edL
  rb ++ bytesLE 32 ((r + k * a) % edL)

/-- Whether a signature verifies. -/
def edVerify (key msg sig : List Nat) : Bool :=
  let v := leBytes ((sig.drop 32).take 32)
  match edDecode key, edDecode sig with
  | some a, some r =>
    let k := leBytes (sha512 (sig.take 32 ++ key.take 32 ++ msg)) % edL
    decide (v < edL) && edEq (edMul edD v edBase) (edAdd edD r (edMul edD k a))
  | _, _ => false

end Machine
end Sys2Proof
end

