-- ==== Sys2Proof/Machine/HostMisc.lean ====
section
/-! DEFINITION. Fault, telemetry, twin and power commands (13 R328 to R330; 11 R269; 15 R364). -/
namespace Sys2Proof
namespace Machine

/-! ### The fault log (R284, R328) -/

def flogWr (s : State) : Nat := rd s rGAF_FLOG_CTL fGAF_FLOG_CTL_WR
def flogRd (s : State) : Nat := rd s rGAF_FLOG_CTL fGAF_FLOG_CTL_RD

/-- Record number n of the log. -/
def flogRec (s : State) (n : Nat) : List W64 := (List.range 8).map fun j => regGet s (rGAF_FLOG (n % 256) j)
def recBytes (ws : List W64) : List Nat := ws.flatMap fun w => bytesLE 8 w.toNat

/-- Unread records that are still in the ring: the number of the oldest, and how many. -/
def flogUnread (s : State) : Nat × Nat :=
  let n := (flogWr s + 2 ^ 32 - flogRd s) % 2 ^ 32
  if 256 < n then ((flogWr s + 2 ^ 32 - 256) % 2 ^ 32, 256) else (flogRd s, n)

/-- Records of a context still in the ring, oldest first. -/
def flogOf (s : State) (c : CtxId) : List (List W64) :=
  let n := min (flogWr s) 256
  ((List.range n).map fun i => flogRec s (flogWr s - n + i)).filter fun ws => decide (wCtx (ws.getD 0 0) = some c)

/-- FAULT_READ from the PF or the sideband reads on from RD; from a VF or an alias it gives its own context's records (R328, R335). -/
def faultReadBody (s : State) (h : HeldCmd) : State :=
  let c := pctx h.pkt
  let most := pf h.pkt 2 8 0
  let own := match h.src with | .vf _ => true | .pf _ => (getCtx s c).vfOwn | .sideband => false
  let ovw := rd s rGAF_FLOG_OVW fGAF_FLOG_OVW_OVW
  if own then
    let rs := (flogOf s c).take most
    finishData s h (rs.flatMap recBytes) (rs.length + ovw * 2 ^ 32)
  else
    let (a, n) := flogUnread s
    let k := min n most
    let rs := (List.range k).map fun i => flogRec s ((a + i) % 2 ^ 32)
    if h.src ≠ .sideband && decide (pf h.pkt 1 31 0 < 64 * k) then refuse s h stBufShort
    else finishData (wr s rGAF_FLOG_CTL fGAF_FLOG_CTL_RD (a + k)) h (rs.flatMap recBytes) (k + ovw * 2 ^ 32)

/-- FAULT_READ (R328). -/
def execFaultRead (src : Src) (p : Packet) (s : State) : Out := simpleCmd s src p 0x80 faultReadBody
/-- FAULT_CLEAR (R284, R328). -/
def execFaultClear (src : Src) (p : Packet) (s : State) : Out :=
  simpleCmd s src p 0x81 fun s h => done (wr s rGAF_FLOG_CTL fGAF_FLOG_CTL_RD (flogWr s)) h 0

/-! ### Telemetry (R190, R329, R364) -/

/-- Set 0x1: the congestion map. -/
def congestionSet (s : State) : List Nat :=
  (List.range 256).flatMap fun w => (List.range 8).flatMap fun p => bytesLE 8 (regGet s (rOPN_CMAP w p)).toNat

/-- A sensor's reading (R337, R363), as SENSOR_REFRESH left it (log 37). -/
def reading (s : State) (k : Nat) : Int := tget (fun _ => 0) s.sbd.readings k

def temp16 (s : State) (k : Nat) : List Nat := bytesLE 2 (reading s k % 2 ^ 16).toNat

/-- Set 0x2: the sensor snapshot (R364). -/
def sensorSet (s : State) : List Nat :=
  let f (v : Nat) : List Nat := bytesLE 4 v
  bytesLE 8 s.now ++ f (rd s rPWR_INPUT fPWR_INPUT_VIN) ++ f (rd s rPWR_INPUT fPWR_INPUT_IIN) ++ f (rd s rPWR_POWER fPWR_POWER_P_1MS) ++
    f (rd s rPWR_POWER fPWR_POWER_P_1S) ++ (List.range 20).flatMap (fun i => temp16 s (5 + i)) ++
    (List.range 27).flatMap (fun r => bytesLE 2 (rd s (rPWR_RAIL r) fPWR_RAIL_VOUT)) ++
    (List.range 27).flatMap (fun r => bytesLE 2 (rd s (rPWR_RAIL r) fPWR_RAIL_IOUT)) ++
    f (rd s rPWR_EVT_CNT fPWR_EVT_CNT_SAGS) ++ f (rd s rPWR_EVT_CNT fPWR_EVT_CNT_SURGES) ++ f (rd s rPWR_EVT_CNT fPWR_EVT_CNT_RIPPLES) ++
    f (rd s rPWR_EVT_CNT fPWR_EVT_CNT_INTERRUPTIONS) ++ f (rd s rPWR_DOMAIN fPWR_DOMAIN_ON)

def zoneStalled (s : State) (z : Nat) : Nat := ((List.range 16).map fun i => (getTile s (16 * z + i)).stalled).sum

/-- Set 0x3: utilisation. -/
def usageSet (s : State) : List Nat :=
  let t (x : Tbl Nat) (n : Nat) : List Nat := (List.range n).map fun i => tget (fun _ => 0) x i
  ([s.now] ++ (List.range 16).map (zoneIssued s) ++ (List.range 16).map (zoneStalled s) ++ t s.lpPlan 4 ++ t s.lpOpen 4 ++ t s.lnkPlan 24 ++
    t s.lnkOpen 24).flatMap fun v => bytesLE 8 v

/-- TELEMETRY_READ (R329). -/
def execTelemetryRead (src : Src) (p : Packet) (s : State) : Out :=
  simpleCmd s src p 0x90 fun s h =>
    let k := pf h.pkt 2 3 0
    dataBody (fun s => if k = 1 then congestionSet s else if k = 2 then sensorSet s else usageSet s) s h

/-! ### TWIN_SET (R269, R330) -/

/-- A twin link of R269: UP at x4, with the partner at its other end. -/
def twinUp (s : State) (l gid : Nat) : Bool :=
  lnkState s l = 6 && rd s (rLNK_STATUS l) fLNK_STATUS_WIDTH = 0 && rd s (rLNK_NBR0 l) fLNK_NBR0_VALID = 1 &&
    rd s (rLNK_NBR0 l) fLNK_NBR0_GID = gid

/-- The link is the only member of its port (R138, R269). -/
def alone (s : State) (l : Nat) : Bool := (List.range 24).all fun k => k = l || portOf s k ≠ portOf s l

/-- The reason TWIN_SET refuses, in the order of R330. -/
def twinRefused (s : State) (p : Packet) : Option Nat :=
  let c : CtxId := Fin.ofNat 8 (pf p 0 58 56)
  let gid := pf p 0 19 0
  let ls := [pf p 1 4 0, pf p 1 12 8]
  if !(getCtx s c).dm then some 1
  else if !ls.all fun l => twinUp s l gid then some 2
  else if !ls.all (alone s) then some 3
  else if ls.any fun l => ctxsOn s l holdsPlan ≠ [] then some 4
  else if rd s rDET_TWIN_CTL fDET_TWIN_CTL_ENABLE = 1 && rd s rDET_TWIN_CTL fDET_TWIN_CTL_CTX ≠ c.val then some 5
  else none

/-- TWIN_SET (R269, R276): ENABLE clear ends twin mode and discards both stores. -/
def twinSetBody (s : State) (h : HeldCmd) : State :=
  let p := h.pkt
  let c : CtxId := Fin.ofNat 8 (pf p 0 58 56)
  let x := getCtx s c
  if x.st = .closed then refuse s h stState
  else if ctxBusy x then refuse s h stBusy
  else if pf p 0 63 63 = 0 then done { wr s rDET_TWIN_CTL fDET_TWIN_CTL_ENABLE 0 with twin := TwinSt.zero } h 0
  else match twinRefused s p with
    | some r => finish s h 0x60 r []
    | none =>
      let w := fput [(fDET_TWIN_CTL_ENABLE, 1), (fDET_TWIN_CTL_CTX, c.val), (fDET_TWIN_CTL_LINKA, pf p 1 4 0), (fDET_TWIN_CTL_LINKB, pf p 1 12 8),
        (fDET_TWIN_CTL_PARTNER, pf p 0 19 0)]
      done { regSet s rDET_TWIN_CTL w with twin := TwinSt.zero } h 0

/-- TWIN_SET (R269, R330). -/
def execTwinSet (src : Src) (p : Packet) (s : State) : Out := simpleCmd s src p 0xD0 twinSetBody

/-! ### POWER_POLICY (R330) -/

/-- POWER_POLICY: the cap and the limit; 0 keeps the limit. -/
def powerPolicyBody (s : State) (h : HeldCmd) : State :=
  let w := pf h.pkt 0 31 16
  let s1 := if pf h.pkt 0 3 3 = 1 then wr s rCLK_TEMPER fCLK_TEMPER_CAP_STEP (pf h.pkt 0 2 0) else s
  let s2 := if w = 0 then s1 else wr s1 rPWR_LIMIT fPWR_LIMIT_LIMIT w
  done s2 h (rd s2 rCLK_TEMPER fCLK_TEMPER_CAP_STEP + rd s2 rPWR_LIMIT fPWR_LIMIT_LIMIT * 2 ^ 16)

/-- POWER_POLICY (R330). -/
def execPowerPolicy (src : Src) (p : Packet) (s : State) : Out := simpleCmd s src p 0xE0 powerPolicyBody

end Machine
end Sys2Proof
end

