-- ==== Sys2Proof/Machine/Sec.lean ====
section
/-! DEFINITION. Firmware images, identity, attestation and life cycle (16 R370 to R385). -/
namespace Sys2Proof
namespace Machine

/-! ### The boot image (R370 to R372) -/

/-- What an unlisted byte of the boot flash reads as: erased (R370; log 5). -/
def flashDef : Nat → Byte := fun _ => 0xFF

def flashRead (s : State) (a n : Nat) : Nat := cellsRead flashDef s.flash a n
/-- n bytes programmed from a. -/
def flashPut (s : State) (a n v : Nat) : State := { s with flash := cellsPut flashDef s.flash a n v }
/-- n bytes erased from a. -/
def flashErase (s : State) (a n : Nat) : State :=
  { s with flash := s.flash.filter fun e => !(decide (a ≤ e.1) && decide (e.1 < a + n)) }

/-- The commit block (R370). -/
def commitAt : Nat := 0x10000000
/-- Firmware staging, as a local offset (R105). -/
def fwStage : Nat := tableAddr 0x80000000

/-- A boot image where it stands: how n bytes of it from an offset read, and the bytes there are. -/
structure FwImg where
  get : Nat → Nat → Nat
  len : Nat

def FwImg.bytes (i : FwImg) (a n : Nat) : List Nat := bytesLE n (i.get a n)
/-- Header fields (R371). -/
def FwImg.version (i : FwImg) : Nat := i.get 12 4
def FwImg.key (i : FwImg) : Nat := i.get 19 1
def FwImg.svn (i : FwImg) : Nat := i.get 20 4
def FwImg.body (i : FwImg) : Nat := i.get 24 8
/-- The firmware measurement (R372). -/
def FwImg.meas (i : FwImg) : Nat := leBytes (sha512 (i.bytes 0 192))

def flashImg (s : State) : FwImg := { get := flashRead s, len := 0x10000000 }

/-- Check 1: MAGIC, FORMAT, reserved fields, and LENGTH within the bytes there are (R371, R372). -/
def FwImg.headOk (i : FwImg) : Bool :=
  i.bytes 0 8 = [0x56, 0x4C, 0x48, 0x53, 0x47, 0x41, 0x46, 0x31] && i.get 8 2 = 1 && i.get 10 2 = 0 && i.get 18 1 / 4 = 0 &&
    i.get 192 64 = 0 && decide (256 + i.body ≤ i.len) && decide (256 + i.body ≤ 0x10000000)

def keyOk (s : State) (k : Nat) (pub : List Nat) : Bool :=
  decide (k < 4) && !s.fuse.revoked.getLsbD k && leBytes (sha512 pub) = (Config.keyHash k).toNat

/-- The first check of R372 that fails, as its DETAIL0; `boot` adds check 7. -/
def fwReject (s : State) (i : FwImg) (boot : Bool) : Option Nat :=
  if !i.headOk then some 1
  else if !keyOk s i.key (i.bytes 32 32) then some 2
  else if !edVerify (i.bytes 32 32) (i.bytes 0 128) (i.bytes 128 64) then some 3
  else if !(BitVec.ofNat 8 (i.get 18 1)).getLsbD (rd s rGAF_DEVICE_ID fGAF_DEVICE_ID_STEPPING) then some 4
  else if i.svn < s.fuse.svn then some 5
  else if sha512 (i.bytes 256 i.body) ≠ i.bytes 64 64 then some 6
  else if boot && flashRead s commitAt 64 ≠ i.meas then some 7
  else none

/-- A SEC record: module-level (R387). -/
def secNote (s : State) (n d : Nat) : State := note s none { faultInfo (BitVec.ofNat 16 (0x8000 + n)) 0 0 0 with d0 := d }

/-- The Assayer's crypto engines work: PD03 is on, and its idle time starts again (R357). -/
def useCrypto (s : State) : State :=
  wr { s with boot := { s.boot with crypto := s.now } } rPWR_DOMAIN fPWR_DOMAIN_ON (rd s rPWR_DOMAIN fPWR_DOMAIN_ON ||| 8)

/-! ### FW_STAGE and FW_COMMIT (R373, R374) -/

/-- No staged image. -/
def unstage (s : State) : State := { regSet s rSEC_FW_STAGED 0 with boot := { s.boot with stMeas := 0, stLen := 0 } }

/-- A staged image has passed, or it is lost (R372, R374). -/
def stageEnd (s : State) (h : HeldCmd) (i : FwImg) : State :=
  match fwReject s i false with
  | some d => refuse (secNote (unstage s) 2 d) h 0x50
  | none =>
    let w := fput [(fSEC_FW_STAGED_VALID, 1), (fSEC_FW_STAGED_SVN, i.svn), (fSEC_FW_STAGED_FW_VERSION, i.version)]
    done { regSet s rSEC_FW_STAGED w with boot := { s.boot with stMeas := i.meas, stLen := 256 + i.body } } h (i.version + i.svn % 2 ^ 16 * 2 ^ 32)

/-- FW_STAGE: into firmware staging in service, straight into the image area in recovery by host. -/
def fwStageBody (s : State) (h : HeldCmd) : State :=
  let a := (pw h.pkt 0).toNat
  let n := (pw h.pkt 1).toNat
  let v := hostRead s a n
  if bootMode s = 3 then
    let s1 := flashPut (flashErase (flashErase (unstage s) commitAt 0x10000) 0 n) 0 n v
    stageEnd s1 h { get := flashRead s1, len := n }
  else
    let s1 := openWrite (unstage s) fwStage n v
    stageEnd s1 h { get := fun o k => memRead s1 (fwStage + o) k, len := n }

/-- The commit block is written last (R371, R374). -/
def commitWrite (s : State) : State :=
  wr (flashPut s commitAt 64 s.boot.stMeas) rSEC_FW_STAGED fSEC_FW_STAGED_COMMITTED 1

/-- FW_COMMIT: erase, program, read back, commit block; in recovery by host the commit block alone, and a restart 100 ms later. -/
def fwCommitBody (s : State) (h : HeldCmd) : State :=
  if rd s rSEC_FW_STAGED fSEC_FW_STAGED_VALID = 0 then refuse s h stState
  else if bootMode s = 3 then
    let s1 := commitWrite s
    done { s1 with boot := { s1.boot with restart := some (s.now + 120000000) } } h 0
  else
    let n := s.boot.stLen
    let s1 := flashPut (flashErase (flashErase s commitAt 0x10000) 0 n) 0 n (memRead s fwStage n)
    let i := flashImg s1
    if i.meas ≠ s.boot.stMeas || sha512 (i.bytes 256 (n - 256)) ≠ i.bytes 64 64 then refuse s1 h 0x50 else done (commitWrite s1) h 0

/-- FW_STAGE (R373, R374). -/
def execFwStage (src : Src) (p : Packet) (s : State) : Out := simpleCmd s src p 0xB0 fun s h => fwStageBody (useCrypto s) h
/-- FW_COMMIT (R373, R374). -/
def execFwCommit (src : Src) (p : Packet) (s : State) : Out := simpleCmd s src p 0xB1 fun s h => fwCommitBody (useCrypto s) h

/-! ### Identity and measurements (R377 to R379) -/

def ascii (x : String) : List Nat := x.toList.map (·.toNat)

/-- The UDS as its fuses hold it: all ones once blown (R381). -/
def udsBytes (s : State) : List Nat := if s.fuse.udsBlown then List.replicate 32 0xFF else bytesLE 32 Config.uds.toNat

/-- Seed of the DeviceID key (R377). -/
def deviceSeed (s : State) : List Nat := hkdf512 [] (udsBytes s) (ascii "ZT960-DEVICEID") 32

/-- Seed of the Alias key (R377). -/
def aliasSeed (s : State) (fw cfg : Nat) : List Nat :=
  hkdf512 [] (hmac512 (udsBytes s) (bytesLE 64 Config.romMeas.toNat ++ bytesLE 64 fw ++ bytesLE 64 cfg)) (ascii "ZT960-ALIAS") 32

/-- The configuration measurement (R379). -/
def cfgMeasure (s : State) : Nat :=
  (Config.cfgDigest ((List.range 4).map (fun k => (Config.keyHash k).toNat) ++
    [s.fuse.revoked.toNat, s.fuse.svn, s.fuse.base, s.fuse.tcount, rd s rGAF_DEVICE_ID fGAF_DEVICE_ID_STEPPING] ++
    (List.range 16).map (fun z => rd s (rCLK_ZONE_CTL z) fCLK_ZONE_CTL_CAP) ++ [rd s rSBD_STATUS fSBD_STATUS_STATIC_ADDR] ++
    (List.range 272).map fun p => (regGet s (rTIL_MAP p)).toNat &&& 0xE0FF)).toNat

/-- Recovery by host: there is no Alias key, and the ROM signs with the DeviceID key (R377). -/
def byDevice (s : State) : Bool := s.boot.alias_.isNone

/-- The seed of the key that signs reports. -/
def signSeed (s : State) : List Nat := match s.boot.alias_ with | some a => bytesLE 32 a | none => deviceSeed s

def certBytes (bs : List (BitVec 8)) : List Nat := bs.map (·.toNat)

/-- Certificate i of the chain (R378). -/
def certOf (s : State) (i : Nat) : List Nat :=
  if i = 3 then certBytes (Config.aliasCert (BitVec.ofNat 512 s.boot.fwMeas) (BitVec.ofNat 512 s.boot.cfgMeas) (BitVec.ofNat 32 (rd s rSEC_FW fSEC_FW_FW_VERSION)))
  else if i = 2 && s.boot.selfDev then certBytes Config.selfCert
  else certBytes (Config.cert i)

/-- Measurements 1 to 4 (R379). -/
def measOf (s : State) (i : Nat) : List Nat :=
  bytesLE 64 (if i = 1 then Config.romMeas.toNat else if i = 2 then s.boot.fwMeas else if i = 3 then s.boot.cfgMeas else s.boot.stMeas)

/-! ### The Hallmark report (R380) -/

/-- Certificates 1 to 3, or 1 to 2 in recovery by host. -/
def chainOf (s : State) : List Nat := certOf s 1 ++ certOf s 2 ++ (if byDevice s then [] else certOf s 3)

/-- The report without its signature. -/
def reportBody (s : State) (nonce : List Nat) : List Nat :=
  let c := chainOf s
  let pad := List.replicate ((8 - c.length % 8) % 8) 0
  let flags := b2n (bootMode s = 3) + 2 * b2n (byDevice s) + 4 * b2n s.boot.selfDev
  ascii "HALLMARK" ++ bytesLE 2 1 ++ bytesLE 2 flags ++ bytesLE 4 (360 + c.length + pad.length + 64) ++ nonce ++ bytesLE 8 s.now ++
    bytesLE 8 (regGet s rTIM_TOD_SEC).toNat ++ [rd s rGAF_DEVICE_ID fGAF_DEVICE_ID_STEPPING, lcState s, rd s rSEC_FW fSEC_FW_KEY_INDEX, 0] ++
    bytesLE 4 (rd s rSEC_FW fSEC_FW_FW_VERSION) ++ bytesLE 4 (rd s rSEC_FW fSEC_FW_SVN) ++ bytesLE 4 s.fuse.svn ++
    bytesLE 8 (regGet s rGAF_SERIAL_HASH).toNat ++ bytesLE 4 (ownGid s + 2 ^ 31 * rd s rGAF_LOCATION fGAF_LOCATION_GID_VALID) ++ bytesLE 4 0 ++
    (measOf s 1 ++ measOf s 2 ++ measOf s 3 ++ measOf s 4) ++ bytesLE 4 c.length ++ bytesLE 4 0 ++ c ++ pad

def hallmark (s : State) (nonce : List Nat) : List Nat := let r := reportBody s nonce; r ++ edSign (signSeed s) r

/-- ATTEST (R380); refused in SCRAPPED. -/
def attestBody (s : State) (h : HeldCmd) : State :=
  if lcState s = 5 then refuse s h stState
  else dataBody (fun s => hallmark s ((List.range 4).flatMap fun i => bytesLE 8 (pw h.pkt (2 + i)).toNat)) s h

/-- CERT_READ (R378). -/
def certReadBody (s : State) (h : HeldCmd) : State :=
  let i := pf h.pkt 2 7 0
  if lcState s = 5 || (i = 3 && bootMode s = 3) then refuse s h stState else dataBody (fun s => certOf s i) s h

/-- ATTEST (R380). -/
def execAttest (src : Src) (p : Packet) (s : State) : Out := simpleCmd s src p 0xA0 fun s h => attestBody (useCrypto s) h
/-- CERT_READ (R378). -/
def execCertRead (src : Src) (p : Packet) (s : State) : Out := simpleCmd s src p 0xA1 certReadBody

/-! ### Life cycle (R381 to R385) -/

/-- The state the fuses spell (R382). -/
def lcOf (f : FuseSt) : Nat :=
  if f.base = 0 then 0 else if f.base = 1 then 1 else if f.base = 2 then (if (f.tcount - f.fieldAt) % 2 = 1 then 3 else 2)
  else if f.base = 3 then 4 else 5

/-- The transitions of R382. -/
def lcAllowed (a b : Nat) : Bool := [(0, 1), (1, 2), (2, 3), (3, 2), (2, 4), (3, 4), (4, 5)].contains (a, b)

/-- The byte offset of the first field of a token that fails (R383, R387). -/
def tokenBad (s : State) (t : List Nat) (target : Nat) : Option Nat :=
  let g (a n : Nat) : Nat := leBytes ((t.drop a).take n)
  let key := (t.drop 24).take 32
  if t.take 8 ≠ ascii "VLHSLCT1" then some 0
  else if g 8 1 ≠ lcState s then some 8
  else if g 9 1 ≠ target || !lcAllowed (g 8 1) (g 9 1) then some 9
  else if g 10 2 ≠ 0 then some 10
  else if g 12 4 ≠ s.fuse.tcount + 1 then some 12
  else if g 16 8 ≠ (regGet s rGAF_SERIAL_HASH).toNat then some 16
  else if leBytes (sha512 key) ≠ Config.tokenHash.toNat then some 24
  else if !edVerify key (t.take 56) (t.drop 56) then some 56
  else none

/-- Every byte of memory zeroed by the method of R98, with the copies of tables the NI holds (R384, R385). -/
def wipeAll (s : State) : State := { s with mem := [], flaw := [], poison := [], rankC := [], routeC := [] }

/-- The fuses after a transition (R382, R384). -/
def lcFuses (f : FuseSt) (target : Nat) : FuseSt :=
  let n := f.tcount + 1
  if target = 1 then { f with base := 1, tcount := n }
  else if target = 2 && f.base = 1 then { f with base := 2, tcount := n, fieldAt := n }
  else if target = 4 then { f with base := 3, tcount := n }
  else if target = 5 then { f with base := 4, tcount := n, udsBlown := true }
  else { f with tcount := n }

/-- SEC_LC shows the fuses. -/
def showLc (s : State) : State := wr (wr s rSEC_LC fSEC_LC_STATE (lcOf s.fuse)) rSEC_LC fSEC_LC_TCOUNT s.fuse.tcount

/-- LIFECYCLE (R384). -/
def lifecycleBody (s : State) (h : HeldCmd) : State :=
  let target := pf h.pkt 0 3 0
  let t := bytesLE 120 (hostRead s (pw h.pkt 1).toNat 120)
  if !(allCtx.all fun c => (getCtx s c).st = .closed) || decide (128 ≤ s.fuse.tcount) then refuse s h stState
  else match tokenBad s t target with
    | some o => refuse (secNote s 3 o) h 0x50
    | none =>
      let s1 := unstage (wipeAll s)
      let s2 := showLc { s1 with fuse := lcFuses s1.fuse target }
      done { s2 with boot := { s2.boot with lcAt := some (s.now + 120000000) } } h 0

/-- LIFECYCLE (R383, R384). -/
def execLifecycle (src : Src) (p : Packet) (s : State) : Out := simpleCmd s src p 0xC0 fun s h => lifecycleBody (useCrypto s) h

/-- LIFECYCLE_RECOVERY_START (R384): device recovery with cause 0x4, 100 ms after the reply. -/
def execLifecycleRecoveryStart (s : State) : Out :=
  match s.boot.lcAt with
  | some t => .next (if t ≤ s.now then recovStart { s with boot := { s.boot with lcAt := none } } 4 else s)
  | none => .next s

end Machine
end Sys2Proof
end

