-- ==== Sys2Proof/Machine/Boot.lean ====
section
/-! DEFINITION. Power-on, the boot phases (16 R369, R372, R373, R375), recovery by host, the tile map (02 R25, R26) and the
phases of a device recovery (12 R294, R295). -/
namespace Sys2Proof
namespace Machine

/-! ### Domains and rails (R354, R357) -/

def domOn (s : State) (m : Nat) : State := wr s rPWR_DOMAIN fPWR_DOMAIN_ON (rd s rPWR_DOMAIN fPWR_DOMAIN_ON ||| m)
def domOff (s : State) (m : Nat) : State := wr s rPWR_DOMAIN fPWR_DOMAIN_ON (rd s rPWR_DOMAIN fPWR_DOMAIN_ON &&& (2 ^ 32 - 1 - m))
/-- A mask of domains a to b. -/
def domBits (a b : Nat) : Nat := 2 ^ (b + 1) - 2 ^ a
def railsGood (s : State) (rs : List Nat) : State := rs.foldl (fun s r => wr s (rPWR_RAIL r) fPWR_RAIL_PG 1) s
def hasAll (r : PhaseResult) (m : Nat) : Bool := decide (r.powerGood.toNat &&& m = m)

/-- The rail of a domain that did not come up is out of service until power-on (R354, R356, R368). -/
def domRail (d : Nat) : Nat := if 10 ≤ d && d ≤ 25 then d - 10 else if 4 ≤ d && d ≤ 7 then 20 else 16

/-! ### The tile map (R25) -/

def usable (s : State) (bad : BitVec 272) (p : Nat) : Bool := !s.fuse.repair.getLsbD p && !bad.getLsbD p && !tget (fun _ => false) s.repairRec p

/-- Usable physical tiles of zone n, counting upward. -/
def zoneUsable (s : State) (bad : BitVec 272) (n : Nat) : List Nat := ((List.range 17).map fun i => 17 * n + i).filter (usable s bad)

/-- TIL_MAP of a physical tile as the map gives it. -/
def mapWord (s : State) (bad : BitVec 272) (p : Nat) : W64 :=
  let k := (zoneUsable s bad (p / 17)).idxOf p
  let ok := usable s bad p
  fput [(fTIL_MAP_ZONE, p / 17), (fTIL_MAP_MAPPED, b2n (ok && k < 16)), (fTIL_MAP_SPARE, b2n (ok && !decide (k < 16))),
    (fTIL_MAP_FUSED_BAD, b2n (s.fuse.repair.getLsbD p)), (fTIL_MAP_TEST_FAIL, b2n (bad.getLsbD p)),
    (fTIL_MAP_LOGICAL, if ok && decide (k < 16) then 16 * (p / 17) + k else 0)]

/-- The tile map built at power-on from the fuses, the self-test and the repair record. -/
def buildMap (s : State) (bad : BitVec 272) : State :=
  let s1 := (List.range 272).foldl (fun s p => regSet s (rTIL_MAP p) (mapWord s bad p)) s
  { s1 with tileMap := (List.range 256).foldl (fun m t => tset (fun _ => none) m t ((zoneUsable s bad (t / 16))[t % 16]?)) [] }

/-! ### Power-on (R369) -/

/-- PWR_QUENCH shows the Quench store (R353, R367): the count over its life is kept in the register itself. -/
def showQuench (s : State) : State :=
  let s1 := wr s rPWR_QUENCH fPWR_QUENCH_UNREAD (s.pwr.store.filter fun q => q.unread).length
  wr s1 rPWR_QUENCH fPWR_QUENCH_LAST_CAUSE (match s.pwr.store with | q :: _ => q.cause | [] => 0)

/-- A power-on reset of every domain: only the boot flash with its repair records, the fuses, the Quench store, and what is
outside the module, carry over (R296, R353, R370). -/
def powerOn (s : State) : State :=
  let s0 : State := { State.reset with
    pending := s.pending, fresh := s.fresh, hostMem := s.hostMem, outs := s.outs, flash := s.flash, fuse := s.fuse
    repairRec := s.repairRec, ppr := s.ppr, pwr := { PwrSt.zero with store := s.pwr.store } }
  let s1 := regSet (regSet s0 rPWR_QUENCH (regGet s rPWR_QUENCH)) rGAF_SERIAL_HASH (regGet s rGAF_SERIAL_HASH)
  let s2 := wr (wr (showLc s1) rSEC_FW fSEC_FW_REVOKED s.fuse.revoked.toNat) rSEC_FW fSEC_FW_FUSED_SVN s.fuse.svn
  (List.range 272).foldl (fun s p => wr s (rTIL_MAP p) fTIL_MAP_FUSED_BAD (b2n (s.fuse.repair.getLsbD p))) s2

/-- POWER_ON (R369). -/
def execPowerOn (s : State) : Out := .next (powerOn s)

/-! ### The verified image (R372, R373, R377) -/

/-- The state of the host link as training left it (R301). -/
def pcieUp (s : State) (r : PhaseResult) : State :=
  let f (s : State) (x : Fld) (v : Nat) : State := wr s rHST_LINK x v
  if r.flit then f (f (f (f (f s fHST_LINK_UP 1) fHST_LINK_WIDTH r.width.toNat) fHST_LINK_SPEED r.speed.toNat) fHST_LINK_FLIT 1) fHST_LINK_FLIT_REFUSED 0
  else f (f s fHST_LINK_UP 0) fHST_LINK_FLIT_REFUSED 1

/-- A DeviceID certificate that is absent, or of another key (R378): before provisioning, and once the UDS is blown. -/
def noDeviceCert (s : State) : Bool := lcState s = 0 || s.fuse.udsBlown

def certCheck (s : State) : State :=
  let bad := noDeviceCert s
  let s1 := { s with boot := { s.boot with selfDev := bad } }
  if bad then secNote s1 5 0 else s1

/-- Measurement indices 2 and 3 and the firmware's identity registers. -/
def setIdentity (s : State) (fw : Nat) (alias_ : Option Nat) (w : W64) : State :=
  let cfg := cfgMeasure s
  { regSet s rSEC_FW w with boot := { s.boot with fwMeas := fw, cfgMeas := cfg, alias_ := alias_ } }

/-- Phase 3 of a boot or of a recovery: the flash image is verified and measured. Its rejection logs SEC 0x001 and leaves
recovery by host, with no Alias key. -/
def verifyFlash (s : State) : Bool × State :=
  let i := flashImg s
  let keep := fput [(fSEC_FW_REVOKED, s.fuse.revoked.toNat), (fSEC_FW_FUSED_SVN, s.fuse.svn)]
  match fwReject s i true with
  | some d => (false, certCheck (setIdentity (wr (wr (secNote s 1 d) rSEC_BOOT fSEC_BOOT_REJECT d) rSEC_BOOT fSEC_BOOT_MODE 3) 0 none keep))
  | none =>
    let fw := i.meas
    let w := fset fSEC_FW_KEY_INDEX (fset fSEC_FW_SVN (fset fSEC_FW_FW_VERSION keep i.version) i.svn) i.key
    let s1 := setIdentity s fw (some (leBytes (aliasSeed s fw (cfgMeasure s)))) w
    (true, certCheck { s1 with protoMajor := i.get 16 1, protoMinor := i.get 17 1 })

/-! ### The boot phases (R369) -/

def bootPhase (s : State) : Nat := rd s rSEC_BOOT fSEC_BOOT_PHASE
def setBootPhase (s : State) (n : Nat) : State := wr s rSEC_BOOT fSEC_BOOT_PHASE n

/-- Phase 2: the rails come up and PD01 to PD03 come on; one of them that does not leaves the module dead (R354, R368). -/
def boot2 (s : State) (r : PhaseResult) : State :=
  let s1 := railsGood s [26, 18, 22, 23, 24, 25, 21, 16, 17, 20]
  if hasAll r (domBits 1 3) then setBootPhase (domOn s1 (domBits 1 3)) 3 else emit (wr s1 rGAF_RECOVERY fGAF_RECOVERY_DEAD 1) .ibi

/-- Results of crossing calibration (R201). -/
def storeXing (s : State) (xs : List (BitVec 21)) : State :=
  (List.range 16).foldl (fun s z => match xs[z]? with | some v => regSet s (rCLK_XING z) (BitVec.setWidth 64 v) | none => s) s

/-- Phase 4: the core rails at the voltage of step 4, or of a zone's slowest passing step (R208), PD04 to PD31, crossings, link training, and the tile map. -/
def boot4 (s : State) (r : PhaseResult) : State :=
  let on := r.powerGood.toNat &&& domBits 4 31
  let lost := (List.range 32).filter fun d => decide (4 ≤ d) && !(BitVec.ofNat 32 on).getLsbD d
  let s1 := domOn (railsGood s (List.range 16)) on
  let s2 := lost.foldl (fun s d => wr s (rPWR_RAIL (domRail d)) fPWR_RAIL_OOS 1) s1
  let s3 := (List.range 16).foldl startZone (storeXing s2 r.xing)
  let s4 := (List.range 24).foldl (fun s l => if rd s (rLNK_CTL l) fLNK_CTL_ENABLE = 1 && lnkState s l = 0 then startTraining s l 0 true else s) s3
  setBootPhase (buildMap s4 r.tilesBad) 5

/-- Channels of the lowest group that has a failing one (R103). -/
def chanFails (bad : BitVec 128) : Nat :=
  (List.range 4).foldr (fun g a => if bad.toNat >>> (32 * g) % 2 ^ 32 ≠ 0 then bad.toNat >>> (32 * g) % 2 ^ 32 else a) 0
def groupsUp (bad : BitVec 128) : Nat := ((List.range 4).map fun g => if bad.toNat >>> (32 * g) % 2 ^ 32 = 0 then 2 ^ g else 0).sum

/-- Channels are trained in full: four free words of results each, held in the training store (R103). -/
def trainChans (s : State) (m : BitVec 128) : State :=
  { s with fresh := s.fresh + 512
           trainStore := ((List.range 128).filter fun c => m.getLsbD c).foldl (fun t c => tset (fun _ => 0) t c (s.fresh + 4 * c + 1)) s.trainStore }

/-- The stored results go into the controllers (R104). -/
def restoreTraining (s : State) : State := { s with lpTrain := s.trainStore }

/-- LPDDR is trained (R103); recorded rows are repaired at power-on. -/
def trained (s0 : State) (bad : BitVec 128) : State :=
  let s := restoreTraining (trainChans s0 (~~~bad))
  wr (wr s rMEM_LP_STATUS fMEM_LP_STATUS_GROUP_UP (groupsUp bad)) rMEM_LP_STATUS fMEM_LP_STATUS_CH_FAIL (chanFails bad)

/-- Unread Quench records are logged and marked read (R353). -/
def logQuench (s : State) : State :=
  let olds := (s.pwr.store.filter fun q => q.unread).reverse
  let s1 := olds.foldl (fun s q => faultPush s { mkRec s none false q.count { faultInfo 0x7001 0 0 0 with d0 := q.cause } with stop := false }) s
  showQuench { s1 with pwr := { s1.pwr with store := s1.pwr.store.map fun q => { q with unread := false } } }

/-- Fuses burned from firmware that has reached phase 7 (R375). -/
def burnFuses (s : State) : State :=
  let svn := min (max s.fuse.svn (rd s rSEC_FW fSEC_FW_SVN)) 64
  let rv := s.fuse.revoked ||| BitVec.ofNat 4 (2 ^ rd s rSEC_FW fSEC_FW_KEY_INDEX - 1)
  wr (wr { s with fuse := { s.fuse with svn := svn, revoked := rv } } rSEC_FW fSEC_FW_FUSED_SVN svn) rSEC_FW fSEC_FW_REVOKED rv.toNat

/-- Phase 7: Request Retry Status ends and the module serves. -/
def boot7 (s : State) (r : PhaseResult) : State :=
  let s1 := setBootPhase (wr (wr (pcieUp s r) rSEC_BOOT fSEC_BOOT_MODE 0) rSEC_BOOT fSEC_BOOT_BOOT_MS s.boot.ms) 0
  pd31Settle (burnFuses (logQuench s1))

/-- BOOT_PHASE_COMPLETE (R369): what the present phase has done, and the next. -/
def bootStep (s : State) (r : PhaseResult) : State :=
  let n := bootPhase s
  let s0 := { s with boot := { s.boot with ms := s.boot.ms + r.ms.toNat } }
  if n = 1 then setBootPhase (showQuench (railsGood (wr (wr s0 rCLK_ROOT fCLK_ROOT_REF_OK 1) rCLK_ROOT fCLK_ROOT_LOCK 1) [19])) 2
  else if n = 2 then boot2 s0 r
  else if n = 3 then
    let (ok, s1) := verifyFlash s0
    if ok then setBootPhase s1 4 else pcieUp s1 r
  else if n = 4 then boot4 s0 r
  else if n = 5 then setBootPhase { trained s0 r.chanBad with ppr := [] } 6
  else if n = 6 then setBootPhase (wipeAll s0) 7
  else if n = 7 then boot7 s0 r
  else s0

/-- BOOT_PHASE_COMPLETE (R369, R373): while the module boots. -/
def execBootPhaseComplete (r : PhaseResult) (s : State) : Out :=
  .next (if bootMode s = 1 && !dead s && !s.pwr.quenched then tellState s (bootStep s r) else s)

/-- RECOVERY_BY_HOST_RESTART (R373): 100 ms after FW_COMMIT the module restarts from phase 2. -/
def execRecoveryByHostRestart (s : State) : Out :=
  match s.boot.restart with
  | some t =>
    if s.now < t || bootMode s ≠ 3 || s.pwr.quenched then .next s
    else
      let s1 := { s with boot := { s.boot with restart := none, ms := 0 } }
      .next (tellState s (setBootPhase (wr s1 rSEC_BOOT fSEC_BOOT_MODE 1) 2))
  | none => .next s

/-- TILE_SELF_TEST (R18, R26): a run between plans, on a tile that no plan holds; a failure marks the tile. -/
def execTileSelfTest (t : PTileId) (passed : Bool) (s : State) : Out :=
  let held := (List.range 16).any fun i =>
    let k := 16 * (t.val / 17) + i
    physOf s k = t.val && allCtx.any fun c => holdsPlan (getCtx s c) && (planTiles (getCtx s c)).getLsbD k
  .next (if passed || held then s else markFailed s t)

/-! ### The phases of a device recovery (R294, R295) -/

/-- Limits of phases 1 to 7, in ticks. -/
def recLimit (n : Nat) : Nat := 1200000 * ([0, 1, 20, 3000, 200, 1200, 600, 2500].getD n 0)

/-- A phase, or the whole recovery, has passed its limit. -/
def recLate (s : State) : Bool := (1 ≤ s.recPhase && s.recPhase ≤ 7 && decide (s.recStep + recLimit s.recPhase < s.now)) || decide (s.recAt + 9600000000 < s.now)

/-- What the domains that go down lose (R12, R294, R296): tiles, engines and counters, the NI endpoint, the host side and the debug block. -/
def domainsDown (s : State) : State :=
  let s1 := domReset s fun d => d = .pd02 || d = .pd09 || d = .pd30 || d = .pd31 || d = .zone
  let s3 := (List.range 16).foldl (fun s z => modZone (wr s (rCLK_ZONE_CTL z) fCLK_ZONE_CTL_STOPPED 0) z fun x =>
    { x with change := none, hist := [], issues := [], hotSince := none, armedAt := none, shed := false, target := zoneStep s z }) s1
  domOff { s3 with
    tiles := [], engines := [], chip := [], syncNet := [], flight := [], deliv := [], chanW := [], refreshP := [], reqq := [], outst := [], inb := []
    niOut := [], respW := [], hostAcc := [], rankQ := [], rankC := [], winMem := [], winVf := [], msix := [], vfApt := [], ideKeys := [], ideBad := [], spdmSt := []
    twin := TwinSt.zero, lpUsed := [], lpPlan := [], lpOpen := [], ceNext := [], rowErr := [], refWin := [], scrubAt := [], idle := [], lpTrain := []
    canes := tset caneReset s3.canes 1 { caneReset 1 with flagMd := (getCane s3 1).flagMd } } (domBits 1 3 ||| domBits 9 31)

/-- The wipe of phase 6: all SRAM, context space, and the parts of the table region that R105 does not keep. -/
def recWipe (s : State) : State :=
  let s1 := memWipe (memWipe s 0 0xE000000000) (sramAddr 0 0) 0x200000000
  let s2 := memWipe (memWipe (memWipe s1 (tableAddr 0x2000000) 0x2000000) fwStage 0x10000000) (tableAddr 0x100000000) 0x800000000
  unstage s2

/-- The contexts in recovery are CLOSED with GEN advanced, and recovery ends (R277, R294, R300). -/
def recEnd (s : State) : State :=
  let s1 := s.recov.foldl (fun s e =>
    let x := e.2
    let y := setCtx s e.1 { Ctx.zero with gen := x.gen + 1, genLeft := tset (fun _ => none) x.genLeft x.gen.toNat (some s.now) }
    let w := (List.range 24).foldl (fun s l => regSet s (rFWD_OWN e.1 l) 0) y
    let z := (List.range 8).foldl (fun s r => regSet (regSet s (rMEM_CTX_RGN e.1 r) 0) (rMEM_CTX_RGN_LIM e.1 r) 0) w
    regSet (regSet z (rOPN_CTX_ID e.1) 0) (rDET_CTX_CTL e.1) 0) s
  let s2 := setRecPhase { floorUpdate s1 with recov := [] } 0
  pd31Settle (wr s2 rGAF_RECOVERY fGAF_RECOVERY_LAST_MS ((s.now - s.recAt) / 1200000))

/-- Phase 8: PEER_RESET 0x02, and the module serves again (R294, R310). -/
def recServe (s : State) : State :=
  let s1 := recEnd (ctrlAll s (peerResetWord 2))
  hostEvent s1 6 (rd s1 rGAF_RECOVERY fGAF_RECOVERY_COUNT)

/-- The domains of phase 3 that must return. -/
def recDomains : Nat := domBits 1 3 ||| domBits 9 30

/-- What a phase reports that fails the recovery: a domain without power-good, a channel that cannot be brought back (R104, R295). -/
def recBroken (s : State) (r : PhaseResult) : Bool := (s.recPhase = 3 && !hasAll r recDomains) || (s.recPhase = 5 && r.chanBad ≠ 0)

/-- What a phase of the recovery has done when it completes, and the next. -/
def recStepEff (s : State) (r : PhaseResult) : State :=
  let n := s.recPhase
  if n = 1 then setRecPhase s 2
  else if n = 2 then setRecPhase (domainsDown s) 3
  else if n = 3 then
    let (ok, s1) := verifyFlash (domOn s (recDomains ||| domBits 31 31))
    if ok then setRecPhase s1 4 else recEnd (pcieUp s1 r)
  else if n = 4 then setRecPhase ((List.range 272).foldl (fun s p => if r.tilesBad.getLsbD p then markFailed s p else s) (storeXing s r.xing)) 5
  else if n = 5 then setRecPhase (wr (restoreTraining (trainChans s r.chanFull)) rMEM_LP_STATUS fMEM_LP_STATUS_GROUP_UP 15) 6
  else if n = 6 then setRecPhase (recWipe s) 7
  else if n = 7 then setRecPhase (pcieUp s r) 8
  else if n = 8 then recServe s
  else s

/-- RECOVERY_PHASE_COMPLETE (R294, R295): too late, or a failure it reports, fails the recovery. -/
def execRecoveryPhaseComplete (r : PhaseResult) (s : State) : Out :=
  .next (if s.recPhase = 0 || dead s then s else if recLate s || recBroken s r then recovFail s else tellState s (recStepEff s r))

/-- RECOVERY_FAILED (R295): a limit has passed. -/
def execRecoveryFailed (s : State) : Out := .next (if s.recPhase ≠ 0 && recLate s then recovFail s else s)

end Machine
end Sys2Proof
end

