-- ==== Sys2Proof/Machine/CaneCmds.lean ====
section
/-! DEFINITION. Commands of the Cane FIFOs (14 R339 to R345). -/
namespace Sys2Proof
namespace Machine

/-- The reader's attention: the host's vector for CN01, an in-band interrupt for CN03; the Gaffer reads the others (R309, R333, R342). -/
def attention (s : State) (i : Nat) : State :=
  if i = 1 then (if rd s rHST_EVT_CTL fHST_EVT_CTL_ENABLE = 1 then emit s (.vector 0 (rd s rHST_EVT_CTL fHST_EVT_CTL_VECTOR)) else s)
  else if i = 3 then askRead s else s

/-- CANE_WRITE (R343): a whole packet in the transmit channel, or a first event, calls its reader. -/
def execCaneWrite (i : CaneId) (item : CaneItem) (s : State) : Out :=
  let was := (getCane s i).items
  let s1 := caneWrite s i item
  let now := (getCane s1 i).items
  .next (if now.length = was.length then s1 else if i.val = 1 then (if was.isEmpty then attention s1 i else s1) else if item.last then attention s1 i else s1)

/-- CANE_READ (R341): a stage freed lets a held write, or a record its unit holds, go in. -/
def execCaneRead (i : CaneId) (s : State) : Out := .next (refill (caneRead s i).2.2.2)

/-- CANE_TIMEOUT (R342): TIMEOUT reader edges since the last read, or since the FIFO was empty. -/
def execCaneTimeout (i : CaneId) (s : State) : Out :=
  let x := getCane s i
  let n := rd s (rSBD_CANE_CTL i) fSBD_CANE_CTL_TIMEOUT
  if n = 0 || x.items.isEmpty || x.fired || !edgesSince (caneRdPeriod i) n x.timer s.now then .next s
  else .next (attention (flagSet (setCane s i { x with tmo := true, fired := true }) (rSBD_CANE_STAT i) fSBD_CANE_STAT_TMO) i)

end Machine
end Sys2Proof
end

