-- ==== Sys2Proof/Machine/Hang.lean ====
section
/-! DEFINITION. The wait-cycle detector, replay, and the triggers of device recovery (12 R289 to R293). -/
namespace Sys2Proof
namespace Machine

/-! ### The graph of waiting queues (R289) -/

/-- A node: its kind in the order of R289's table and its index. -/
abbrev HNode := Nat × Nat

/-- The wait of a tile stalled in PWAIT, as a counter (R289). -/
def waitCtr (x : Tile) (t : Nat) : Option CtrRef :=
  match x.stall with
  | some st =>
    match st.cond with
    | .local c _ => some (.tile (Fin.ofNat 256 t) c)
    | .chip c _ => some (.chip c)
    | _ => none
  | none => none

/-- Descriptors of an engine not finished in this step. -/
def unfinished (e : Engine) : List Desc := (e.list.drop (if e.active then e.idx else e.upNext)).takeWhile fun d => d.op ≠ 0

/-- The node of a source endpoint: a tile's issue or a gather engine (R289). -/
def sourceNode (ep : Nat) : List HNode := if ep < 256 then [(0, ep)] else if ep < 0x120 then [(6, ep - 256)] else []

/-- Source nodes of the channels of loaded plans that satisfy a test. -/
def chanSources (s : State) (q : Chan → Bool) : List HNode :=
  allCtx.flatMap fun (c : CtxId) =>
    match (getCtx s c).image with
    | some p => (p.chans.filter fun e => e.2.any q).flatMap fun e => sourceNode e.1
    | none => []

/-- A context that is being reset or closed holds no node (R290). -/
def inGraph (s : State) (c : Option CtxId) : Bool :=
  match c with
  | some c => (getCtx s c).st = .opened || (getCtx s c).st = .replay
  | none => false

/-- The service queue node of an access (R81, R289). -/
def queueNode : Need → HNode
  | .sram n _ => (3, n / 2 ^ 19)
  | .period ch => (4, groupOf ch)

/-- What waits for accesses: its arrival, its accesses, whether it is of the local path, and whose it is. -/
structure Waiter where
  at_   : Nat
  needs : List Need
  loc   : Bool
  ctx   : Option CtxId
  deriving DecidableEq, Repr

/-- Requests of the inbound store and the local path, returned data, and host accesses (R81, R184, R186, R323). -/
def waiters (s : State) : List Waiter :=
  let owner (k : Nat) : Option CtxId := (s.outst.find? fun o => o.key = k).map (·.ctx)
  (s.inb.map fun i => { at_ := i.at_, needs := i.needs, loc := i.local_.isSome
                        ctx := match i.local_ with | some k => owner k | none => i.ctx }) ++
    (s.respW.map fun r => { at_ := r.at_, needs := r.needs, loc := r.loc, ctx := owner r.key }) ++
    (s.hostAcc.map fun a => { at_ := a.at_, needs := a.needs, loc := false
                              ctx := match a.who with | .piece _ p _ => some (pctx p) | _ => none })

/-- What waits at a service queue. -/
def queuedAt (s : State) (n : HNode) : List Waiter := (waiters s).filter fun w => w.needs.any fun k => queueNode k = n

/-- The service queues a list of needs waits at. -/
def queuesOf (l : List (List Need)) : List HNode := (l.flatMap fun ns => ns.map queueNode).eraseDups

/-- The inbound store is full: 1,024 packets, or 1 MiB of payload (R184). -/
def inbFull (s : State) : Bool :=
  let ins := s.inb.filter fun i => i.local_.isNone
  decide (1024 ≤ ins.length) || decide (2 ^ 20 ≤ (ins.map fun i => 8 * i.pkt.dataLen).sum)

/-- In which slots of a sample an engine's turn is in a controller group (R88): R289 asks for every one. -/
def alwaysTurn (g m now : Nat) : Bool := (List.range 128).all fun k => groupOf (ownChan g (gSlot now + k)) = m

/-- What a node waits on now (R289). -/
def waitsOn (s : State) (n : HNode) : List HNode :=
  match n.1 with
  | 0 =>
    let x := getTile s n.2
    match waitCtr x n.2 with
    | none => []
    | some r =>
      if !inGraph s x.own then []
      else
        ((List.range 32).filter fun g => inGraph s (getEng s g).own && (unfinished (getEng s g)).any fun d =>
          d.sc ≠ 0 && ctrRefOf d.sc d.target 0 = some r).map (fun g => (6, g)) ++
        (if s.outst.any fun o => ctrRefOf (dSc o.desc.word) (dTarget o.desc.word) (dTile o.desc.word) = some r then [(2, 0)] else []) ++
        (match r with
         | .tile t c => chanSources s fun ch => ch.dkind = 1 && ch.dest = t.val && ch.ctr = c
         | .chip _ => [])
  | 1 =>
    let c : CtxId := Fin.ofNat 8 n.2
    match tget (fun _ => []) s.reqq n.2 with
    | [] => []
    | d :: _ =>
      let ws := (rankCached s n.2 (dDest d.word)).getD []
      let limit := !dMc d.word && decide (4096 ≤ (getField ws 2 rkIssued + 2 ^ 32 - getField ws 2 rkDone) % 2 ^ 32)
      if inGraph s (some c) && (decide (8192 ≤ s.outst.length) || limit || !ordMet s n.2 d.word) then [(2, 0)] else []
  | 2 => queuesOf (((waiters s).filter (·.loc)).map (·.needs))
  | 3 => if queuedAt s n = [] then [] else [(0, n.2)]
  | 4 => if queuedAt s n = [] then [] else ((List.range 32).filter fun g => alwaysTurn g n.2 (s.now - 4096)).map fun g => (6, g)
  | 5 => if inbFull s then queuesOf ((s.inb.filter fun i => i.local_.isNone).map (·.needs)) else []
  | _ =>
    let e := getEng s n.2
    match nextBlock e with
    | some (d, ls, _) =>
      if inGraph s e.own && d.op = 2 && decide ((stagedFor e d.chan s.now ls.length).length < ls.length) then
        (chanSources s fun ch => ch.dkind = 3 && ch.dest = n.2).filter fun k => k.1 = 0
      else []
    | none => []

/-- A number that changes whenever an access is served or an entry leaves, among those that had arrived by a tick. -/
def waitMark (l : List (Nat × List Need)) (by_ : Nat) : Nat :=
  ((l.filter fun e => decide (e.1 ≤ by_)).map fun e => e.1 * 2 ^ 24 + e.2.length + 1).sum

/-- The progress of a node, of what had arrived by a tick: it has made none for a whole sample when this has not changed since the last
one (R289). -/
def hangMark (s : State) (n : HNode) (by_ : Nat) : Nat :=
  let queue := (queuedAt s n).map fun w => (w.at_, w.needs)
  match n.1 with
  | 0 => (getTile s n.2).issued
  | 1 => match tget (fun _ => []) s.reqq n.2 with | d :: _ => d.at_ + 1 | [] => 0
  | 2 => s.niKey - s.outst.length
  | 3 => waitMark queue by_ * 2 ^ 64 + (getTile s n.2).memIdle
  | 4 => waitMark queue by_
  | 5 => waitMark ((s.inb.filter fun i => i.local_.isNone).map fun i => (i.at_, i.needs)) by_
  | _ => (getEng s n.2).blocks * 2 ^ 16 + (getEng s n.2).staging.length

def hangNodes : List HNode :=
  (List.range 256).map (fun t => (0, t)) ++ (List.range 8).map (fun c => (1, c)) ++ [(2, 0)] ++ (List.range 256).map (fun t => (3, t)) ++
    (List.range 4).map (fun m => (4, m)) ++ [(5, 0)] ++ (List.range 32).map (fun g => (6, g))

/-- The waiting nodes with what they wait on. -/
def waiting (s : State) : List (HNode × List HNode) :=
  (hangNodes.map fun n => (n, waitsOn s n)).filter fun e => e.2 ≠ []

/-- Those that made no progress since the last sample (R289). -/
def stuck (s : State) (ws : List (HNode × List HNode)) : List (HNode × List HNode) :=
  ws.filter fun e => s.hang.marks.any fun m => m.1 = e.1.1 && m.2.1 = e.1.2 && m.2.2 = hangMark s e.1 (s.now - 4096)

/-! ### Closed paths (R290) -/

def succOf (g : List (HNode × List HNode)) (n : HNode) : List HNode :=
  match g.find? fun e => e.1 = n with
  | some e => e.2.filter fun k => g.any fun f => f.1 = k
  | none => []

/-- A shortest closed path through a node, searched breadth first: paths are lists, newest node first. -/
def cycleFrom (g : List (HNode × List HNode)) (n : HNode) : Nat → List (List HNode) → List HNode → Option (List HNode)
  | 0, _, _ => none
  | k + 1, paths, seen =>
    let next := paths.flatMap fun p => (succOf g (p.headD n)).map fun m => (m, p)
    match next.find? fun e => e.1 = n with
    | some e => some e.2
    | none =>
      let fresh := (next.filter fun e => !seen.contains e.1).foldl (fun (a : List (HNode × List HNode)) e => if a.any fun f => f.1 = e.1 then a else a ++ [e]) []
      if fresh = [] then none else cycleFrom g n k (fresh.map fun e => e.1 :: e.2) (seen ++ fresh.map (·.1))

def nodeKey (n : HNode) : Nat := n.1 * 2 ^ 28 + n.2

def insertNode (n : HNode) : List HNode → List HNode
  | [] => [n]
  | m :: ms => if nodeKey n ≤ nodeKey m then n :: m :: ms else m :: insertNode n ms

/-- The node sets of the closed paths of a graph. -/
def cyclesOf (g : List (HNode × List HNode)) : List (List HNode) :=
  (g.filterMap fun e => (cycleFrom g e.1 g.length [[e.1]] []).map fun p => p.foldl (fun l n => insertNode n l) []).eraseDups

/-! ### Firing (R290, R291) -/

/-- Contexts that hold a node or have work queued at it (R290). -/
def nodeCtxs (s : State) (n : HNode) : List CtxId :=
  match n.1 with
  | 0 => (getTile s n.2).own.toList
  | 1 => [Fin.ofNat 8 n.2]
  | 2 => s.outst.map (·.ctx)
  | 3 => (queuedAt s n).filterMap (·.ctx)
  | 4 => (queuedAt s n).filterMap (·.ctx)
  | 5 => (s.inb.filter fun i => i.local_.isNone).filterMap (·.ctx)
  | _ => (getEng s n.2).own.toList

def suspects (s : State) (cyc : List HNode) : List CtxId :=
  let cs := cyc.flatMap (nodeCtxs s)
  allCtx.filter fun (c : CtxId) => cs.contains c && inGraph s (some c)

/-- A node as HANG 0x001 records it: the code of its kind is not the spec's (R299; log 34). -/
def nodeWord (n : HNode) : Nat := (Config.hangKind n.1).toNat * 2 ^ 28 + n.2

/-- HANG 0x001 (R290, R299). -/
def cycleNote (s : State) (cyc : List HNode) (cs : List CtxId) : State :=
  let mask := cs.foldl (fun a c => a + 2 ^ c.val) 0
  let w (i : Nat) : Nat := match cyc[i]? with | some n => nodeWord n | none => 0
  note s none { code := 0x9001, engine := 15, unit := 0, offset := 0, d0 := mask + cyc.length % 256 * 256
                d1 := w 0 + 2 ^ 32 * w 1, d2 := w 2 + 2 ^ 32 * w 3 }

/-- The step the suspect was in may be replayed (R234, R290). -/
def mayReplay (s : State) (c : CtxId) : Bool :=
  let x := getCtx s c
  rd s rGAF_HANG_CTL fGAF_HANG_CTL_REPLAY = 1 && isRunning x &&
    (match x.image with | some p => (stepLenOf p (stepNum s c)).2 | none => false)

/-- What firing does to one suspect (R290, R291). -/
def fireOn (s : State) (c : CtxId) : State :=
  let x := getCtx s c
  let multi := match x.image with | some p => p.multi | none => false
  if x.st = .replay then
    if s.hang.cur = some c then
      guilty (modCtx s c fun x => { x with plan := .faulted, faultTick := (match x.faultTick with | some f => some f | none => some s.now) }) c
    else s
  else if multi then
    let s1 := hangNote s 5 c true
    resetStart (emit (hostEvent s1 3 x.job.toNat) (.jobEvent x.job.toNat)) c false none
  else if mayReplay s c then
    let n := stepNum s c
    let m := BitVec.ofNat 8 (rd s rGAF_HANG_STATUS fGAF_HANG_STATUS_SUSPECTS) ||| 1#8 <<< c.val
    let s1 := wr s rGAF_HANG_STATUS fGAF_HANG_STATUS_SUSPECTS m.toNat
    resetStart { s1 with hang := { s1.hang with queue := s1.hang.queue ++ [c], steps := tset (fun _ => 0) s1.hang.steps c n } } c false (some n)
  else resetStart (hangNote s 4 c true) c false none

/-- The detector fires on a closed path. -/
def fire (s : State) (cyc : List HNode) : State :=
  let cs := suspects s cyc
  let s1 := cycleNote (bump s rGAF_HANG_STATUS fGAF_HANG_STATUS_FIRES) cyc cs
  let s2 := if s1.hang.queue = [] && s1.hang.cur.isNone then wr s1 rGAF_HANG_STATUS fGAF_HANG_STATUS_GUILTY 0 else s1
  cs.foldl fireOn s2

/-- HANG_SAMPLE (R290): every 4,096 ticks while ENABLE is set; a closed path fires in its fourth sample in a row. -/
def execHangSample (s : State) : Out :=
  if gafferDown s || rd s rGAF_HANG_CTL fGAF_HANG_CTL_ENABLE = 0 || s.now % 4096 ≠ 0 || decide (s.hang.at_ = s.now + 1) then .next s
  else
    let ws := waiting s
    let cs := (cyclesOf (stuck s ws)).map fun c =>
      (c, 1 + (match s.hang.cycles.find? fun e => e.1 = c with | some e => if s.hang.at_ + 4096 = s.now + 1 then e.2 else 0 | none => 0))
    let s1 := { s with hang := { s.hang with cycles := cs.filter fun e => e.2 < 4, at_ := s.now + 1
                                             marks := ws.map fun e => (e.1.1, e.1.2, hangMark s e.1 s.now) } }
    .next ((cs.filter fun e => 4 ≤ e.2).foldl (fun s e => fire s e.1) s1)

/-- HANG_REPLAY (R291): once every suspect is held, the lowest is loaded again and armed for its step, alone. -/
def execHangReplay (c : CtxId) (s : State) : Out :=
  let held := s.hang.queue.all fun (d : CtxId) => (getCtx s d).st = .replay
  let first := allCtx.find? fun (d : CtxId) => s.hang.queue.contains d
  if gafferDown s || s.hang.cur.isSome || !held || first ≠ some c then .next s
  else
    let n := tget (fun _ => 0) s.hang.steps c
    let s1 := { s with hang := { s.hang with queue := s.hang.queue.erase c, cur := some c } }
    let (s2, ok) := reload s1 c n
    .next (if ok then modCtx s2 c fun x => { x with endStep := some n, replay := none } else guilty s2 c)

/-! ### Triggers of device recovery (R293) -/

/-- The Gaffer is there to be watched: past the power-on boot and not quenched. -/
def watched (s : State) : Bool := !s.pwr.quenched && bootMode s ≠ 1

/-- WATCHDOG_EXPIRY (R293): the watchdog in PD00 finds the Gaffer a second without service. -/
def execWatchdogExpiry (s : State) : Out := .next (if watched s then recovStart s 3 else s)

/-- DEVICE_RECOVERY (R293): recovery begins with one of the four causes. -/
def execDeviceRecovery (cause : BitVec 4) (s : State) : Out :=
  .next (if watched s && decide (1 ≤ cause.toNat) && decide (cause.toNat ≤ 4) then recovStart s cause.toNat else s)

/-- ENGINE_RESET_TIMEOUT (R293): HANG 0x006 with UNIT 0, and recovery. -/
def execEngineResetTimeout (s : State) : Out :=
  .next (if watched s then recovStart (note s none (faultInfo 0x9006 15 0 0)) 2 else s)

end Machine
end Sys2Proof
end

