-- ==== Sys2Proof/Machine/Idle.lean ====
section
/-! DEFINITION. Idle states (15 R357, R359 to R361), and the root PLL (08 R195). -/
namespace Sys2Proof
namespace Machine

/-- IDLE_ENTRY (R360): the deepest state whose gap holds no event; a unit with no event enters its deepest. -/
def execIdleEntry (u : UnitId) (s : State) : Out :=
  if (getIdle s u).isSome || s.pwr.quenched || unitAwake s u then .next s
  else match (idleRows u).find? fun r => !eventIn s u s.now (s.now + r.gap) with
    | some r =>
      let s1 := bump (wr (setIdle s u (some { since := s.now, ready := none })) (rPWR_IDLE u) fPWR_IDLE_STATE r.code) (rPWR_IDLE u) fPWR_IDLE_ENTRIES
      .next (if u.val < 16 && decide (2 ≤ r.code) then zonePower s1 u r.code else s1)
    | none => .next s

/-- IDLE_WAKE (R360): its event is no further off than its exit time. -/
def execIdleWake (u : UnitId) (s : State) : Out :=
  match getIdle s u with
  | some x =>
    if x.ready.isNone && eventIn s u (x.since + 1) (s.now + (idleRow s u).exit + 1) then .next (startWake s u x) else .next s
  | none => .next s

/-- EARLY_WAKE (R361): an open access to a sleeping zone's SRAM, an open packet for a quiet link. -/
def execEarlyWake (u : UnitId) (s : State) : Out :=
  match getIdle s u with
  | some x => .next (if x.ready.isNone then startWake s u x else s)
  | none => .next s

/-- PD03_IDLE_OFF (R357): the crypto engines have been idle for 1 s. -/
def execPd03IdleOff (s : State) : Out :=
  .next (if s.boot.crypto + 1200000000 ≤ s.now then domOff s 8 else s)

/-- ROOT_PLL_LOCK_LOSS (R195): the reference leaves its range, or the PLL loses lock. -/
def execRootPllLockLoss (refGone pllGone : Bool) (s : State) : Out :=
  let s1 := if refGone then wr s rCLK_ROOT fCLK_ROOT_REF_OK 0 else s
  let s2 := if pllGone then wr s1 rCLK_ROOT fCLK_ROOT_LOCK 0 else s1
  .next (if refGone || pllGone then raiseFlag s2 rCLK_ROOT fCLK_ROOT_LOSS else s2)

end Machine
end Sys2Proof
end

