-- ==== Sys2Proof/Machine/Pcie.lean ====
section
/-! DEFINITION. The BAR4 aperture (13 R305), function resets (R306), the SPDM responder and DOE (R307), and IDE (R308). -/
namespace Sys2Proof
namespace Machine

/-! ### BAR4 (R305) -/

/-- Local offset of BAR4 offset x of a function. -/
def barAddr (s : State) (fn off : Nat) : Nat :=
  2 ^ 21 * fget fHST_APERTURE_BASE (if fn = 0 then regGet s rHST_APERTURE else tget (fun _ => 0) s.vfApt fn) + off

/-- What a function may reach: the PF all data space, VF k the bounds of its context through its 4 GiB (R303, R305). -/
def barReach (s : State) (fn off : Nat) : Bool :=
  let a := barAddr s fn off
  if fn = 0 then inDataSpace a 8 else decide (off + 8 ≤ 2 ^ 32) && (getCtx s (fn - 1)).vfOwn && inBounds s (fn - 1) a 8

/-- An access outside what the function may reach. -/
def aptError (s : State) : State := bump s rHST_ACC_ERR fHST_ACC_ERR_APT_ERR

/-- Eight bytes that wait for their accesses (R16, R305). -/
def barAccess (s : State) (who : HostWho) (a : Nat) (write : Bool) : State :=
  { s with hostAcc := s.hostAcc ++ [{ who := who, addr := a, len := 8, at_ := s.now, needs := accessesOf a 8 write }] }

/-- BAR4_READ: all ones outside; else it waits for its access, and a bad line then gives a poisoned TLP. -/
def execBar4Read (fn : Fin 9) (off : BitVec 36) (tag : BitVec 14) (s : State) : Out :=
  if !barReach s fn off.toNat then .next (emit (aptError s) (.completion fn tag.toNat 0 (BitVec.allOnes 64)))
  else
    .next (barAccess s (.barRead fn tag.toNat) (barAddr s fn off.toNat) false)

/-- BAR4_WRITE: discarded outside. -/
def execBar4Write (fn : Fin 9) (off : BitVec 36) (data : BitVec 64) (s : State) : Out :=
  if !barReach s fn off.toNat then .next (aptError s)
  else
    .next (barAccess s (.barWrite data) (barAddr s fn off.toNat) true)

/-! ### Function resets (R306) -/

/-- Commands that satisfy a test end without replies. -/
def dropCmds (s : State) (q : HeldCmd → Bool) : State :=
  let gone := s.cmds.filter q
  (List.range 8).foldl setHeld
    { s with cmds := s.cmds.filter fun h => !q h
             hostAcc := s.hostAcc.filter fun a => match a.who with | .piece src p _ => !(gone.any (isCmd src p)) | _ => true }

/-- A window returns empty: EXPECT 1, TAKE 0 (R306, R312). -/
def windowReset (s : State) (w : Nat) : State :=
  let s1 := { s with winMem := s.winMem.filter fun e => e.1 / 131072 ≠ w, winVf := s.winVf.filter fun e => e.1 / 16384 ≠ w }
  setHeld (regSet s1 (rHST_WIN w) (regReset (rHST_WIN w))) w

/-- A context reset of an open context that no reset or close holds yet (R286, R297). -/
def ctxReset (s : State) (c : CtxId) : State :=
  let x := getCtx s c
  if x.st = .closed || x.st = .resetting || x.st = .closing then s
  else resetStart (if x.st = .replay then replayEnd (suspectOut s c) else s) c false none

/-- VF_FLR (R306). -/
def execVfFlr (k : CtxId) (s : State) : Out :=
  let s1 := windowReset (dropCmds s fun h => h.src = .vf k) k
  .next (ctxReset { s1 with msix := s1.msix.filter fun e => e.1 / 4096 ≠ k.val + 1 } k)

/-- Contexts opened with VF_OWN. -/
def vfCtxs (s : State) : List CtxId := allCtx.filter fun c => (getCtx s c).st ≠ .closed && (getCtx s c).vfOwn

/-- VF Enable is cleared: every context opened with VF_OWN is reset. -/
def vfClear (s : State) : State := (vfCtxs s).foldl ctxReset s

/-- VF_ENABLE_CLEAR (R306). -/
def execVfEnableClear (s : State) : Out := .next (vfClear s)

/-- HST registers and the event channel return to reset, but for the link that stands (R306, R331). -/
def hstReset (s : State) : State :=
  let l := regGet s rHST_LINK
  let s1 := { s with regs := s.regs.filter fun e => !(decide (0x100000 ≤ e.1) && decide (e.1 < 0x110000)) }
  regSet { s1 with canes := tset caneReset s1.canes 1 { caneReset 1 with flagMd := (getCane s1 1).flagMd } } rHST_LINK l

/-- An FLR of the PF, a hot reset or a host link down (R306); each clears VF Enable. -/
def pfReset (s : State) (kind : PfReset) : State :=
  let s1 := dropCmds s fun h => h.src ≠ .sideband
  let s2 := hstReset ((List.range 8).foldl windowReset s1)
  let s3 := vfClear { s2 with msix := [], vfApt := [], ideKeys := [], ideBad := [] }
  match kind with | .linkDown => wr s3 rHST_LINK fHST_LINK_UP 0 | _ => s3

/-- PF_FLR (R306). -/
def execPfFlr (kind : PfReset) (s : State) : Out := .next (pfReset s kind)

/-! ### The SPDM responder (R307, R377 to R381) -/

def portNum : SpdmPort → Nat
  | .doe => 0
  | .mctp => 1
def spdmZero : SpdmSt := { phase := 0, session := none, log := [] }
def getSpdm (s : State) (p : SpdmPort) : SpdmSt := tget (fun _ => spdmZero) s.spdmSt (portNum p)
def setSpdm (s : State) (p : SpdmPort) (x : SpdmSt) : State := { s with spdmSt := tset (fun _ => spdmZero) s.spdmSt (portNum p) x }

/-- A message from the responder. -/
def spdmOut (s : State) (p : SpdmPort) (bs : List Nat) : State :=
  let s1 := emit s (.spdm p bs)
  match p with | .doe => s1 | .mctp => askRead s1

/-- An ERROR of a code (DSP0274; log 40). -/
def spdmError (s : State) (p : SpdmPort) (code : Nat) : State := spdmOut s p [0x13, 0x7F, code, 0]

/-- A request: not answered before an endpoint ID is assigned; Busy while the Gaffer is down; refused in SCRAPPED; out of
order before `phase` (R333, R336, R380; log 40). -/
def spdmReq (s : State) (p : SpdmPort) (phase : Nat) (f : State → State) : Out :=
  if p = .mctp && rd s rSBD_STATUS fSBD_STATUS_EID = 0 then .next s
  else if gafferDown s then .next (if p = .mctp then spdmError s p 3 else s)
  else if lcState s = 5 then .next (spdmError s p 5)
  else if (getSpdm s p).phase < phase then .next (spdmError s p 4)
  else .next (f (useCrypto s))

/-- A response that joins the transcript. -/
def spdmLog (s : State) (p : SpdmPort) (req resp : List Nat) (phase : Nat) : State :=
  let x := getSpdm s p
  spdmOut (setSpdm s p { x with phase := max x.phase phase, log := x.log ++ req ++ resp }) p resp

def byteList (bs : List (BitVec 8)) : List Nat := bs.map (·.toNat)

/-- n free bytes (log 40). -/
def freeBytes (s : State) (n : Nat) : List Nat × State := let (v, s1) := draw s; (bytesLE n v.toNat, s1)

/-- GET_VERSION: SPDM 1.3; a connection starts anew. -/
def execGetVersion (port : SpdmPort) (s : State) : Out :=
  spdmReq s port 0 fun s =>
    spdmLog (setSpdm s port spdmZero) port [0x10, 0x84, 0, 0] [0x10, 0x04, 0, 0, 0, 1, 0, 0x13] 1

/-- GET_CAPABILITIES: certificates, challenge, signed measurements, key exchange, encryption and MAC; its times and sizes are free. -/
def execGetCapabilities (port : SpdmPort) (req : List (BitVec 8)) (s : State) : Out :=
  spdmReq s port 1 fun s =>
    let (ct, s1) := freeBytes s 1
    let (sz, s2) := freeBytes s1 8
    spdmLog s2 port (byteList req) ([0x13, 0x61, 0, 0, 0] ++ ct ++ [0, 0] ++ bytesLE 4 0x2D6 ++ sz) 2

/-- NEGOTIATE_ALGORITHMS: EdDSA Ed25519 and SHA-512 only; the groups of a session are free. -/
def execNegotiateAlgorithms (port : SpdmPort) (req : List (BitVec 8)) (s : State) : Out :=
  spdmReq s port 2 fun s =>
    let r := byteList req
    if !(leBytes ((r.drop 8).take 4)).testBit 9 || !(leBytes ((r.drop 12).take 4)).testBit 2 then spdmError s port 1
    else
      let (g, s1) := freeBytes s 16
      spdmLog s1 port r ([0x13, 0x63, 4, 0] ++ bytesLE 2 52 ++ [1, 0] ++ bytesLE 4 8 ++ bytesLE 4 0x200 ++ bytesLE 4 4 ++
        List.replicate 16 0 ++ g) 3

/-- The chain of slot 0: its length, the root's hash, certificates 0 to 3 (R378). -/
def spdmChain (s : State) : List Nat :=
  let c := sha512 (certOf s 0) ++ certOf s 0 ++ chainOf s
  bytesLE 2 (c.length + 4) ++ [0, 0] ++ c

/-- GET_DIGESTS. -/
def execGetDigests (port : SpdmPort) (req : List (BitVec 8)) (s : State) : Out :=
  spdmReq s port 3 fun s => spdmLog s port (byteList req) ([0x13, 0x01, 1, 1] ++ sha512 (spdmChain s)) 3

/-- GET_CERTIFICATE: a portion of the chain. -/
def execGetCertificate (port : SpdmPort) (req : List (BitVec 8)) (slot : BitVec 4) (off len : BitVec 16) (s : State) : Out :=
  spdmReq s port 3 fun s =>
    let c := spdmChain s
    if slot ≠ 0 || c.length ≤ off.toNat then spdmError s port 1
    else
      let part := (c.drop off.toNat).take len.toNat
      spdmLog s port (byteList req) ([0x13, 0x02, 0, 0] ++ bytesLE 2 part.length ++ bytesLE 2 (c.length - off.toNat - part.length) ++ part) 3

/-- What a signature covers: the combined prefix of a context, and the hash of the transcript (DSP0274; log 40). -/
def spdmSign (s : State) (context : String) (transcript : List Nat) : List Nat :=
  let pre := (List.replicate 4 (ascii "dmtf-spdm-v1.3.*")).flatten
  let x := ascii context
  edSign (signSeed s) (pre ++ List.replicate (36 - x.length) 0 ++ x ++ sha512 transcript)

/-- CHALLENGE: signed with the Alias key, or the DeviceID key in recovery by host (R380). -/
def execChallenge (port : SpdmPort) (req : List (BitVec 8)) (nonce : BitVec 256) (s : State) : Out :=
  spdmReq s port 3 fun s =>
    let r := byteList req
    let (n, s1) := freeBytes s 32
    let (m, s2) := freeBytes s1 64
    let body := [0x13, 0x03, 0, 1] ++ sha512 (spdmChain s) ++ n ++ (if r.getD 3 0 = 0 then [] else m) ++ [0, 0] ++ (r.drop 36).take 8
    let sig := spdmSign s "responder-challenge_auth signing" ((getSpdm s port).log ++ r.take 4 ++ bytesLE 32 nonce.toNat ++ r.drop 36 ++ body)
    spdmOut (setSpdm s2 port { getSpdm s2 port with log := [] }) port (body ++ sig)

/-- A measurement block: index, DMTF form, type and the digest (R379). -/
def measBlock (s : State) (i : Nat) : List Nat := [i, 1] ++ bytesLE 2 67 ++ [if i = 1 then 0 else if i = 3 then 3 else 1] ++ bytesLE 2 64 ++ measOf s i

/-- GET_MEASUREMENTS: index 0 asks how many there are, 0xFF for all of them. -/
def execGetMeasurements (port : SpdmPort) (req : List (BitVec 8)) (index : BitVec 8) (sign : Bool) (s : State) : Out :=
  spdmReq s port 3 fun s =>
    let i := index.toNat
    if 4 < i && i ≠ 0xFF then spdmError s port 1
    else
      let r := byteList req
      let is := if i = 0 then [] else if i = 0xFF then [1, 2, 3, 4] else [i]
      let recs := is.flatMap (measBlock s)
      let (n, s1) := freeBytes s 32
      let body := [0x13, 0x60, if i = 0 then 4 else 0, 0, is.length] ++ bytesLE 3 recs.length ++ recs ++ n ++ [0, 0] ++ (r.drop (r.length - 8))
      if sign then
        let sig := spdmSign s "responder-measurements signing" ((getSpdm s port).log ++ r ++ body)
        spdmOut (setSpdm s1 port { getSpdm s1 port with log := [] }) port (body ++ sig)
      else spdmLog s1 port r body 3

/-- KEY_EXCHANGE: a session opens; what the exchange returns is free. -/
def execKeyExchange (port : SpdmPort) (req : List (BitVec 8)) (s : State) : Out :=
  spdmReq s port 3 fun s =>
    let (v, s1) := freeBytes s 64
    let s2 := spdmLog s1 port (byteList req) ([0x13, 0x64, 0, 0] ++ v) 3
    setSpdm s2 port { getSpdm s2 port with session := some false }

/-- FINISH: the session is secured. -/
def execFinish (port : SpdmPort) (req : List (BitVec 8)) (s : State) : Out :=
  spdmReq s port 3 fun s =>
    if (getSpdm s port).session = some false then
      let s1 := spdmLog s port (byteList req) [0x13, 0x65, 0, 0] 3
      setSpdm s1 port { getSpdm s1 port with session := some true }
    else spdmError s port 4

/-- DOE_DISCOVERY: the mailbox's three protocols, of PCI-SIG's vendor (R307; log 40). -/
def execDoeDiscovery (idx : BitVec 8) (s : State) : Out :=
  let i := idx.toNat
  let body := if i ≤ 2 then bytesLE 2 1 ++ [i, if i = 2 then 0 else i + 1] else [0xFF, 0xFF, 0, 0]
  .next (emit s (.doe ([1, 0, 0, 0] ++ bytesLE 4 3 ++ body)))

/-! ### IDE (R308) -/

def streamOk (n : Nat) : Bool := decide (n < 8) || n = 15

/-- LINK_SECURE or SEL_SECURE of a stream. -/
def setSecure (s : State) (n : Nat) (on : Bool) : State :=
  if n = 15 then wr s rHST_IDE fHST_IDE_LINK_SECURE (b2n on)
  else
    let m := rd s rHST_IDE fHST_IDE_SEL_SECURE
    wr s rHST_IDE fHST_IDE_SEL_SECURE (if on then m ||| 2 ^ n else m &&& (255 - 2 ^ n))

def isSecure (s : State) (n : Nat) : Bool :=
  if n = 15 then rd s rHST_IDE fHST_IDE_LINK_SECURE = 1 else (rd s rHST_IDE fHST_IDE_SEL_SECURE).testBit n

/-- IDE_KM: within a secured session, a key of a key set; the stream is then secure (log 41). -/
def execIdeKm (stream : BitVec 4) (keySet : BitVec 1) (key : BitVec 256) (s : State) : Out :=
  let n := stream.toNat
  if !streamOk n || !([SpdmPort.doe, .mctp].any fun p => (getSpdm s p).session = some true) then .next s
  else
    let s1 := { useCrypto s with ideKeys := tset (fun _ => none) s.ideKeys (2 * n + keySet.toNat) (some key.toNat), ideBad := tset (fun _ => false) s.ideBad n false }
    .next (setSecure s1 n true)

/-- IDE_INTEGRITY_FAILURE: a secure stream becomes insecure; counted, with event 0x08. -/
def execIdeIntegrityFailure (stream : BitVec 4) (s : State) : Out :=
  let n := stream.toNat
  if !streamOk n || !isSecure s n then .next s
  else
    let s1 := setSecure (bump { s with ideBad := tset (fun _ => false) s.ideBad n true } rHST_IDE fHST_IDE_IDE_FAIL) n false
    .next (hostEvent s1 8 n)

end Machine
end Sys2Proof
end

