-- ==== Sys2Proof/Machine/Sideband.lean ====
section
/-! DEFINITION. The sideband target: addresses (14 R332), MCTP control (R333), vendor messages (R334 to R336), PLDM (R337; 15 R363),
and the test access port (R338). The bytes of MCTP and PLDM messages are those of DSP0236, DSP0240 and DSP0248 (log 33). -/
namespace Sys2Proof
namespace Machine

/-! ### Addresses (R332) -/

/-- A dynamic address is assigned. -/
def setDyn (s : State) (dyn : Nat) : State := wr (wr s rSBD_STATUS fSBD_STATUS_DYN_ADDR dyn) rSBD_STATUS fSBD_STATUS_I3C 1
def hasDyn (s : State) : Bool := decide (rd s rSBD_STATUS fSBD_STATUS_I3C = 1)

/-- SETDASA: the target of that static address, while it has no dynamic one. -/
def execSetdasa (static dyn : BitVec 7) (s : State) : Out :=
  .next (if hasDyn s || rd s rSBD_STATUS fSBD_STATUS_STATIC_ADDR ≠ static.toNat then s else setDyn s dyn.toNat)
/-- ENTDAA. -/
def execEntdaa (dyn : BitVec 7) (s : State) : Out := .next (if hasDyn s then s else setDyn s dyn.toNat)
/-- RSTDAA. -/
def execRstdaa (s : State) : Out := .next (wr (wr s rSBD_STATUS fSBD_STATUS_DYN_ADDR 0) rSBD_STATUS fSBD_STATUS_I3C 0)

/-! ### Requests (R333, R336) -/

/-- ERROR_NOT_READY as an MCTP control response. -/
def notReady (s : State) (who : Nat) : State := mctpSend s who 0 [0, 0, 4]

/-- One request outstanding per requester. -/
def oneEach (s : State) (who : Nat) (f : State → State) : State := if s.sbd.busy.contains who then notReady s who else f s

/-- An MCTP control message: answered whatever the endpoint ID, and by PD00 while the Gaffer is down. -/
def ctrlReq (s : State) (who : BitVec 8) (f : State → State) : Out := .next (oneEach s who.toNat f)

def hasEid (s : State) : Bool := decide (rd s rSBD_STATUS fSBD_STATUS_EID ≠ 0)

/-- Any other request: not answered without an endpoint ID, ERROR_NOT_READY while the Gaffer is down. -/
def mctpReq (s : State) (who : BitVec 8) (f : State → State) : Out :=
  if !hasEid s then .next s else .next (oneEach s who.toNat fun s => if gafferDown s then notReady s who.toNat else f s)

/-- SET_ENDPOINT_ID: 0 and 255 are no endpoint IDs. -/
def execSetEndpointId (who eid : BitVec 8) (s : State) : Out :=
  ctrlReq s who fun s =>
    if eid = 0 || eid = 255 then mctpSend s who.toNat 0 [0, 1, 2]
    else mctpSend (wr s rSBD_STATUS fSBD_STATUS_EID eid.toNat) who.toNat 0 [0, 1, 0, 0, eid.toNat, 0]

/-- MCTP_CONTROL: the endpoint ID, the version of the base protocol and of a type, the message types; others are unsupported. -/
def execMctpControl (who cmd : BitVec 8) (req : List (BitVec 8)) (s : State) : Out :=
  ctrlReq s who fun s =>
    let n := cmd.toNat
    let (v, s1) := draw s
    let f := bytesLE 16 v.toNat
    if n = 2 then mctpSend s who.toNat 0 [0, 2, 0, rd s rSBD_STATUS fSBD_STATUS_EID, 0, 0]
    else if n = 3 then mctpSend s1 who.toNat 0 ([0, 3, 0] ++ f)
    else if n = 4 then
      if [0, 1, 5, 0x7E, 0xFF].contains ((req.getD 0 0).toNat) then mctpSend s1 who.toNat 0 ([0, 4, 0, 1] ++ f.take 4) else mctpSend s who.toNat 0 [0, 4, 0x80]
    else if n = 5 then mctpSend s who.toNat 0 [0, 5, 0, 4, 0, 1, 5, 0x7E]
    else mctpSend s who.toNat 0 [0, n, 5]

/-! ### Vendor messages (R334, R335) -/

/-- SIDEBAND_COMMAND: the command joins the sideband window; its reply is the response. -/
def execSidebandCommand (who : BitVec 8) (p : Packet) (s : State) : Out :=
  mctpReq s who fun s =>
    if !served s .sideband || decide (64 ≤ (s.cmds.filter fun h => winOf h.src = 8).length) then notReady s who.toNat
    else takePacket { s with sbd := { s.sbd with busy := who.toNat :: s.sbd.busy } } .sideband who.toNat p

/-- HANG 0x009 against a context (R299). -/
def jobInfo (c : CtxId) (gid : BitVec 20) (cause : BitVec 8) (ref : BitVec 64) : FaultInfo :=
  { hangInfo 9 c with d0 := gid.toNat + cause.toNat * 2 ^ 24, d1 := ref.toNat }

/-- JOB_NOTICE: HANG 0x009 against every open context of the job; the response is a status word. -/
def execJobNotice (who : BitVec 8) (tag : BitVec 12) (gid : BitVec 20) (cause : BitVec 8) (ref : BitVec 64) (s : State) : Out :=
  mctpReq s who fun s =>
    let cs := allCtx.filter fun (c : CtxId) => (getCtx s c).st ≠ .closed && (getCtx s c).job = tag
    mctpSend (cs.foldl (fun s (c : CtxId) => note s (some c) (jobInfo c gid cause ref)) s) who.toNat 0x7E [2, 0, 0]

/-- MODULE_STATE: the state and GAF_RECOVERY, from PD00 whatever the Gaffer does (R336). -/
def execModuleState (who : BitVec 8) (s : State) : Out :=
  if !hasEid s then .next s
  else .next (oneEach s who.toNat fun s => mctpSend s who.toNat 0x7E ([3, moduleState s] ++ bytesLE 8 (regRead s rGAF_RECOVERY).toNat))

/-- REGISTER_ACCESS: 64 bits, aligned (R304, R381); the offset comes halved. -/
def execRegisterAccess (who : BitVec 8) (write : Bool) (off2 : BitVec 25) (v : BitVec 64) (s : State) : Out :=
  mctpReq s who fun s =>
    let off := 2 * off2.toNat
    let ok := off % 8 = 0
    if write then mctpSend (if ok then regWrite s .sideband off v else bump s rHST_ACC_ERR fHST_ACC_ERR_SIZE_ERR) who.toNat 0x7E [4]
    else
      let (w, s1) := if ok then regReadEff s off else (BitVec.allOnes 64, bump s rHST_ACC_ERR fHST_ACC_ERR_SIZE_ERR)
      mctpSend s1 who.toNat 0x7E (4 :: bytesLE 8 w.toNat)

/-! ### PLDM (R337) -/

/-- A PLDM response: type, command, completion code and data. -/
def pldm (s : State) (who : BitVec 8) (type cmd cc : Nat) (data : List Nat) : State := mctpSend s who.toNat 1 ([0, type, cmd, cc] ++ data)

/-- GET_TID. -/
def execGetTid (who : BitVec 8) (s : State) : Out := mctpReq s who fun s => pldm s who 0 2 0 [0]
/-- GET_PLDM_TYPES: types 0 and 2. -/
def execGetPldmTypes (who : BitVec 8) (s : State) : Out := mctpReq s who fun s => pldm s who 0 4 0 (bytesLE 8 5)

/-- The commands of a type, as a bit field. -/
def pldmCommands (t : Nat) : Option Nat :=
  if t = 0 then some 0x3C else if t = 2 then some (([0x04, 0x0A, 0x0B, 0x10, 0x11, 0x21, 0x50, 0x51].map fun b => 2 ^ b).sum) else none

/-- GET_PLDM_COMMANDS. -/
def execGetPldmCommands (who ptype : BitVec 8) (s : State) : Out :=
  mctpReq s who fun s => match pldmCommands ptype.toNat with | some m => pldm s who 0 5 0 (bytesLE 32 m) | none => pldm s who 0 5 0x83 []

/-- GET_PLDM_VERSION: DSP0248 1.2.0 for type 2; the version of type 0 is free. -/
def execGetPldmVersion (who ptype : BitVec 8) (s : State) : Out :=
  mctpReq s who fun s =>
    let go (s : State) (v : List Nat) : State := pldm s who 0 3 0 ([0, 0, 0, 0, 5] ++ v ++ bytesLE 4 (crc32 v))
    if ptype = 2 then go s [0, 0xF0, 0xF2, 0xF1]
    else if ptype = 0 then (let (v, s1) := draw s; go s1 (bytesLE 4 v.toNat))
    else pldm s who 0 3 0x83 []

/-- The sensors in the order of their records. -/
def sensorIds : List Nat := (List.range 24).map (· + 1) ++ [100, 101]

/-- GET_PDR_REPOSITORY_INFO: available, with a record for each sensor; times and sizes are free. -/
def execGetPdrRepositoryInfo (who : BitVec 8) (s : State) : Out :=
  mctpReq s who fun s =>
    let (v, s1) := draw s
    pldm s1 who 2 0x50 0 ([0] ++ bytesLE 26 v.toNat ++ bytesLE 4 sensorIds.length ++ bytesLE 9 (v.toNat / 2 ^ 208))

/-- GET_PDR: the record of a sensor; its body beyond the sensor's identity is free. -/
def execGetPdr (who : BitVec 8) (handle : BitVec 32) (s : State) : Out :=
  mctpReq s who fun s =>
    let h := if handle = 0 then 1 else handle.toNat
    match sensorIds[h - 1]? with
    | none => pldm s who 2 0x51 0x82 []
    | some id =>
      let (v, s1) := draw s
      let body := bytesLE 2 0 ++ bytesLE 2 id ++ bytesLE 32 v.toNat
      let data := bytesLE 4 h ++ [1, if id < 100 then 2 else 4] ++ bytesLE 2 0 ++ bytesLE 2 body.length ++ body
      pldm s1 who 2 0x51 0 (bytesLE 4 (if h < sensorIds.length then h + 1 else 0) ++ bytesLE 4 0 ++ [5] ++ bytesLE 2 data.length ++ data)

/-- Warning, critical and fatal bounds below and above which a sensor leaves its range (R363); temperatures in 1/16 °C (log 37). -/
def bounds (s : State) (id : Nat) : List (Option Int) × List (Option Int) :=
  let t (w c f : Int) : List (Option Int) × List (Option Int) := ([none, none, none], [some (16 * w - 1), some (16 * c - 1), if f = 0 then none else some (16 * f - 1)])
  if id = 1 then ([some 42000, some 40000, some 36000], [some 60000, some 64000, some 80000])
  else if id = 2 then ([none, none, none], [none, some 60000, some 70000])
  else if id = 3 then ([none, none, none], [some (1000 * rd s rPWR_LIMIT fPWR_LIMIT_LIMIT), some 2400000, none])
  else if id = 4 then ([none, some 620, none], [none, some 880, none])
  else if 5 ≤ id && id ≤ 21 then t 100 105 115
  else if id = 22 then t 40 45 0
  else if id = 23 then t 60 65 0
  else if id = 24 then t 85 95 105
  else ([none, none, none], [none, none, none])

/-- The state of a numeric sensor: 1 normal, 5 to 7 below, 8 to 10 above, by severity (DSP0248). -/
def sensorState (s : State) (id : Nat) (v : Int) : Nat :=
  let (lo, hi) := bounds s id
  let past (i : Nat) : Option Nat :=
    match lo.getD i none, hi.getD i none with
    | some a, some b => if v < a then some (5 + i) else if b < v then some (8 + i) else none
    | some a, none => if v < a then some (5 + i) else none
    | none, some b => if b < v then some (8 + i) else none
    | none, none => none
  match [2, 1, 0].findSome? past with
  | some k => k
  | none => 1

def sensorOn (s : State) (id : Nat) : Bool := tget (fun _ => 0) s.sbd.enables id = 0

/-- GET_SENSOR_READING: numeric sensors 1 to 24. -/
def execGetSensorReading (who : BitVec 8) (sensor : BitVec 16) (s : State) : Out :=
  mctpReq s who fun s =>
    let id := sensor.toNat
    if !sensorIds.contains id || 100 ≤ id then pldm s who 2 0x11 0x80 []
    else
      let st := sensorState s id (reading s id)
      pldm s who 2 0x11 0 ([5, tget (fun _ => 0) s.sbd.enables id, 1, st, st, st] ++ bytesLE 4 (reading s id % 2 ^ 32).toNat)

/-- The state of sensors 100 and 101. -/
def stateOf (s : State) (id : Nat) : Nat := if id = 100 then moduleState s else 1 + rd s rPWR_STATUS fPWR_STATUS_PWR_FAIL

/-- GET_STATE_SENSOR_READINGS: sensors 100 and 101. -/
def execGetStateSensorReadings (who : BitVec 8) (sensor : BitVec 16) (s : State) : Out :=
  mctpReq s who fun s =>
    let id := sensor.toNat
    if id ≠ 100 && id ≠ 101 then pldm s who 2 0x21 0x80 []
    else pldm s who 2 0x21 0 [1, 0, stateOf s id, stateOf s id, stateOf s id]

/-- SET_NUMERIC_SENSOR_ENABLE: 0 enabled, 1 disabled, 2 unavailable. -/
def execSetNumericSensorEnable (who : BitVec 8) (sensor : BitVec 16) (state : BitVec 8) (s : State) : Out :=
  mctpReq s who fun s =>
    let id := sensor.toNat
    if !sensorIds.contains id || 100 ≤ id then pldm s who 2 0x10 0x80 []
    else if 2 < state.toNat then pldm s who 2 0x10 0x81 []
    else pldm { s with sbd := { s.sbd with enables := tset (fun _ => 0) s.sbd.enables id state.toNat } } who 2 0x10 0 []

/-- SET_EVENT_RECEIVER: 0 none, 1 and 3 sent at once, 2 polled. -/
def execSetEventReceiver (who mode eid : BitVec 8) (s : State) : Out :=
  mctpReq s who fun s =>
    if 3 < mode.toNat then pldm s who 2 0x04 2 []
    else pldm { s with sbd := { s.sbd with rcvMode := mode.toNat, rcvEid := eid.toNat } } who 2 0x04 0 []

/-- PLATFORM_EVENT_MESSAGE: taken, and not logged. -/
def execPlatformEventMessage (who : BitVec 8) (_req : List (BitVec 8)) (s : State) : Out := mctpReq s who fun s => pldm s who 2 0x0A 0 [0]

/-- POLL_FOR_PLATFORM_EVENT_MESSAGE: the event acknowledged leaves the queue, and the oldest is returned. -/
def execPollForPlatformEventMessage (who : BitVec 8) (ack : BitVec 16) (s : State) : Out :=
  mctpReq s who fun s =>
    let q := s.sbd.events.filter fun e => e.1 ≠ ack.toNat
    let s1 := { s with sbd := { s.sbd with events := q } }
    match q with
    | [] => pldm s1 who 2 0x0B 0 [0, 0, 0]
    | (id, d) :: _ => pldm s1 who 2 0x0B 0 ([0] ++ bytesLE 2 id ++ bytesLE 4 0 ++ [5, 0] ++ bytesLE 4 d.length ++ d ++ bytesLE 4 (crc32 d))

/-! ### SENSOR_REFRESH (R337, R355, R363) -/

def clip (v : Int) (n : Nat) : Nat := min v.toNat (2 ^ n - 1)

/-- A reading where the registers and Temper show it: 0 is the 1 s power (log 37). A junction that reaches 105 °C sheds its own
zone (R210, R362; log 114). -/
def showReading (s : State) (id : Nat) (v : Int) : State :=
  if id = 0 then wr s rPWR_POWER fPWR_POWER_P_1S (clip v 32)
  else if id = 1 then wr s rPWR_INPUT fPWR_INPUT_VIN (clip v 32)
  else if id = 2 then wr s rPWR_INPUT fPWR_INPUT_IIN (clip v 32)
  else if id = 3 then
    let s1 := wr s rPWR_POWER fPWR_POWER_P_1MS (clip v 32)
    let high := decide ((1000 * rd s rPWR_LIMIT fPWR_LIMIT_LIMIT : Nat) < v.toNat)
    { s1 with pwr := { s1.pwr with overAt := if high then some (s1.pwr.overAt.getD s.now) else none } }
  else if 6 ≤ id && id ≤ 21 then
    let s1 := modZone s (id - 6) fun x => { x with temp := v, hotSince := if 1680 ≤ v then some (x.hotSince.getD s.now) else none }
    if 1680 ≤ v && (getZone s (id - 6)).hotSince.isNone then shedZone s1 (id - 6) else s1
  else s

/-- One reading: a threshold crossed raises a sensorEvent and host event 0x05, whose ARG is free (R363; log 42). -/
def refreshOne (s : State) (e : Nat × Int) : State :=
  let (id, v) := e
  let old := sensorState s id (reading s id)
  let s1 := showReading { s with sbd := { s.sbd with readings := tset (fun _ => 0) s.sbd.readings id v } } id v
  let new := sensorState s id v
  if new = old || !sensorOn s id then s1
  else
    let s2 := pldmEvent s1 (bytesLE 2 id ++ [2, new, old, 5] ++ bytesLE 4 (v % 2 ^ 32).toNat)
    let (a, s3) := draw s2
    hostEvent s3 5 (a.toNat % 2 ^ 16)

/-- SENSOR_REFRESH (R337): every 10 ms, by the Gaffer. -/
def execSensorRefresh (r : Readings) (s : State) : Out := .next (if gafferDown s then s else r.vals.foldl refreshOne s)

/-! ### Test access (R338; log 22) -/

/-- An instruction is selected, with what it drives on the pins. -/
def select (s : State) (i : Nat) (pins : Option (List Bool)) : State := { s with jtag := { s.jtag with instr := i, pins := pins } }

/-- One bit through the bypass register. -/
def bypassBit (s : State) (tdi : Bool) : State :=
  emit { s with jtag := { s.jtag with byp := tdi } } (.tdo [s.jtag.byp])

/-- BYPASS: a newly selected bypass register captures 0. -/
def execBypass (tdi : Bool) (s : State) : Out :=
  let s1 := if s.jtag.instr = 0 then s else { s with jtag := { s.jtag with byp := false } }
  .next (bypassBit (select s1 0 none) tdi)

/-- The 32 bits of IDCODE. -/
def idcode (s : State) : Nat :=
  rd s rGAF_DEVICE_ID fGAF_DEVICE_ID_STEPPING * 2 ^ 28 + 0x0960 * 2 ^ 12 + Config.jedec.toNat * 2 + 1

/-- IDCODE. -/
def execIdcode (s : State) : Out :=
  .next (emit (select s 1 none) (.tdo ((List.range 32).map fun i => (idcode s).testBit i)))

/-- SAMPLE_PRELOAD: the pins sampled are free; the cells shifted in are held. -/
def execSamplePreload (cells : List Bool) (s : State) : Out :=
  let (v, s1) := draw s
  let s2 := emit (select s1 2 none) (.tdo ((List.range cells.length).map fun i => v.getLsbD i))
  .next { s2 with jtag := { s2.jtag with cells := cells } }

/-- EXTEST: the cells drive the pins, and the pins are captured. -/
def execExtest (pins : List Bool) (s : State) : Out := .next (emit (select s 3 (some s.jtag.cells)) (.tdo pins))
/-- CLAMP: the cells drive the pins, with the bypass register selected. -/
def execClamp (s : State) : Out := .next (select s 4 (some s.jtag.cells))
/-- HIGHZ: no pin is driven. -/
def execHighz (s : State) : Out := .next (select s 5 (some []))

/-- PRIVATE_INSTRUCTION: the DBG block where the life cycle permits it, else BYPASS (R338, R381). -/
def execPrivateInstruction (write : Bool) (off : BitVec 5) (v : BitVec 64) (s : State) : Out :=
  if !lcOpen s then .next (bypassBit (select { s with jtag := { s.jtag with byp := false } } 0 none) false)
  else if write then .next (regWrite (select s 6 none) .management (0xF00000 + off.toNat) v)
  else
    let (w, s1) := regReadEff (select s 6 none) (0xF00000 + off.toNat)
    .next (emit s1 (.tdo ((List.range 64).map fun i => w.getLsbD i)))

end Machine
end Sys2Proof
end

