-- ==== Sys2Proof/Machine/Power.lean ====
section
/-! DEFINITION. The supply input, Quench, rails and thermal limits (15 R347 to R358, R362, R365, R366). Voltages are in mV,
currents in mA. -/
namespace Sys2Proof
namespace Machine

/-! ### The supply event log (R348, R367) -/

def sevtWord (kind extreme dur : Nat) : W64 :=
  fput [(fPWR_SEVT_KIND, kind), (fPWR_SEVT_EXTREME, min extreme 0xFFF), (fPWR_SEVT_DURATION, min dur 0xFFFF)]

/-- A new entry of the log: its slot, and the state. Nothing marks an entry read, so each entry overwritten counts in OVW (log 43). -/
def sevtOpen (s : State) (kind extreme : Nat) : Nat × State :=
  let n := rd s rPWR_SEVT_PTR fPWR_SEVT_PTR_WR
  let i := n % 64
  let s1 := if rd s (rPWR_SEVT i) fPWR_SEVT_KIND = 0 then s else bump s rPWR_SEVT_PTR fPWR_SEVT_PTR_OVW
  let s2 := regSet (regSet s1 (rPWR_SEVT i) (sevtWord kind extreme 0)) (rPWR_SEVT_W1 i) (BitVec.ofNat 64 s.now)
  (i, wr s2 rPWR_SEVT_PTR fPWR_SEVT_PTR_WR (n + 1))

/-- An event that ends gets its duration in µs. -/
def sevtClose (s : State) (began i : Nat) : State :=
  wr s (rPWR_SEVT i) fPWR_SEVT_DURATION (min ((s.now - began) / 1200) 0xFFFF)

def sevtLow (s : State) (i mv : Nat) : State :=
  wr s (rPWR_SEVT i) fPWR_SEVT_EXTREME (min (mv / 100) (rd s (rPWR_SEVT i) fPWR_SEVT_EXTREME))
def sevtHigh (s : State) (i v : Nat) : State := keepMax s (rPWR_SEVT i) fPWR_SEVT_EXTREME (v / 100)

/-- Bit k of CLASS: 0 sag, 1 interruption, 2 ripple, 3 surge. -/
def setClass (s : State) (k : Nat) (on : Bool) : State :=
  let m := BitVec.ofNat 4 (rd s rPWR_STATUS fPWR_STATUS_CLASS)
  let b := 1#4 <<< k
  wr s rPWR_STATUS fPWR_STATUS_CLASS (if on then m ||| b else m &&& ~~~ b).toNat

/-- The host's event of a log entry (R364). -/
def sevtEvent (s : State) (kind i : Nat) : State := hostEvent s 5 (kind * 2 ^ 12 + i)

/-- A module-level record of the PWR class (R366). -/
def pwrNote (s : State) (n d0 : Nat) : State := note s none { faultInfo (BitVec.ofNat 16 (0x7000 + n)) 0 0 0 with d0 := d0 }

def setVin (s : State) (mv : Nat) : State := wr s rPWR_INPUT fPWR_INPUT_VIN mv
def vin (s : State) : Nat := rd s rPWR_INPUT fPWR_INPUT_VIN

/-- A class that logs a module-level record and tells the host begins: PWR 0x00n carries the log entry's word 0. -/
def classBegin (s : State) (kind bit extreme n : Nat) (cnt : Fld) : Nat × State :=
  let (i, s1) := sevtOpen s kind extreme
  let s2 := bump (setClass s1 bit true) rPWR_EVT_CNT cnt
  (i, sevtEvent (pwrNote s2 n (regGet s2 (rPWR_SEVT i)).toNat) kind i)

/-! ### Quench (R352, R353) -/

/-- Age of an interruption: counted from its first sample, 1 µs before the class begins (R348). -/
def intrAge (s : State) : Nat := match s.pwr.intr with | some (t, _) => s.now + 1200 - t | none => 0

/-- Rails whose fault is a Quench: VAON, VIB and VSOC, which feeds PD08 (R354, R356, R357). -/
def vitalRails : List Nat := [19, 26, 16]

/-- A rail that should be on: its domains are up, and it is neither switched off after a fault nor out of service. -/
def railUp (s : State) (r : Nat) : Bool :=
  let on := BitVec.ofNat 32 (rd s rPWR_DOMAIN fPWR_DOMAIN_ON)
  !s.pwr.quenched && decide (tget (fun _ => 0) s.pwr.railOff r = 0) && decide (rd s (rPWR_RAIL r) fPWR_RAIL_OOS = 0) &&
    (decide (r = 19) || (if r < 16 then on.getLsbD (10 + r) || rd s (rPWR_IDLE r) fPWR_IDLE_STATE = 2 else on.getLsbD 1 || on.getLsbD 8))

/-- Whether a cause of R352 stands. -/
def quenchDue (s : State) (k : Nat) : Bool :=
  if k = 1 then decide (1200000 < intrAge s)
  else if k = 2 then decide (rd s rPWR_STATUS fPWR_STATUS_PWR_FAIL = 1)
  else if k = 3 then
    decide (80000 < vin s) || (match s.pwr.surge with | some (t, _) => decide (1200000 < s.now + 1200 - t) | none => false)
  else if k = 4 then decide (70000 < rd s rPWR_INPUT fPWR_INPUT_IIN)
  else if k = 5 then ((List.range 17).any fun i => decide (1840 ≤ reading s (5 + i))) || decide (1680 ≤ reading s 24)
  else if k = 6 then vitalRails.any fun r => railUp s r && decide (rd s (rPWR_RAIL r) fPWR_RAIL_PG = 0)
  else false

/-- The cause recorded: the first in the list of those that stand. -/
def quenchCause (s : State) (k : Nat) : Nat := ([1, 2, 3, 4, 5, 6].find? fun j => j = k || quenchDue s j).getD k

/-- Every rail but VAON and every domain but PD00 is off, with what they held (R352, R357). -/
def powerLost (s : State) : State :=
  let s1 := domReset s fun d => d ≠ .pd00
  let s2 := (List.range 27).foldl (fun s r => if r = 19 then s else wr s (rPWR_RAIL r) fPWR_RAIL_PG 0) s1
  { wr s2 rPWR_DOMAIN fPWR_DOMAIN_ON 1 with
    mem := [], flaw := [], poison := [], tiles := [], chip := [], syncNet := [], flight := [], chanW := [], deliv := [], engines := []
    refreshP := [], rel := [], abuf := [], foldB := [], zones := [], links := [], recov := [], hot := [], reqq := [], outst := [], inb := []
    niOut := [], respW := [], hostAcc := [], rankQ := [], rankC := [], routeC := [], lpUsed := [], ceNext := [], rowErr := [], refWin := [], scrubAt := [], recPhase := 0
    winMem := [], winVf := [], cmds := [], msix := [], vfApt := [], ideKeys := [], ideBad := [], spdmSt := [], twin := TwinSt.zero
    hang := HangSt.zero, snaps := [], idle := [], lpTrain := [] }

/-- The Quench record goes into its store: the newest four are kept, and every one is counted. -/
def storeQuench (s : State) (k mv : Nat) : State :=
  let q : QRec := { cause := k, count := s.now, tod := (regGet s rTIM_TOD_SEC).toNat, minMv := mv, age := intrAge s, unread := true }
  showQuench (bump { s with pwr := { s.pwr with quenched := true, store := (q :: s.pwr.store).take 4 } } rPWR_QUENCH fPWR_QUENCH_NV_COUNT)

/-- Quench (R352): PWR 0x001 against every context with a parison or a running plan, PEER_RESET 0x05 or 0x04 on every UP link, the
record in the Quench store, and the rails down; it supersedes a device recovery (R365). -/
def quench (s : State) (k0 : Nat) : State :=
  if s.pwr.quenched then s
  else
    let k := quenchCause s k0
    let mv := match s.pwr.sag with | some _ => min s.pwr.minMv (vin s) | none => vin s
    let s1 := (sevtOpen s 6 (mv / 100)).2
    let s2 := raiseAll s1 (allCtx.filter fun (c : CtxId) => holdsPlan (getCtx s c)) { faultInfo 0x7001 0 0 0 with d0 := k }
    let w := BitVec.ofNat 64 (peerResetWord (if k = 2 then 5 else 4))
    let s3 := (List.range 24).foldl (fun s l => if lnkState s l = 6 then emit s (.peerReset l w) else s) s2
    tellState s (powerLost (storeQuench s3 k mv))

/-! ### The input classes (R347 to R351) -/

/-- A sag begins: PWR 0x002, the host's event, and the forced shed of every zone. -/
def sagBegin (s : State) (mv : Nat) : State :=
  let (i, s1) := classBegin s 1 0 (mv / 100) 2 fPWR_EVT_CNT_SAGS
  let s2 := wr { s1 with pwr := { s1.pwr with sag := some (s.now, i), minMv := mv } } rPWR_STATUS fPWR_STATUS_SHED 1
  if s.pwr.quenched then s2 else shedAll s2

/-- A lower sample of the sag that lasts. -/
def sagLower (s : State) (mv : Nat) : State :=
  match s.pwr.sag with
  | some (_, i) => sevtLow { s with pwr := { s.pwr with minMv := min s.pwr.minMv mv } } i mv
  | none => sagBegin s mv

/-- INPUT_SAG: the input is below 40 V. -/
def execInputSag (mv : BitVec 32) (s : State) : Out :=
  .next (if 40000 ≤ mv.toNat then s else sagLower (setVin s mv.toNat) mv.toNat)

/-- SAG_END: 42 V or above for 10 ms; the shed lifts (R351). -/
def execSagEnd (mv : BitVec 32) (s : State) : Out :=
  match s.pwr.sag with
  | some (t, i) =>
    if mv.toNat < 42000 || s.pwr.intr.isSome || decide (s.now < t + 12000000) then .next s
    else
      let s1 := setClass (wr (sevtClose (setVin s mv.toNat) t i) rPWR_STATUS fPWR_STATUS_SHED 0) 0 false
      let s2 := (List.range 16).foldl (fun s z => modZone s z fun x => { x with shed := x.shed && decide (1680 ≤ x.temp) }) s1
      .next { s2 with pwr := { s2.pwr with sag := none } }
  | none => .next s

/-- An interruption begins, also a sag: the hold-up bank supplies the module, and is less than full until 100 ms after (R349). -/
def intrBegin (s : State) (mv : Nat) : State :=
  let (i, s1) := sevtOpen (sagLower s mv) 4 (mv / 100)
  let full := decide (rd s rPWR_STATUS fPWR_STATUS_BANK_OK = 1)
  let s2 := wr (wr (setClass s1 1 true) rPWR_STATUS fPWR_STATUS_HOLDUP 1) rPWR_STATUS fPWR_STATUS_BANK_OK 0
  bump { s2 with pwr := { s2.pwr with intr := some (s.now, i), bankFull := if full then s.pwr.bankFull else s.now + 120000000 } }
    rPWR_EVT_CNT fPWR_EVT_CNT_INTERRUPTIONS

/-- INTERRUPTION: the input is below 36 V. -/
def execInterruption (mv : BitVec 32) (s : State) : Out :=
  let s1 := setVin s mv.toNat
  .next (if 36000 ≤ mv.toNat then s
    else match s.pwr.intr with
      | some (_, i) => sagLower (sevtLow s1 i mv.toNat) mv.toNat
      | none => intrBegin s1 mv.toNat)

/-- INTERRUPTION_END: 36 V or above on two samples. An interruption older than 1,000 µs Quenches whatever the input does (R365). -/
def execInterruptionEnd (mv : BitVec 32) (s : State) : Out :=
  match s.pwr.intr with
  | some (t, i) =>
    if mv.toNat < 36000 then .next s
    else
      let s1 := setVin s mv.toNat
      if quenchDue s 1 then .next (quench s1 1)
      else
        let s2 := wr (setClass (sevtClose s1 t i) 1 false) rPWR_STATUS fPWR_STATUS_HOLDUP 0
        .next { s2 with pwr := { s2.pwr with intr := none, bankFull := s.now + 120000000 } }
  | none => .next s

/-- BANK_CUTOFF: a bank that was not full when the interruption began reaches 34 V (R349). -/
def execBankCutoff (s : State) : Out :=
  match s.pwr.intr with
  | some (t, _) => .next (if t < s.pwr.bankFull then quench s 1 else s)
  | none => .next s

/-- BANK_RECHARGED: 100 ms after a discharge the bank is at 56 V or above. -/
def execBankRecharged (s : State) : Out :=
  .next (if s.pwr.intr.isSome || decide (s.now < s.pwr.bankFull) then s else wr s rPWR_STATUS fPWR_STATUS_BANK_OK 1)

/-- INPUT_SURGE: the input is above 64 V; above 80 V it is outside the rating at once (R347). -/
def execInputSurge (mv : BitVec 32) (s : State) : Out :=
  if mv.toNat ≤ 64000 then .next s
  else
    let s1 := setVin s mv.toNat
    let s2 := match s.pwr.surge with
      | some (_, i) => sevtHigh s1 i mv.toNat
      | none =>
        let (i, s2) := classBegin s1 2 3 (mv.toNat / 100) 3 fPWR_EVT_CNT_SURGES
        { s2 with pwr := { s2.pwr with surge := some (s.now, i) } }
    .next (if quenchDue s2 3 then quench s2 3 else s2)

/-- SURGE_END: 62 V or below. -/
def execSurgeEnd (mv : BitVec 32) (s : State) : Out :=
  match s.pwr.surge with
  | some (t, i) =>
    if 62000 < mv.toNat then .next s
    else
      let s1 := setClass (sevtClose (setVin s mv.toNat) t i) 3 false
      .next { s1 with pwr := { s1.pwr with surge := none } }
  | none => .next s

/-- INPUT_RIPPLE: peak to peak above 2 V over 1 ms, with the mean in 40 to 60 V. -/
def execInputRipple (pp mean : BitVec 32) (s : State) : Out :=
  if pp.toNat ≤ 2000 || mean.toNat < 40000 || 60000 < mean.toNat then .next s
  else match s.pwr.ripple with
    | some (_, i) => .next (sevtHigh s i pp.toNat)
    | none =>
      let (i, s1) := classBegin s 3 2 (pp.toNat / 100) 4 fPWR_EVT_CNT_RIPPLES
      .next { s1 with pwr := { s1.pwr with ripple := some (s.now, i) } }

/-- RIPPLE_END: below 1.5 V for 10 ms. -/
def execRippleEnd (pp : BitVec 32) (s : State) : Out :=
  match s.pwr.ripple with
  | some (t, i) =>
    if 1500 ≤ pp.toNat || decide (s.now < t + 12000000) then .next s
    else
      let s1 := setClass (sevtClose s t i) 2 false
      .next { s1 with pwr := { s1.pwr with ripple := none } }
  | none => .next s

/-- HIGH_INPUT_ENTRY: the input enters 60 to 64 V (R347). -/
def execHighInputEntry (mv : BitVec 32) (s : State) : Out :=
  .next (if mv.toNat ≤ 60000 || 64000 < mv.toNat then s else bump (setVin s mv.toNat) rPWR_EVT_CNT fPWR_EVT_CNT_HIGH)

/-- A log entry of a kind, and a Quench. -/
def logAndQuench (s : State) (kind extreme k : Nat) : State :=
  if s.pwr.quenched then s else quench (sevtOpen s kind extreme).2 k

/-- OVERCURRENT: the input current is above 70 A. -/
def execOvercurrent (ma : BitVec 32) (s : State) : Out :=
  .next (if ma.toNat ≤ 70000 then s else logAndQuench (wr s rPWR_INPUT fPWR_INPUT_IIN ma.toNat) 9 (vin s / 100) 4)

/-- INPUT_OUTSIDE_RATING: above 80 V, or above 64 V for more than 1 ms; the eFuse opens (R347). -/
def execInputOutsideRating (mv : BitVec 32) (s : State) : Out :=
  let s1 := setVin s mv.toNat
  .next (if 64000 < mv.toNat && quenchDue s1 3 then quench s1 3 else s)

/-- PWR_FAIL_N (R350): asserted it starts Quench at once; PLDM sensor 101 follows the pin (R337). -/
def execPwrFailN (asserted : Bool) (s : State) : Out :=
  let old := rd s rPWR_STATUS fPWR_STATUS_PWR_FAIL
  let s1 := wr s rPWR_STATUS fPWR_STATUS_PWR_FAIL (b2n asserted)
  let s2 := if old = b2n asserted then s1 else stateEvent s1 101 (1 + b2n asserted) (1 + old)
  .next (if asserted && old = 0 then logAndQuench s2 5 (vin s / 100) 2 else s2)

/-- QUENCH (R352): a cause of the list stands. -/
def execQuench (cause : BitVec 4) (s : State) : Out := .next (if quenchDue s cause.toNat then quench s cause.toNat else s)

/-- A Quench may end: it has run its 300 µs, and one that the input or PWR_FAIL_N began sees 100 ms of good input after it (R352, R353). -/
def quenchOver (s : State) : Bool :=
  s.pwr.quenched && decide (rd s rPWR_STATUS fPWR_STATUS_PWR_FAIL = 0) &&
    (match s.pwr.store with | q :: _ => decide (q.count + (if q.cause ≤ 2 then 120000000 else 360000) ≤ s.now) | [] => true)

/-- QUENCH_END (R353): the input has been at 44 V or above for 100 ms; a power-on reset of every domain. -/
def execQuenchEnd (mv : BitVec 32) (s : State) : Out :=
  .next (if 44000 ≤ mv.toNat && quenchOver s then powerOn s else s)

/-! ### Rails (R354 to R357) -/

/-- The switched domains a rail feeds besides PD08 (R357). -/
def railDomains (r : Nat) : List Nat :=
  if r < 16 then [10 + r] else if r = 20 then [2, 4, 5, 6, 7] else if r = 21 then [4, 5, 6, 7] else if 22 ≤ r && r ≤ 25 then [26, 27, 28, 29] else []

/-- An image holds a unit a rail feeds: tiles of a zone, any tile's SRAM, links, or LPDDR (R354). -/
def feeds (r : Nat) (x : Ctx) : Bool :=
  match x.image with
  | none => false
  | some p =>
    if r < 16 then inZone x r else if r = 17 || r = 18 then decide (p.tiles ≠ 0)
    else if r = 20 || r = 21 then decide (p.beads ≠ [])
    else if 22 ≤ r && r ≤ 25 then decide (p.engines ≠ 0) || p.regions.any fun g => g.kind = 3
    else false

/-- The domains of a rail go off with the logic state they hold: a zone stops, links and the host link go down, the controller
groups are down. Tile SRAM and tile state are on VRET (R357, R361). -/
def railDown (s : State) (r : Nat) : State :=
  let s1 := domOff (wr s (rPWR_RAIL r) fPWR_RAIL_PG 0) ((railDomains r).map fun d => 2 ^ d).sum
  if r < 16 then modZone (wr s1 (rCLK_ZONE_CTL r) fCLK_ZONE_CTL_STOPPED 1) r fun x => { x with change := none }
  else if r = 20 || r = 21 then
    let s2 := { domReset ((List.range 24).foldl (fun s l => linkDownEff s l 2) s1) fun d => d = .pdLink with links := [] }
    if r = 20 then pfReset s2 .linkDown else s2
  else if 22 ≤ r && r ≤ 25 then wr s1 rMEM_LP_STATUS fMEM_LP_STATUS_GROUP_UP 0
  else s1

/-- RAIL_FAULT (R356): STATUS_WORD `word`. -/
def execRailFault (r : RailId) (word : BitVec 16) (s : State) : Out :=
  if !railUp s r then .next s
  else
    let (i, s1) := sevtOpen s 8 r
    let s2 := bump (sevtEvent s1 8 i) (rPWR_RAIL r) fPWR_RAIL_FAULTS
    if vitalRails.contains r.val then .next (quench s2 6)
    else
      let cs := allCtx.filter fun (c : CtxId) => holdsPlan (getCtx s c) && feeds r (getCtx s c)
      let s3 := raiseAll s2 cs { faultInfo 0x7005 0 0 0 with d0 := r.val + word.toNat * 2 ^ 16 }
      if gafferDown s then .next s3
      else
        let last := tget (fun _ => 0) s.pwr.railAt r
        let s4 := railDown s3 r
        let s5 := { s4 with pwr := { s4.pwr with railAt := tset (fun _ => 0) s4.pwr.railAt r (s.now + 1), railOff := tset (fun _ => 0) s4.pwr.railOff r (s.now + 1) } }
        .next (if last ≠ 0 && decide (s.now + 1 < last + 4320000000000) then wr s5 (rPWR_RAIL r) fPWR_RAIL_OOS 1 else s5)

/-- The domains of a rail come back: a zone restarts at step 4, or its slowest passing step, links that are enabled train, the groups are up. -/
def railBack (s : State) (r : Nat) : State :=
  let s1 := domOn (wr s (rPWR_RAIL r) fPWR_RAIL_PG 1) ((railDomains r).map fun d => 2 ^ d).sum
  if r < 16 then
    startZone (wr s1 (rCLK_ZONE_CTL r) fCLK_ZONE_CTL_STOPPED 0) r
  else if r = 20 || r = 21 then
    let s2 := (List.range 24).foldl (fun s l => if rd s (rLNK_CTL l) fLNK_CTL_ENABLE = 1 && lnkState s l = 0 then startTraining s l 0 true else s) s1
    if r = 20 then wr s2 rHST_LINK fHST_LINK_UP 1 else s2
  else if 22 ≤ r && r ≤ 25 then wr s1 rMEM_LP_STATUS fMEM_LP_STATUS_GROUP_UP 15
  else s1

/-- RAIL_REPOWER (R356): 100 ms after the fault, unless the rail is out of service. -/
def execRailRepower (r : RailId) (s : State) : Out :=
  let t := tget (fun _ => 0) s.pwr.railOff r
  .next (if t = 0 || gafferDown s || rd s (rPWR_RAIL r) fPWR_RAIL_OOS = 1 || decide (s.now + 1 < t + 120000000) then s
    else railBack { s with pwr := { s.pwr with railOff := tset (fun _ => 0) s.pwr.railOff r 0 } } r)

/-- RAIL_READ (R355): the Gaffer's reading of a rail, in mV and 0.1 A. -/
def execRailRead (r : RailId) (mv da : BitVec 16) (pg : Bool) (s : State) : Out :=
  let f (s : State) (x : Fld) (v : Nat) : State := wr s (rPWR_RAIL r) x v
  .next (if gafferDown s then s else f (f (f s fPWR_RAIL_VOUT mv.toNat) fPWR_RAIL_IOUT da.toNat) fPWR_RAIL_PG (b2n pg))

/-! ### Power and thermal limits (R358, R362) -/

/-- THERMAL_TRIP (R362): a junction diode at 115 °C, or an LPDDR device at 105 °C. -/
def execThermalTrip (celsius : BitVec 16) (lpddr : Bool) (s : State) : Out :=
  .next (if celsius.toNat < (if lpddr then 105 else 115) then s else logAndQuench s 7 celsius.toNat 5)

/-- A zone at its floor, or slower. -/
def atFloor (s : State) (z : Nat) : Bool := decide (floorStep s z ≤ zoneStep s z)

/-- The zone is taken to step 4, or to its slowest passing step (R208, R362). -/
def toStep4 (s : State) (z : Nat) : State := forceStep s z (slowestOk s z)

/-- ZONE_OVER_TEMPERATURE (R362): 105 °C or above for 1 ms at the floor. -/
def execZoneOverTemperature (z : ZoneId) (s : State) : Out :=
  match (getZone s z).hotSince with
  | some t =>
    if s.now < t + 1200000 || !atFloor s z then .next s
    else
      let i : FaultInfo := { faultInfo 0x7006 0 0 0 with d0 := z.val + ((getZone s z).temp % 2 ^ 16).toNat * 2 ^ 16 }
      .next (toStep4 (raiseAll s (zoneCtxs s z holdsPlan) i) z)
  | none => .next s

/-- POWER_LIMIT_NOT_MET (R358): the 1 ms power above the limit for 100 ms with every held zone at its floor. -/
def execPowerLimitNotMet (s : State) : Out :=
  match s.pwr.overAt with
  | some t =>
    if s.now < t + 120000000 || (List.range 16).any fun z => zoneHeld s z && !atFloor s z then .next s
    else
      let s1 := pwrNote s 7 (min (rd s rPWR_POWER fPWR_POWER_P_1MS / 1000) 0xFFFF)
      .next { s1 with pwr := { s1.pwr with overAt := some s.now } }
  | none => .next s

end Machine
end Sys2Proof
end

