-- ==== Sys2Proof/Machine/Twin.lean ====
section
/-! DEFINITION. Twin mode: windows that close, packets sent and taken, items that wait too long (11 R270 to R272). -/
namespace Sys2Proof
namespace Machine

/-! ### Windows (R270) -/

/-- Whether the tile's zone has seen the step boundary after step k from launch, so that no bundle of that step issues any more. -/
def stepPassed (s : State) (t : Nat) (k : Nat) : Bool := decide (k < zoneSteps s t)

/-- The context faulted before the window closed (R271): before the tick at which the zone saw the boundary after step k, or,
where the window ends with its 256 cc, before now. -/
def closedLate (s : State) (c : CtxId) (k : Nat) (ended : Bool) : Bool :=
  let x := getCtx s c
  match x.faultTick, x.image with
  | some f, some p => decide (f < if ended then s.now else x.launchAt + stepOffset p (resumeStep s c) (k + 1) + XI)
  | _, _ => false

/-- The next window of a tile to close: its key and first and last offset, if its time has come. -/
def tileWindow (s : State) (c : CtxId) (t : Nat) : Option (Nat × Nat × Nat) :=
  let x := getTile s t
  match x.wpos.find? fun e => decide (x.wclosed ≤ e.1) with
  | some (k, first, last, cc) =>
    let ended := cc ≠ 0 && decide (cc + 256 ≤ x.cc)
    if (ended || stepPassed s t (k / 2 ^ 22)) && !closedLate s c (k / 2 ^ 22) (ended && !stepPassed s t (k / 2 ^ 22)) then some (k, first, last - 1)
    else none
  | none => none

def closeTile (s : State) (c : CtxId) (t : TileId) : State :=
  let y := getTile s t
  if y.own ≠ some c then s
  else match tileWindow s c t with
    | none => s
    | some (k, first, last) =>
      let i : TwinItem := { kind := 1, unit := BitVec.ofNat 8 t, window := BitVec.ofNat 22 k, step := BitVec.ofNat 32 (resumeStep s c + k / 2 ^ 22)
                            sig := tget (fun _ => 0) y.sigs k }
      let s1 := modTile s t fun y => { y with wclosed := k + 1, sigs := y.sigs.filter fun e => k < e.1, wpos := y.wpos.filter fun e => k < e.1 }
      ownItem s1 c { item := i, at_ := s.now, first := first, last := last }

/-- Where the next window of a link ends: its last slot's tick, and whether the step ends with it. -/
def linkWindow (s : State) (c : CtxId) (l : Nat) : Option (Nat × Bool) :=
  let x := getCtx s c
  match x.image with
  | none => none
  | some p =>
    let (k, w) := tget (fun _ => (0, 0)) s.twin.next l
    let a := x.launchAt + stepOffset p (resumeStep s c) k
    let n := (stepLenOf p (resumeStep s c + k)).1 / 4
    if ownMask s c l = 0 || !x.ran || decide (x.stepCtr < k) || n = 0 then none
    else some (a + 4 * (min (1024 * (w + 1)) n - 1), decide (n ≤ 1024 * (w + 1)))

/-- A window closed 16 ticks after its last slot, before the fault if the plan has one. -/
def closeLink (s : State) (c : CtxId) (l : LinkId) : State :=
  match linkWindow s c l with
  | none => s
  | some (e, ends) =>
    let late := match (getCtx s c).faultTick with | some f => decide (f < e + 16) | none => false
    if s.now < e + 16 || late then s
    else
      let (k, w) := tget (fun _ => (0, 0)) s.twin.next l
      let key := linkKey l k w
      let i : TwinItem := { kind := 2, unit := BitVec.ofNat 8 l, window := BitVec.ofNat 22 w, step := BitVec.ofNat 32 (resumeStep s c + k)
                            sig := tget (fun _ => 0) s.twin.sigs key }
      let s1 := { s with twin := { s.twin with sigs := s.twin.sigs.filter fun e => e.1 ≠ key, next := tset (fun _ => (0, 0)) s.twin.next l (if ends then (k + 1, 0) else (k, w + 1)) } }
      ownItem s1 c { item := i, at_ := s.now, first := 0, last := 0 }

/-- TWIN_WINDOW_CLOSE (R270, R271). -/
def execTwinWindowClose (k : TwinUnit) (s : State) : Out :=
  match twinCtx s with
  | none => .next s
  | some c => .next (match k with | .tile t => closeTile s c t | .link l => closeLink s c l)

/-! ### Packets (R271) -/

def itemWords (i : TwinItem) : List W64 :=
  [BitVec.ofNat 64 (i.kind.toNat * 2 ^ 62 + i.unit.toNat * 2 ^ 54 + i.window.toNat * 2 ^ 32 + i.step.toNat), i.sig]

/-- A twin packet as an open packet: an MREQ to the partner's DET_TWIN_MBOX. -/
def twinPkt (s : State) (c : CtxId) (items : List TwinItem) (stop : Bool) : NiPkt :=
  let head : W64 := BitVec.ofNat 64 (0x5457 + items.length % 256 * 2 ^ 16 + (if stop then 2 ^ 24 else 0) + s.twin.pnum % 2 ^ 32 * 2 ^ 32)
  let data := head :: ((digest8 (getCtx s c)).getD 0) :: items.flatMap itemWords
  { op := 0x30, ep := decide (activeV s = 1), mc := false, dest := rd s rDET_TWIN_CTL fDET_TWIN_CTL_PARTNER, cm := false, dm := false
    len := data.length, birth := s.now / 2 ^ 16, gen := 0, seq := 0, job := 0, srank := ownGid s, ce := false, status := 0
    tgt := BitVec.ofNat 64 (2 ^ 41 + twinBox), data := data }

/-- The packet leaves on LINKA and again on LINKB, with no routing lookup. -/
def twinSend (s : State) (c : CtxId) (items : List TwinItem) (stop : Bool) : State :=
  let o : NiOut := { pkt := twinPkt s c items stop, ready := s.now + 8, retry := false, req := none }
  let s1 := [rd s rDET_TWIN_CTL fDET_TWIN_CTL_LINKA, rd s rDET_TWIN_CTL fDET_TWIN_CTL_LINKB].foldl
    (fun s l => pushJob s (Fin.ofNat 24 l) (niJob o)) s
  { s1 with twin := { s1.twin with pnum := s1.twin.pnum + 1, queue := s1.twin.queue.drop items.length, stop := s1.twin.stop || stop } }

/-- 128 items wait, or the oldest has waited 256 ticks. -/
def packetDue (s : State) : Bool :=
  match s.twin.queue with
  | w :: _ => decide (128 ≤ s.twin.queue.length) || decide (w.at_ + 256 ≤ s.now)
  | [] => false

/-- TWIN_PACKET_SEND (R271): up to 128 items; after a fault, once no item waits, one packet with STOP and no items. -/
def execTwinPacketSend (s : State) : Out :=
  match twinCtx s with
  | none => .next s
  | some c =>
    if packetDue s then .next (twinSend s c ((s.twin.queue.take 128).map (·.item)) false)
    else
      .next (if s.twin.queue.isEmpty && !s.twin.stop && (getCtx s c).plan = .faulted && (getCtx s c).purge = none then twinSend s c [] true else s)

/-- TWIN_PACKET_RECEIVE (R271, R272). -/
def execTwinPacketReceive (p : TwinPacket) (s : State) : Out := .next (twinTake s p)

/-- TWIN_ITEM_TIMEOUT (R272): an item of either store has waited 65,536 ticks. -/
def execTwinItemTimeout (s : State) : Out :=
  let old (w : TwWait) : Bool := decide (w.at_ + 65536 ≤ s.now)
  match twinCtx s with
  | none => .next s
  | some c =>
    let s1 := { s with twin := { s.twin with own := s.twin.own.filter fun w => !old w, part := s.twin.part.filter fun w => !old w } }
    match s.twin.own.find? old, s.twin.part.find? old with
    | some w, _ => .next (itemFault s1 c 0x2019 4 w.item (w.first, w.last))
    | none, some w => .next (itemFault s1 c 0x2019 4 w.item (openPos s c w.item))
    | none, none => .next s

end Machine
end Sys2Proof
end

