-- ==== Sys2Proof/Machine/Dispatch.lean ====
section
/-! DEFINITION. One arm per command: the meaning it has. -/
namespace Sys2Proof
namespace Machine

/-- The effect of a command on everything but the queue. -/
def exec (i : Instr) (s : State) : Host.Outcome State Fault Refusal :=
  match i with
  | .nop t rsv => Sys2Proof.Machine.execNop t rsv s
  | .pinc t sc target amount => Sys2Proof.Machine.execPinc t sc target amount s
  | .pset t sc target value => Sys2Proof.Machine.execPset t sc target value s
  | .pwait t chip counter rsv idx => Sys2Proof.Machine.execPwait t chip counter rsv idx s
  | .twait t rsv idx => Sys2Proof.Machine.execTwait t rsv idx s
  | .step t rsv => Sys2Proof.Machine.execStep t rsv s
  | .loop t count rsv len => Sys2Proof.Machine.execLoop t count rsv len s
  | .jmp t rsv target => Sys2Proof.Machine.execJmp t rsv target s
  | .bload t block rsv addr => Sys2Proof.Machine.execBload t block rsv addr s
  | .aadd t ad rsv inc => Sys2Proof.Machine.execAadd t ad rsv inc s
  | .aset t ad rsv value => Sys2Proof.Machine.execAset t ad rsv value s
  | .seed t stream rsv => Sys2Proof.Machine.execSeed t stream rsv s
  | .halt t rsv => Sys2Proof.Machine.execHalt t rsv s
  | .mnop t => Sys2Proof.Machine.execMnop t s
  | .mwl t f => Sys2Proof.Machine.execMwl t f s
  | .mwlt t f => Sys2Proof.Machine.execMwlt t f s
  | .mma t f => Sys2Proof.Machine.execMma t f s
  | .mdr t f => Sys2Proof.Machine.execMdr t f s
  | .mdrc t f => Sys2Proof.Machine.execMdrc t f s
  | .mdrv t f => Sys2Proof.Machine.execMdrv t f s
  | .mclr t f => Sys2Proof.Machine.execMclr t f s
  | .vnop t => Sys2Proof.Machine.execVnop t s
  | .vadd t f => Sys2Proof.Machine.execVadd t f s
  | .vsub t f => Sys2Proof.Machine.execVsub t f s
  | .vmul t f => Sys2Proof.Machine.execVmul t f s
  | .vfma t f => Sys2Proof.Machine.execVfma t f s
  | .vmax t f => Sys2Proof.Machine.execVmax t f s
  | .vmin t f => Sys2Proof.Machine.execVmin t f s
  | .vcmp t f => Sys2Proof.Machine.execVcmp t f s
  | .vsel t f => Sys2Proof.Machine.execVsel t f s
  | .vcvt t f => Sys2Proof.Machine.execVcvt t f s
  | .vlogic t f => Sys2Proof.Machine.execVlogic t f s
  | .vshf t f => Sys2Proof.Machine.execVshf t f s
  | .vred t f => Sys2Proof.Machine.execVred t f s
  | .vexp2 t f => Sys2Proof.Machine.execVexp2 t f s
  | .vlog2 t f => Sys2Proof.Machine.execVlog2 t f s
  | .vrcp t f => Sys2Proof.Machine.execVrcp t f s
  | .vrsqrt t f => Sys2Proof.Machine.execVrsqrt t f s
  | .vrng t f => Sys2Proof.Machine.execVrng t f s
  | .vamx t f => Sys2Proof.Machine.execVamx t f s
  | .vaenc t f => Sys2Proof.Machine.execVaenc t f s
  | .vadec t f => Sys2Proof.Machine.execVadec t f s
  | .memnop t => Sys2Proof.Machine.execMemnop t s
  | .vld t f => Sys2Proof.Machine.execVld t f s
  | .vst t f => Sys2Proof.Machine.execVst t f s
  | .vldx t f => Sys2Proof.Machine.execVldx t f s
  | .vstx t f => Sys2Proof.Machine.execVstx t f s
  | .vlds t f => Sys2Proof.Machine.execVlds t f s
  | .mcpy t f => Sys2Proof.Machine.execMcpy t f s
  | .mzero t f => Sys2Proof.Machine.execMzero t f s
  | .xnop t => Sys2Proof.Machine.execXnop t s
  | .xsend t f => Sys2Proof.Machine.execXsend t f s
  | .xrecv t f => Sys2Proof.Machine.execXrecv t f s
  | .xdrop t f => Sys2Proof.Machine.execXdrop t f s
  | .waitSatisfied t => Sys2Proof.Machine.execWaitSatisfied t s
  | .waitBoundExceeded t => Sys2Proof.Machine.execWaitBoundExceeded t s
  | .syncIncrementApplied => Sys2Proof.Machine.execSyncIncrementApplied s
  | .meshWordDeparture ep chan => Sys2Proof.Machine.execMeshWordDeparture ep chan s
  | .meshWordArrival ep chan => Sys2Proof.Machine.execMeshWordArrival ep chan s
  | .slotDeparture l => Sys2Proof.Machine.execSlotDeparture l s
  | .dueTickRelease l => Sys2Proof.Machine.execDueTickRelease l s
  | .plannedBeadArrival l h pay err => Sys2Proof.Machine.execPlannedBeadArrival l h pay err s
  | .voidBeadArrival l h r => Sys2Proof.Machine.execVoidBeadArrival l h r s
  | .beadInError l b => Sys2Proof.Machine.execBeadInError l b s
  | .nak l x => Sys2Proof.Machine.execNak l x s
  | .implicitNak l => Sys2Proof.Machine.execImplicitNak l s
  | .fluxBudgetExhausted l => Sys2Proof.Machine.execFluxBudgetExhausted l s
  | .openBead l h pay err => Sys2Proof.Machine.execOpenBead l h pay err s
  | .credit l cum => Sys2Proof.Machine.execCredit l cum s
  | .creditReturn l => Sys2Proof.Machine.execCreditReturn l s
  | .rtReq l id equalise width forced => Sys2Proof.Machine.execRtReq l id equalise width forced s
  | .rtGo l absorbed width forced start => Sys2Proof.Machine.execRtGo l absorbed width forced start s
  | .rtRefuse l id reason => Sys2Proof.Machine.execRtRefuse l id reason s
  | .peerReset l kind => Sys2Proof.Machine.execPeerReset l kind s
  | .fenceWord l on tag => Sys2Proof.Machine.execFenceWord l on tag s
  | .skip l x => Sys2Proof.Machine.execSkip l x s
  | .measure l probe reply turnaround => Sys2Proof.Machine.execMeasure l probe reply turnaround s
  | .hello l h r => Sys2Proof.Machine.execHello l h r s
  | .helloSend l => Sys2Proof.Machine.execHelloSend l s
  | .syncBead l h r rxCount rxFrac => Sys2Proof.Machine.execSyncBead l h r rxCount rxFrac s
  | .syncSend l => Sys2Proof.Machine.execSyncSend l s
  | .lockLoss l => Sys2Proof.Machine.execLockLoss l s
  | .linkDown l cause => Sys2Proof.Machine.execLinkDown l cause s
  | .autoRetry l => Sys2Proof.Machine.execAutoRetry l s
  | .trainingStateComplete l r => Sys2Proof.Machine.execTrainingStateComplete l r s
  | .trainingStateLimit l lanes => Sys2Proof.Machine.execTrainingStateLimit l lanes s
  | .retrainStart l => Sys2Proof.Machine.execRetrainStart l s
  | .epochPulse sub => Sys2Proof.Machine.execEpochPulse sub s
  | .epochPulseMissing => Sys2Proof.Machine.execEpochPulseMissing s
  | .servoUpdate => Sys2Proof.Machine.execServoUpdate s
  | .holdover => Sys2Proof.Machine.execHoldover s
  | .syncLost => Sys2Proof.Machine.execSyncLost s
  | .takeover => Sys2Proof.Machine.execTakeover s
  | .launch c => Sys2Proof.Machine.execLaunch c s
  | .stepBoundary c => Sys2Proof.Machine.execStepBoundary c s
  | .temperDecision z => Sys2Proof.Machine.execTemperDecision z s
  | .zoneVoltageGood z => Sys2Proof.Machine.execZoneVoltageGood z s
  | .zoneStop z => Sys2Proof.Machine.execZoneStop z s
  | .zoneDividerSwitch z => Sys2Proof.Machine.execZoneDividerSwitch z s
  | .zoneRestart z => Sys2Proof.Machine.execZoneRestart z s
  | .droopStretch z => Sys2Proof.Machine.execDroopStretch z s
  | .zoneWindowCheck z => Sys2Proof.Machine.execZoneWindowCheck z s
  | .forcedShed zones => Sys2Proof.Machine.execForcedShed zones s
  | .descriptorStart g => Sys2Proof.Machine.execDescriptorStart g s
  | .blockAccess g => Sys2Proof.Machine.execBlockAccess g s
  | .lineEntersStaging g => Sys2Proof.Machine.execLineEntersStaging g s
  | .descriptorFinish g => Sys2Proof.Machine.execDescriptorFinish g s
  | .refreshWindow ch gap => Sys2Proof.Machine.execRefreshWindow ch gap s
  | .controllerRefresh ch gap => Sys2Proof.Machine.execControllerRefresh ch gap s
  | .sramScrub t => Sys2Proof.Machine.execSramScrub t s
  | .patrolScrub m => Sys2Proof.Machine.execPatrolScrub m s
  | .openSramAccess t => Sys2Proof.Machine.execOpenSramAccess t s
  | .openLpddrAccess ch => Sys2Proof.Machine.execOpenLpddrAccess ch s
  | .requestIssue c => Sys2Proof.Machine.execRequestIssue c s
  | .packetHeadRoute l => Sys2Proof.Machine.execPacketHeadRoute l s
  | .requestArrival l => Sys2Proof.Machine.execRequestArrival l s
  | .requestExecute => Sys2Proof.Machine.execRequestExecute s
  | .responseArrival l => Sys2Proof.Machine.execResponseArrival l s
  | .requestTimeout => Sys2Proof.Machine.execRequestTimeout s
  | .retryResend => Sys2Proof.Machine.execRetryResend s
  | .rankCacheMiss c rank => Sys2Proof.Machine.execRankCacheMiss c rank s
  | .routeCacheMiss v id => Sys2Proof.Machine.execRouteCacheMiss v id s
  | .rateWindow => Sys2Proof.Machine.execRateWindow s
  | .congestionWindow => Sys2Proof.Machine.execCongestionWindow s
  | .faultStop c => Sys2Proof.Machine.execFaultStop c s
  | .faultRecordLog => Sys2Proof.Machine.execFaultRecordLog s
  | .faultSpill => Sys2Proof.Machine.execFaultSpill s
  | .linkRecordClose i0 => Sys2Proof.Machine.execLinkRecordClose i0 s
  | .purgeAck c e => Sys2Proof.Machine.execPurgeAck c e s
  | .purgeDeadline c => Sys2Proof.Machine.execPurgeDeadline c s
  | .genGuardExpiry c => Sys2Proof.Machine.execGenGuardExpiry c s
  | .closeWipeComplete c => Sys2Proof.Machine.execCloseWipeComplete c s
  | .hangSample => Sys2Proof.Machine.execHangSample s
  | .hangReplay c => Sys2Proof.Machine.execHangReplay c s
  | .watchdogExpiry => Sys2Proof.Machine.execWatchdogExpiry s
  | .deviceRecovery cause => Sys2Proof.Machine.execDeviceRecovery cause s
  | .recoveryPhaseComplete r => Sys2Proof.Machine.execRecoveryPhaseComplete r s
  | .recoveryFailed => Sys2Proof.Machine.execRecoveryFailed s
  | .packetTake w => Sys2Proof.Machine.execPacketTake w s
  | .windowWrite src off wide data => Sys2Proof.Machine.execWindowWrite src off wide data s
  | .nopCommand src p => Sys2Proof.Machine.execNopCommand src p s
  | .ctxOpen src p => Sys2Proof.Machine.execCtxOpen src p s
  | .ctxClose src p => Sys2Proof.Machine.execCtxClose src p s
  | .ctxReset src p => Sys2Proof.Machine.execCtxReset src p s
  | .planLoad src p => Sys2Proof.Machine.execPlanLoad src p s
  | .planArm src p => Sys2Proof.Machine.execPlanArm src p s
  | .planAbort src p => Sys2Proof.Machine.execPlanAbort src p s
  | .planAbortImmediate src p => Sys2Proof.Machine.execPlanAbortImmediate src p s
  | .planStatus src p => Sys2Proof.Machine.execPlanStatus src p s
  | .copyIn src p => Sys2Proof.Machine.execCopyIn src p s
  | .copyOut src p => Sys2Proof.Machine.execCopyOut src p s
  | .fill src p => Sys2Proof.Machine.execFill src p s
  | .wipe src p => Sys2Proof.Machine.execWipe src p s
  | .fence src p => Sys2Proof.Machine.execFence src p s
  | .timeSet src p => Sys2Proof.Machine.execTimeSet src p s
  | .timeAdjust src p => Sys2Proof.Machine.execTimeAdjust src p s
  | .tsRead src p => Sys2Proof.Machine.execTsRead src p s
  | .tableStage src p => Sys2Proof.Machine.execTableStage src p s
  | .tableCommit src p => Sys2Proof.Machine.execTableCommit src p s
  | .tableRetire src p => Sys2Proof.Machine.execTableRetire src p s
  | .linkCtlRetrain src p => Sys2Proof.Machine.execLinkCtlRetrain src p s
  | .linkCtlEnable src p => Sys2Proof.Machine.execLinkCtlEnable src p s
  | .linkCtlDisable src p => Sys2Proof.Machine.execLinkCtlDisable src p s
  | .linkCtlFenceOn src p => Sys2Proof.Machine.execLinkCtlFenceOn src p s
  | .linkCtlFenceOff src p => Sys2Proof.Machine.execLinkCtlFenceOff src p s
  | .linkCtlAutoRetry src p => Sys2Proof.Machine.execLinkCtlAutoRetry src p s
  | .linkCtlLaneMap src p => Sys2Proof.Machine.execLinkCtlLaneMap src p s
  | .linkStatus src p => Sys2Proof.Machine.execLinkStatus src p s
  | .discover src p => Sys2Proof.Machine.execDiscover src p s
  | .faultRead src p => Sys2Proof.Machine.execFaultRead src p s
  | .faultClear src p => Sys2Proof.Machine.execFaultClear src p s
  | .telemetryRead src p => Sys2Proof.Machine.execTelemetryRead src p s
  | .attest src p => Sys2Proof.Machine.execAttest src p s
  | .certRead src p => Sys2Proof.Machine.execCertRead src p s
  | .fwStage src p => Sys2Proof.Machine.execFwStage src p s
  | .fwCommit src p => Sys2Proof.Machine.execFwCommit src p s
  | .lifecycle src p => Sys2Proof.Machine.execLifecycle src p s
  | .twinSet src p => Sys2Proof.Machine.execTwinSet src p s
  | .powerPolicy src p => Sys2Proof.Machine.execPowerPolicy src p s
  | .fwdCommit path v => Sys2Proof.Machine.execFwdCommit path v s
  | .lnkCommit path l v => Sys2Proof.Machine.execLnkCommit path l v s
  | .timCommit path v => Sys2Proof.Machine.execTimCommit path v s
  | .opnCommit path v => Sys2Proof.Machine.execOpnCommit path v s
  | .clkCommit path v => Sys2Proof.Machine.execClkCommit path v s
  | .sbdCaneCommit path i0 v => Sys2Proof.Machine.execSbdCaneCommit path i0 v s
  | .stagedApply b => Sys2Proof.Machine.execStagedApply b s
  | .lnkCtlRequest path l v => Sys2Proof.Machine.execLnkCtlRequest path l v s
  | .lnkCtlEnableClear path l v => Sys2Proof.Machine.execLnkCtlEnableClear path l v s
  | .lnkFence path l v => Sys2Proof.Machine.execLnkFence path l v s
  | .timSnap path v => Sys2Proof.Machine.execTimSnap path v s
  | .timTsArm path v => Sys2Proof.Machine.execTimTsArm path v s
  | .timTsData path => Sys2Proof.Machine.execTimTsData path s
  | .hstEvent path => Sys2Proof.Machine.execHstEvent path s
  | .gafRecoveryStart path v => Sys2Proof.Machine.execGafRecoveryStart path v s
  | .gafLocation path v => Sys2Proof.Machine.execGafLocation path v s
  | .dbgCtl path v => Sys2Proof.Machine.execDbgCtl path v s
  | .dbgData path => Sys2Proof.Machine.execDbgData path s
  | .detCtxCtl path c v => Sys2Proof.Machine.execDetCtxCtl path c v s
  | .hstAperture fn v => Sys2Proof.Machine.execHstAperture fn v s
  | .registerWrite path off size v => Sys2Proof.Machine.execRegisterWrite path off size v s
  | .bar4Read fn off tag => Sys2Proof.Machine.execBar4Read fn off tag s
  | .bar4Write fn off data => Sys2Proof.Machine.execBar4Write fn off data s
  | .vfFlr k => Sys2Proof.Machine.execVfFlr k s
  | .pfFlr kind => Sys2Proof.Machine.execPfFlr kind s
  | .vfEnableClear => Sys2Proof.Machine.execVfEnableClear s
  | .ideKm stream keySet key => Sys2Proof.Machine.execIdeKm stream keySet key s
  | .ideIntegrityFailure stream => Sys2Proof.Machine.execIdeIntegrityFailure stream s
  | .doeDiscovery idx => Sys2Proof.Machine.execDoeDiscovery idx s
  | .getVersion port => Sys2Proof.Machine.execGetVersion port s
  | .getCapabilities port req => Sys2Proof.Machine.execGetCapabilities port req s
  | .negotiateAlgorithms port req => Sys2Proof.Machine.execNegotiateAlgorithms port req s
  | .getDigests port req => Sys2Proof.Machine.execGetDigests port req s
  | .getCertificate port req slot off len => Sys2Proof.Machine.execGetCertificate port req slot off len s
  | .challenge port req nonce => Sys2Proof.Machine.execChallenge port req nonce s
  | .getMeasurements port req index sign => Sys2Proof.Machine.execGetMeasurements port req index sign s
  | .keyExchange port req => Sys2Proof.Machine.execKeyExchange port req s
  | .finish port req => Sys2Proof.Machine.execFinish port req s
  | .setdasa static dyn => Sys2Proof.Machine.execSetdasa static dyn s
  | .entdaa dyn => Sys2Proof.Machine.execEntdaa dyn s
  | .rstdaa => Sys2Proof.Machine.execRstdaa s
  | .setEndpointId who eid => Sys2Proof.Machine.execSetEndpointId who eid s
  | .mctpControl who cmd req => Sys2Proof.Machine.execMctpControl who cmd req s
  | .sidebandCommand who p => Sys2Proof.Machine.execSidebandCommand who p s
  | .jobNotice who tag gid cause ref => Sys2Proof.Machine.execJobNotice who tag gid cause ref s
  | .moduleState who => Sys2Proof.Machine.execModuleState who s
  | .registerAccess who write off2 v => Sys2Proof.Machine.execRegisterAccess who write off2 v s
  | .getTid who => Sys2Proof.Machine.execGetTid who s
  | .getPldmTypes who => Sys2Proof.Machine.execGetPldmTypes who s
  | .getPldmCommands who ptype => Sys2Proof.Machine.execGetPldmCommands who ptype s
  | .getPldmVersion who ptype => Sys2Proof.Machine.execGetPldmVersion who ptype s
  | .getPdrRepositoryInfo who => Sys2Proof.Machine.execGetPdrRepositoryInfo who s
  | .getPdr who handle => Sys2Proof.Machine.execGetPdr who handle s
  | .getSensorReading who sensor => Sys2Proof.Machine.execGetSensorReading who sensor s
  | .getStateSensorReadings who sensor => Sys2Proof.Machine.execGetStateSensorReadings who sensor s
  | .setNumericSensorEnable who sensor state => Sys2Proof.Machine.execSetNumericSensorEnable who sensor state s
  | .setEventReceiver who mode eid => Sys2Proof.Machine.execSetEventReceiver who mode eid s
  | .platformEventMessage who req => Sys2Proof.Machine.execPlatformEventMessage who req s
  | .pollForPlatformEventMessage who ack => Sys2Proof.Machine.execPollForPlatformEventMessage who ack s
  | .sensorRefresh r => Sys2Proof.Machine.execSensorRefresh r s
  | .bypass tdi => Sys2Proof.Machine.execBypass tdi s
  | .idcode => Sys2Proof.Machine.execIdcode s
  | .samplePreload cells => Sys2Proof.Machine.execSamplePreload cells s
  | .extest pins => Sys2Proof.Machine.execExtest pins s
  | .clamp => Sys2Proof.Machine.execClamp s
  | .highz => Sys2Proof.Machine.execHighz s
  | .privateInstruction write off v => Sys2Proof.Machine.execPrivateInstruction write off v s
  | .caneWrite i0 item => Sys2Proof.Machine.execCaneWrite i0 item s
  | .caneRead i0 => Sys2Proof.Machine.execCaneRead i0 s
  | .caneTimeout i0 => Sys2Proof.Machine.execCaneTimeout i0 s
  | .twinWindowClose k => Sys2Proof.Machine.execTwinWindowClose k s
  | .twinPacketSend => Sys2Proof.Machine.execTwinPacketSend s
  | .twinPacketReceive p => Sys2Proof.Machine.execTwinPacketReceive p s
  | .twinItemTimeout => Sys2Proof.Machine.execTwinItemTimeout s
  | .powerOn => Sys2Proof.Machine.execPowerOn s
  | .bootPhaseComplete r => Sys2Proof.Machine.execBootPhaseComplete r s
  | .recoveryByHostRestart => Sys2Proof.Machine.execRecoveryByHostRestart s
  | .inputSag mv => Sys2Proof.Machine.execInputSag mv s
  | .sagEnd mv => Sys2Proof.Machine.execSagEnd mv s
  | .interruption mv => Sys2Proof.Machine.execInterruption mv s
  | .inputSurge mv => Sys2Proof.Machine.execInputSurge mv s
  | .inputRipple pp mean => Sys2Proof.Machine.execInputRipple pp mean s
  | .overcurrent ma => Sys2Proof.Machine.execOvercurrent ma s
  | .inputOutsideRating mv => Sys2Proof.Machine.execInputOutsideRating mv s
  | .pwrFailN asserted => Sys2Proof.Machine.execPwrFailN asserted s
  | .quench cause => Sys2Proof.Machine.execQuench cause s
  | .bankCutoff => Sys2Proof.Machine.execBankCutoff s
  | .quenchEnd mv => Sys2Proof.Machine.execQuenchEnd mv s
  | .railFault r word => Sys2Proof.Machine.execRailFault r word s
  | .railRepower r => Sys2Proof.Machine.execRailRepower r s
  | .railRead r mv da pg => Sys2Proof.Machine.execRailRead r mv da pg s
  | .thermalTrip celsius lpddr => Sys2Proof.Machine.execThermalTrip celsius lpddr s
  | .zoneOverTemperature z => Sys2Proof.Machine.execZoneOverTemperature z s
  | .powerLimitNotMet => Sys2Proof.Machine.execPowerLimitNotMet s
  | .idleEntry u => Sys2Proof.Machine.execIdleEntry u s
  | .idleWake u => Sys2Proof.Machine.execIdleWake u s
  | .earlyWake u => Sys2Proof.Machine.execEarlyWake u s
  | .pd03IdleOff => Sys2Proof.Machine.execPd03IdleOff s
  | .lclkEdge => Sys2Proof.Machine.execLclkEdge s
  | .lossOfLock l => Sys2Proof.Machine.execLossOfLock l s
  | .lockRegained l => Sys2Proof.Machine.execLockRegained l s
  | .emptyBeadArrival l h r => Sys2Proof.Machine.execEmptyBeadArrival l h r s
  | .rootPllLockLoss refGone pllGone => Sys2Proof.Machine.execRootPllLockLoss refGone pllGone s
  | .openPacketLifetimeExpiry => Sys2Proof.Machine.execOpenPacketLifetimeExpiry s
  | .engineResetTimeout => Sys2Proof.Machine.execEngineResetTimeout s
  | .lifecycleRecoveryStart => Sys2Proof.Machine.execLifecycleRecoveryStart s
  | .marginRetrainRequest l equalise width forced => Sys2Proof.Machine.execMarginRetrainRequest l equalise width forced s
  | .tileSelfTest t passed => Sys2Proof.Machine.execTileSelfTest t passed s
  | .interruptionEnd mv => Sys2Proof.Machine.execInterruptionEnd mv s
  | .surgeEnd mv => Sys2Proof.Machine.execSurgeEnd mv s
  | .rippleEnd pp => Sys2Proof.Machine.execRippleEnd pp s
  | .highInputEntry mv => Sys2Proof.Machine.execHighInputEntry mv s
  | .bankRecharged => Sys2Proof.Machine.execBankRecharged s

end Machine
end Sys2Proof
end

