-- ==== Sys2Proof/Safety.lean ====
section
/-! DEFINITION. The terms claims are stated in: the canonical form of memory, when a tile's slot issues, and when a tile
has nothing else under way. -/
namespace Sys2Proof
namespace Machine

/-- The module's memory is in canonical form. -/
def State.memOk (s : State) : Prop := Memory.wf s.mem = true

/-- The step of a state neither faults nor refuses. -/
def State.steps (s : State) : Prop := ∃ t, step s = .next t

/-- Tile t opens its next bundle in the next cc without a fault; s1 is the state in which the control slot acts (R29). -/
def CtlOpens (s : State) (t : TileId) (s1 : State) : Prop :=
  canIssue s t = true ∧ bundleOpen (openBundle s t) t = true ∧ s1 = openBundle s t

/-- Engine slot k (0 matrix, 1 vector, 2 memory, 3 mesh) of tile t issues: in the open bundle, or else in the next one with a
NOP control slot (log 2); s1 is the state in which it acts. -/
def SlotOpens (s : State) (t : TileId) (k : Nat) (s1 : State) : Prop :=
  (joinable s t k = true ∧ s1 = markSlot s t k) ∨
  (joinable s t k = false ∧ CtlOpens s t (openBundle s t) ∧ s1 = markSlot (openBundle s t) t k)

/-- Tile t comes to its next cc without a fault; s1 is the state in which a waiting control slot acts (R54). -/
def WaitOpens (s : State) (t : TileId) (s1 : State) : Prop :=
  canIssue s t = true ∧ (getTile (advanceCc s t) t).st = .issuing ∧ s1 = advanceCc s t

/-- The next bundle of tile t may issue in its present cc: no breakpoint names it and its block is loaded (R30, R267). -/
def MayIssue (s : State) (t : Nat) : Prop :=
  breakHit s t (getTile s t) = none ∧ tget (fun _ => 0) (getTile s t).blkFrom ((getTile s t).bidx / 32) ≤ (getTile s t).cc

/-- Between s and u the next bundle of tile t issued in its present cc, in which its slots can act: the tile waits for nothing, the
bundle is counted, the sequence goes on as the loop stack says, and nothing outside the tile changed (R28, R29, R34, R58). -/
def Issued (s u : State) (t : Nat) : Prop :=
  (getTile u t).isOpen = true ∧ (getTile u t).st = .issuing ∧ (getTile u t).stall = none ∧ (getTile u t).cc = (getTile s t).cc ∧
  (getTile u t).cur = (getTile s t).bidx ∧
  ((getTile u t).bidx, (getTile u t).loops) = seqNext (getTile s t).bidx (getTile s t).loops ∧
  (getTile u t).issued = ((getTile s t).issued + 1) % 2 ^ 64 ∧ (getTile u t).stalled = (getTile s t).stalled ∧
  (∀ k, k ≠ t → getTile u k = getTile s k) ∧ u = { s with tiles := u.tiles }

/-- Between s and u tile t stalled: its control slot waits for w, the cc is counted as a stall, and nothing else changed (R54, R58). -/
def Stalled (s u : State) (t : Nat) (w : Stall) : Prop :=
  u = setTile s t { getTile s t with
    st := (match w.cond with | .step _ => .atStep | _ => .waiting), stalled := ((getTile s t).stalled + 1) % 2 ^ 64, stall := some w }

/-- A tile with nothing under way but what `acts` lists, and no bundle open. -/
def Tile.only (x : Tile) (acts : List (Nat × Act)) : Prop :=
  x.acts = acts ∧ x.made = [] ∧ x.xin = [] ∧ x.incs = []

/-- n compute cycles of a tile in which no bundle issues. -/
def ccs (s : State) (t : Nat) : Nat → State
  | 0 => s
  | n + 1 => advanceCc (ccs s t n) t

/-- n bundles issued from an index with a loop stack (R34). -/
def seqRun : Nat → Nat × List LoopLv → Nat × List LoopLv
  | 0, p => p
  | n + 1, p => seqRun n (seqNext p.1 p.2)

/-- The lines that k successive blocks of a descriptor name, from a row and column on (R95). -/
def blockRun (d : Desc) : Nat → Nat → Nat → List Nat
  | 0, _, _ => []
  | k + 1, row, col =>
    if d.rows < row then []
    else (blockLines d 30 row col).1 ++ blockRun d k (blockLines d 30 row col).2.1 (blockLines d 30 row col).2.2

/-- A new bead departed on link l between s and u: it took the link's next sequence and stands first in the replay ring
(R109, R154). -/
def BeadSent (s u : State) (l cls : Nat) (fil : Bool) (slot gen epoch stok : Nat) (pay : BitVec 2560) : Prop :=
  (getLink u l).txSeq = (getLink s l).txSeq + 1 ∧
  ∃ r, (getLink u l).ring.head? = some r ∧ r.seq = (getLink s l).txSeq ∧ r.at_ = s.now ∧ r.pay = pay ∧
    hClass r.hdr = cls ∧ hRpl r.hdr = false ∧ hFil r.hdr = fil ∧ hLseq r.hdr = (getLink s l).txSeq % 4096 ∧
    hSlot r.hdr = slot % 256 ∧ hGen r.hdr = gen % 256 ∧ hEpoch r.hdr = epoch % 4096 ∧ hStok r.hdr = stok % 16

/-- A slot begins on link l: it receives and sends beads, is not quiet, and no bead of this slot has departed. -/
def SlotBegins (s : State) (l : Nat) : Prop :=
  rxLive s l = true ∧ lnkQuiet s l = false ∧ s.now % beadTicks s l = 0 ∧ (getLink s l).lastSlot ≠ some (s.now / 4)

/-- Slot s.now / 4 of link l is a planned slot of context c, whose plan p has transmit entry e there (R15, R113, R117). -/
def PlannedSlot (s : State) (l : Nat) (c : CtxId) (p : Plan) (e : TxE) : Prop :=
  SlotBegins s l ∧ lnkUp s l = true ∧ rd s (rLNK_STATUS l) fLNK_STATUS_INCOMPAT = 0 ∧ fluxSlot s l (s.now / 4) = false ∧
  ∃ h k, plannedAt s l (s.now / 4) = some (c, getCtx s c, p, false, h, k, e)

/-- A new bead with the next sequence arrives in order on link l (R154, R159). -/
def InOrder (s : State) (l : Nat) (h : W64) : Prop :=
  rxLive s l = true ∧ unwrap (getLink s l).rxNext (hLseq h) 4096 = (getLink s l).rxNext ∧
  (getLink s l).rxCum = (getLink s l).rxNext ∧ (getLink s l).rxAcc = [] ∧ (getLink s l).unsure = false ∧ (getLink s l).held = []

/-- A bead with a sequence that link l has not accepted yet arrives (R154). -/
def FreshBead (s : State) (l : Nat) (h : W64) : Prop :=
  rxLive s l = true ∧ (getLink s l).has (unwrap (getLink s l).rxNext (hLseq h) 4096) = false

/-- The slot of an arriving planned bead, by the record of its sequence if it is a replay of one received in error (R128). -/
def beadSlot (s : State) (l : Nat) (h : W64) : Nat :=
  arrivalSlot s l h (((getLink s l).rxErr.find? fun e => e.1 % 4096 = hLseq h).map (·.2))

/-- A packet whose fields fit the header of R175. -/
def NiPkt.ok (p : NiPkt) : Prop :=
  opKnown p.op = true ∧ p.dest < 2 ^ 20 ∧ p.len ≤ 512 ∧ p.birth < 2 ^ 16 ∧ p.seq < 2 ^ 24 ∧ p.job < 4096 ∧
  (if p.job = 0 then p.srank < 2 ^ 20 else p.srank < 2 ^ 16) ∧ p.status < 128 ∧ p.data.length = p.dataLen ∧
  (opResp p.op = true → p.tgt = 0)

/-- No code word of memory holds an error and no line is poisoned (R84, R101). -/
def NoFlaws (s : State) : Prop := s.flaw = [] ∧ s.poison = [] ∧ s.rowErr = []

/-- The whole packet p is at the front of link l's receive buffer, is a response for this module, and context c holds its job
in its generation (R186). -/
def ResponseAt (s : State) (l : Nat) (p : NiPkt) (c : CtxId) : Prop :=
  frontPkt s l = some (p, true) ∧ p.mc = false ∧ p.op = 0x20 ∧ p.dest = ownGid s ∧ (getLink s l).route = none ∧ s.recPhase = 0 ∧
  allCtx.find? (fun d : CtxId => decide ((getCtx s d).st ≠ .closed) && decide ((getCtx s d).job.toNat = p.job)) = some c

/-- The whole unicast data request p is at the front of link l's receive buffer and is for this module (R185). -/
def RequestAt (s : State) (l : Nat) (p : NiPkt) : Prop :=
  frontPkt s l = some (p, true) ∧ p.mc = false ∧ opKnown p.op = true ∧ opResp p.op = false ∧ opMgmt p.op = false ∧
  p.dest = ownGid s ∧ (getLink s l).route = none ∧ s.recPhase = 0 ∧ expired s p.birth = false

/-- Command p of window src has been taken and has not started, and its turn has come; h is its held form (R314, R317, R318). -/
def CmdTurn (s : State) (src : Src) (p : Packet) (h : HeldCmd) : Prop :=
  served s src = true ∧ s.cmds.find? (isCmd src p) = some h ∧ h.started = false ∧ mayStart s (cmdsBefore s src p) h = true ∧
  (ctxOps.contains (pcode p) = true → (getCtx s (pctx p)).st ≠ .closed)

/-- Access a is the only open-class access that waits, and command i serves the last of it: a line of a tile's SRAM, or a period of an
LPDDR channel (R16, R48, R89). -/
def LastServed (s : State) (i : Instr) (a : HostAcc) : Prop :=
  s.inb = [] ∧ s.respW = [] ∧ s.hostAcc = [a] ∧
  ((∃ (t : TileId) (n : Nat) (w : Bool), i = .openSramAccess t ∧ a.needs = [.sram n w] ∧ n / 2 ^ 19 = t.val ∧
      zoneStopped s (zoneOf t) = false ∧ zoneDeep s (zoneOf t) = false ∧ sramFree s t (n % 2 ^ 19) w = true) ∨
   (∃ ch : ChanId, i = .openLpddrAccess ch ∧ a.needs = [.period ch.val] ∧ chanFree s ch = true))

/-- Access a is the piece of the copy that packet p of window src asked for, beginning at offset off; its command h waits and no reset
has ended it (R318, R323). -/
def PieceOf (s : State) (a : HostAcc) (src : Src) (p : Packet) (off : Nat) (h : HeldCmd) : Prop :=
  a.who = .piece src p off ∧ s.cmds.find? (isCmd src p) = some h ∧ h.info = 0

/-- A device recovery has begun between s and u: phase 1, counted, no command kept, PEER_RESET 0x01 queued on every UP link,
every open context that is not forwarding-only closing and the others as they were (R137, R293, R318). -/
def RecoveryBegan (s u : State) : Prop :=
  u.recPhase = 1 ∧ rd u rGAF_RECOVERY fGAF_RECOVERY_PHASE = 1 ∧
  rd u rGAF_RECOVERY fGAF_RECOVERY_COUNT = min (rd s rGAF_RECOVERY fGAF_RECOVERY_COUNT + 1) 65535 ∧ u.cmds = [] ∧ u.recAt = s.now ∧
  (∀ l : LinkId, lnkState s l = 6 → (getLink u l).ctrlq = (getLink s l).ctrlq ++ [BitVec.ofNat 64 (0x05 * 2 ^ 56 + 1)]) ∧
  (∀ c : CtxId, (getCtx s c).st ≠ .closed → (getCtx s c).fwOnly = false → (getCtx u c).st = .closing ∧ (getCtx u c).gen = (getCtx s c).gen) ∧
  (∀ c : CtxId, (getCtx s c).st = .closed ∨ (getCtx s c).fwOnly = true → getCtx u c = getCtx s c) ∧ u.mem = s.mem ∧ u.tiles = s.tiles

/-- The bytes from a to a + n read zero in u. -/
def Zeroed (u : State) (a n : Nat) : Prop := ∀ k, k < n → memByte u (a + k) = 0

/-- The commands of the windows: how each is sent, its opcode, and what else its packet must say (R319, R321, R326). -/
def hostCmds : List ((Src → Packet → Instr) × Nat × (Packet → Bool)) :=
  let op (n : Nat) (p : Packet) : Bool := decide (pf p 0 11 8 = n)
  [(.nopCommand, 0x01, fun _ => true), (.ctxOpen, 0x10, fun _ => true), (.ctxClose, 0x11, fun _ => true), (.ctxReset, 0x12, fun _ => true),
   (.planLoad, 0x20, fun _ => true), (.planArm, 0x21, fun _ => true), (.planAbort, 0x22, fun p => decide (pf p 0 63 63 = 0)),
   (.planAbortImmediate, 0x22, fun p => decide (pf p 0 63 63 = 1)), (.planStatus, 0x23, fun _ => true), (.copyIn, 0x30, fun _ => true),
   (.copyOut, 0x31, fun _ => true), (.fill, 0x32, fun _ => true), (.wipe, 0x33, fun _ => true), (.fence, 0x40, fun _ => true)] ++
  [(.timeSet, 0x50, fun _ => true), (.timeAdjust, 0x51, fun _ => true), (.tsRead, 0x52, fun _ => true), (.tableStage, 0x60, fun _ => true),
   (.tableCommit, 0x61, fun _ => true), (.tableRetire, 0x62, fun _ => true), (.linkCtlRetrain, 0x70, op 1), (.linkCtlEnable, 0x70, op 2),
   (.linkCtlDisable, 0x70, op 3), (.linkCtlFenceOn, 0x70, op 4), (.linkCtlFenceOff, 0x70, op 5), (.linkCtlAutoRetry, 0x70, op 6),
   (.linkCtlLaneMap, 0x70, op 7), (.linkStatus, 0x71, fun _ => true), (.discover, 0x72, fun _ => true)] ++
  [(.faultRead, 0x80, fun _ => true), (.faultClear, 0x81, fun _ => true), (.telemetryRead, 0x90, fun _ => true), (.attest, 0xA0, fun _ => true),
   (.certRead, 0xA1, fun _ => true), (.fwStage, 0xB0, fun _ => true), (.fwCommit, 0xB1, fun _ => true), (.lifecycle, 0xC0, fun _ => true),
   (.twinSet, 0xD0, fun _ => true), (.powerPolicy, 0xE0, fun _ => true)]

/-- Command p of window src has started and waits in u. -/
def Waits (u : State) (src : Src) (p : Packet) : Prop :=
  u.cmds.any (isCmd src p) = true ∧ ∀ k ∈ u.cmds, isCmd src p k = true → k.started = true

/-- A path that reaches the whole register map, over the sideband only while the life cycle permits it (R381, R411). -/
def Reaches (s : State) (path : Path) : Prop := wholeMap path = true ∧ (path = .sideband → lcOpen s = true)

/-- A register outside DET and DBG that only holds what is written: no COMMIT, no zone control, and no unit acts on the write. -/
def PlainReg (s : State) (off : Nat) (v : W64) : Prop :=
  commitOf off = none ∧ isDbg off = false ∧ isDet off = false ∧ off ≠ rCLK_COMMIT ∧ off ≠ rGAF_LOCATION ∧ instOf (rCLK_ZONE_CTL 0) 16 0x40 off = none ∧
  ∀ s1, writeLink s off v s1 = none ∧ writeCane s off v s1 = none ∧ writeTile s off v s1 = none ∧ writeMisc s off v s1 = none

/-- The SPDM responder serves a request of a connection that has come to phase n (R307, R333, R336, R380). -/
def SpdmServes (s : State) (port : SpdmPort) (n : Nat) : Prop :=
  (port = .mctp → rd s rSBD_STATUS fSBD_STATUS_EID ≠ 0) ∧ gafferDown s = false ∧ lcState s ≠ 5 ∧ n ≤ (getSpdm s port).phase

/-- Nothing between s and u but the SPDM connections, the messages sent, the free values drawn and the crypto engines' idle time. -/
def SpdmOnly (s u : State) : Prop :=
  u = { s with spdmSt := u.spdmSt, outs := u.outs, fresh := u.fresh, boot := { s.boot with crypto := u.boot.crypto }, regs := u.regs }

/-- The sideband serves a request of endpoint who: an endpoint ID is assigned, none of its requests is outstanding, and the
Gaffer runs (R333, R336). -/
def MctpServes (s : State) (who : BitVec 8) : Prop :=
  rd s rSBD_STATUS fSBD_STATUS_EID ≠ 0 ∧ s.sbd.busy.contains who.toNat = false ∧ gafferDown s = false

/-- A record that stops no context went from a unit of engine e whose channel has room: its code and DETAIL0 (R280, R345). -/
def RecordSent (s u : State) (e unit code d0 : Nat) : Prop :=
  (getCane s (faultChan e unit)).flagMd = false → 8 ≤ caneFree (faultChan e unit) s.now (getCane s (faultChan e unit)) →
  ∃ its, (getCane u (faultChan e unit)).items = (getCane s (faultChan e unit)).items ++ its ∧ its.length = 8 ∧
    (its.map (·.data)).head?.map wCode = some code ∧ (its.map (·.data))[4]? = some (BitVec.ofNat 64 d0)

/-- The module has Quenched between s and u with cause k: every context with a parison or running plan faulted, PEER_RESET 0x05 or
0x04 left on every UP link, a record newest in the Quench store and counted, and nothing but PD00 powered (R352). -/
def Quenched (s u : State) (k : Nat) : Prop :=
  u.pwr.quenched = true ∧ (∃ q, u.pwr.store = (q :: s.pwr.store).take 4 ∧ q.cause = k ∧ q.count = s.now ∧ q.unread = true) ∧
  rd u rPWR_QUENCH fPWR_QUENCH_NV_COUNT = min (rd s rPWR_QUENCH fPWR_QUENCH_NV_COUNT + 1) (2 ^ 32 - 1) ∧
  rd u rPWR_QUENCH fPWR_QUENCH_LAST_CAUSE = k ∧ rd u rPWR_DOMAIN fPWR_DOMAIN_ON = 1 ∧
  (∀ r : RailId, r ≠ 19 → rd u (rPWR_RAIL r) fPWR_RAIL_PG = 0) ∧
  (∀ c : CtxId, holdsPlan (getCtx s c) = true → purging (getCtx s c) = false → (getCtx u c).plan = .faulted) ∧
  (∀ c : CtxId, holdsPlan (getCtx s c) = false → (getCtx u c).plan = (getCtx s c).plan) ∧
  (∀ l : LinkId, lnkState s l = 6 → OutMsg.peerReset l (BitVec.ofNat 64 (0x05 * 2 ^ 56 + (if k = 2 then 5 else 4))) ∈ u.outs) ∧
  u.mem = [] ∧ u.tiles = [] ∧ u.recPhase = 0 ∧ u.flash = s.flash ∧ u.fuse = s.fuse ∧ u.now = s.now

/-- No cause of Quench before the k-th stands (R352). -/
def NoEarlier (s : State) (k : Nat) : Prop := ∀ j, 1 ≤ j → j < k → quenchDue s j = false

end Machine
end Sys2Proof
end

