-- ==== Sys2Proof/WellFormed.lean ====
section
/-! DEFINITION. Commands whose operands fit their rows: the packet's opcode is the row's and its payload fits a packet (13
R311), a received bead's class is the row's (05 R109, R110), an offset has the alignment of its access. -/
namespace Sys2Proof

/-- A packet is 1 to 64 units of 64 bytes, the first 32 bytes its header, and an inline sideband payload of at most 515 words (R311, R335). -/
def packetFits (p : Packet) : Bool := decide (p.payload.length ≤ 515)

/-- A packet with the opcode of a row. -/
def packetOk (p : Packet) (code : Nat) : Bool := decide (p.opcode.toNat = code) && packetFits p

/-- OP of LINK_CTL: P0 [11:8] (R326). -/
def linkOp (p : Packet) (op : Nat) : Bool := decide ((p.payload.getD 0 0).toNat / 256 % 16 = op)

/-- CLASS of a bead header (R109). -/
def beadClass (h : BitVec 64) (c : Nat) : Bool := decide (h.toNat / 2 ^ 60 = c)

/-- A source endpoint of the mesh: a tile, a gather engine, the delivery of a link (R239). -/
def endpointOk (ep : BitVec 10) : Bool :=
  decide (ep.toNat < 0x120) || (decide (0x200 ≤ ep.toNat) && decide (ep.toNat < 0x218))

def aligned8 (off : Nat) : Bool := decide (off % 8 = 0)

/-- The operands fit the row. -/
def Instr.wellFormed (i : Instr) : Bool :=
  match i with
  | .nop _ _ => true
  | .pinc _ _ _ _ => true
  | .pset _ _ _ _ => true
  | .pwait _ _ _ _ _ => true
  | .twait _ _ _ => true
  | .step _ _ => true
  | .loop _ _ _ _ => true
  | .jmp _ _ _ => true
  | .bload _ _ _ _ => true
  | .aadd _ _ _ _ => true
  | .aset _ _ _ _ => true
  | .seed _ _ _ => true
  | .halt _ _ => true
  | .mnop _ => true
  | .mwl _ _ => true
  | .mwlt _ _ => true
  | .mma _ _ => true
  | .mdr _ _ => true
  | .mdrc _ _ => true
  | .mdrv _ _ => true
  | .mclr _ _ => true
  | .vnop _ => true
  | .vadd _ _ => true
  | .vsub _ _ => true
  | .vmul _ _ => true
  | .vfma _ _ => true
  | .vmax _ _ => true
  | .vmin _ _ => true
  | .vcmp _ _ => true
  | .vsel _ _ => true
  | .vcvt _ _ => true
  | .vlogic _ _ => true
  | .vshf _ _ => true
  | .vred _ _ => true
  | .vexp2 _ _ => true
  | .vlog2 _ _ => true
  | .vrcp _ _ => true
  | .vrsqrt _ _ => true
  | .vrng _ _ => true
  | .vamx _ _ => true
  | .vaenc _ _ => true
  | .vadec _ _ => true
  | .memnop _ => true
  | .vld _ _ => true
  | .vst _ _ => true
  | .vldx _ _ => true
  | .vstx _ _ => true
  | .vlds _ _ => true
  | .mcpy _ _ => true
  | .mzero _ _ => true
  | .xnop _ => true
  | .xsend _ _ => true
  | .xrecv _ _ => true
  | .xdrop _ _ => true
  | .waitSatisfied _ => true
  | .waitBoundExceeded _ => true
  | .syncIncrementApplied => true
  | .meshWordDeparture ep _ => endpointOk ep
  | .meshWordArrival ep _ => endpointOk ep
  | .slotDeparture _ => true
  | .dueTickRelease _ => true
  | .plannedBeadArrival _ h _ _ => beadClass h 1
  | .voidBeadArrival _ h _ => beadClass h 7
  | .beadInError _ _ => true
  | .nak _ _ => true
  | .implicitNak _ => true
  | .fluxBudgetExhausted _ => true
  | .openBead _ h _ _ => (beadClass h 2 || beadClass h 3)
  | .credit _ _ => true
  | .creditReturn _ => true
  | .rtReq _ _ _ width _ => width ≠ 3
  | .rtGo _ _ width _ _ => width ≠ 3
  | .rtRefuse _ _ _ => true
  | .peerReset _ _ => true
  | .fenceWord _ _ _ => true
  | .skip _ _ => true
  | .measure _ _ _ _ => true
  | .hello _ h _ => beadClass h 5
  | .helloSend _ => true
  | .syncBead _ h _ _ _ => beadClass h 4
  | .syncSend _ => true
  | .lockLoss _ => true
  | .linkDown _ cause => (1 ≤ cause.toNat && decide (cause.toNat ≤ 5))
  | .autoRetry _ => true
  | .trainingStateComplete _ _ => true
  | .trainingStateLimit _ _ => true
  | .retrainStart _ => true
  | .epochPulse _ => true
  | .epochPulseMissing => true
  | .servoUpdate => true
  | .holdover => true
  | .syncLost => true
  | .takeover => true
  | .launch _ => true
  | .stepBoundary _ => true
  | .temperDecision _ => true
  | .zoneVoltageGood _ => true
  | .zoneStop _ => true
  | .zoneDividerSwitch _ => true
  | .zoneRestart _ => true
  | .droopStretch _ => true
  | .zoneWindowCheck _ => true
  | .forcedShed _ => true
  | .descriptorStart _ => true
  | .blockAccess _ => true
  | .lineEntersStaging _ => true
  | .descriptorFinish _ => true
  | .refreshWindow _ _ => true
  | .controllerRefresh _ _ => true
  | .sramScrub _ => true
  | .patrolScrub _ => true
  | .openSramAccess _ => true
  | .openLpddrAccess _ => true
  | .requestIssue _ => true
  | .packetHeadRoute _ => true
  | .requestArrival _ => true
  | .requestExecute => true
  | .responseArrival _ => true
  | .requestTimeout => true
  | .retryResend => true
  | .rankCacheMiss _ _ => true
  | .routeCacheMiss _ _ => true
  | .rateWindow => true
  | .congestionWindow => true
  | .faultStop _ => true
  | .faultRecordLog => true
  | .faultSpill => true
  | .linkRecordClose _ => true
  | .purgeAck _ _ => true
  | .purgeDeadline _ => true
  | .genGuardExpiry _ => true
  | .closeWipeComplete _ => true
  | .hangSample => true
  | .hangReplay _ => true
  | .watchdogExpiry => true
  | .deviceRecovery _ => true
  | .recoveryPhaseComplete _ => true
  | .recoveryFailed => true
  | .packetTake _ => true
  | .windowWrite _ off wide _ => (if wide then aligned8 off.toNat else decide (off.toNat % 4 = 0))
  | .nopCommand _ p => packetOk p 0x1
  | .ctxOpen _ p => packetOk p 0x10
  | .ctxClose _ p => packetOk p 0x11
  | .ctxReset _ p => packetOk p 0x12
  | .planLoad _ p => packetOk p 0x20
  | .planArm _ p => packetOk p 0x21
  | .planAbort _ p => packetOk p 0x22 && !(p.payload.getD 0 0).getLsbD 63
  | .planAbortImmediate _ p => packetOk p 0x22 && (p.payload.getD 0 0).getLsbD 63
  | .planStatus _ p => packetOk p 0x23
  | .copyIn _ p => packetOk p 0x30
  | .copyOut _ p => packetOk p 0x31
  | .fill _ p => packetOk p 0x32
  | .wipe _ p => packetOk p 0x33
  | .fence _ p => packetOk p 0x40
  | .timeSet _ p => packetOk p 0x50
  | .timeAdjust _ p => packetOk p 0x51
  | .tsRead _ p => packetOk p 0x52
  | .tableStage _ p => packetOk p 0x60
  | .tableCommit _ p => packetOk p 0x61
  | .tableRetire _ p => packetOk p 0x62
  | .linkCtlRetrain _ p => packetOk p 0x70 && linkOp p 1
  | .linkCtlEnable _ p => packetOk p 0x70 && linkOp p 2
  | .linkCtlDisable _ p => packetOk p 0x70 && linkOp p 3
  | .linkCtlFenceOn _ p => packetOk p 0x70 && linkOp p 4
  | .linkCtlFenceOff _ p => packetOk p 0x70 && linkOp p 5
  | .linkCtlAutoRetry _ p => packetOk p 0x70 && linkOp p 6
  | .linkCtlLaneMap _ p => packetOk p 0x70 && linkOp p 7
  | .linkStatus _ p => packetOk p 0x71
  | .discover _ p => packetOk p 0x72
  | .faultRead _ p => packetOk p 0x80
  | .faultClear _ p => packetOk p 0x81
  | .telemetryRead _ p => packetOk p 0x90
  | .attest _ p => packetOk p 0xa0
  | .certRead _ p => packetOk p 0xa1
  | .fwStage _ p => packetOk p 0xb0
  | .fwCommit _ p => packetOk p 0xb1
  | .lifecycle _ p => packetOk p 0xc0
  | .twinSet _ p => packetOk p 0xd0
  | .powerPolicy _ p => packetOk p 0xe0
  | .fwdCommit _ _ => true
  | .lnkCommit _ _ _ => true
  | .timCommit _ _ => true
  | .opnCommit _ _ => true
  | .clkCommit _ _ => true
  | .sbdCaneCommit _ _ _ => true
  | .stagedApply _ => true
  | .lnkCtlRequest _ _ _ => true
  | .lnkCtlEnableClear _ _ _ => true
  | .lnkFence _ _ _ => true
  | .timSnap _ _ => true
  | .timTsArm _ _ => true
  | .timTsData _ => true
  | .hstEvent _ => true
  | .gafRecoveryStart path _ => path ≠ .gaffer
  | .gafLocation _ _ => true
  | .dbgCtl _ _ => true
  | .dbgData _ => true
  | .detCtxCtl _ _ _ => true
  | .hstAperture _ _ => true
  | .registerWrite _ _ _ _ => true
  | .bar4Read _ off _ => aligned8 off.toNat
  | .bar4Write _ off _ => aligned8 off.toNat
  | .vfFlr _ => true
  | .pfFlr _ => true
  | .vfEnableClear => true
  | .ideKm _ _ _ => true
  | .ideIntegrityFailure _ => true
  | .doeDiscovery _ => true
  | .getVersion _ => true
  | .getCapabilities _ _ => true
  | .negotiateAlgorithms _ _ => true
  | .getDigests _ _ => true
  | .getCertificate _ _ _ _ _ => true
  | .challenge _ _ _ => true
  | .getMeasurements _ _ _ _ => true
  | .keyExchange _ _ => true
  | .finish _ _ => true
  | .setdasa _ _ => true
  | .entdaa _ => true
  | .rstdaa => true
  | .setEndpointId _ _ => true
  | .mctpControl _ _ _ => true
  | .sidebandCommand _ p => packetFits p
  | .jobNotice _ _ _ _ _ => true
  | .moduleState _ => true
  | .registerAccess _ _ _ _ => true
  | .getTid _ => true
  | .getPldmTypes _ => true
  | .getPldmCommands _ _ => true
  | .getPldmVersion _ _ => true
  | .getPdrRepositoryInfo _ => true
  | .getPdr _ _ => true
  | .getSensorReading _ _ => true
  | .getStateSensorReadings _ _ => true
  | .setNumericSensorEnable _ _ _ => true
  | .setEventReceiver _ _ _ => true
  | .platformEventMessage _ _ => true
  | .pollForPlatformEventMessage _ _ => true
  | .sensorRefresh r => r.vals.all fun e => decide (e.1 ≤ 24)
  | .bypass _ => true
  | .idcode => true
  | .samplePreload _ => true
  | .extest _ => true
  | .clamp => true
  | .highz => true
  | .privateInstruction _ _ _ => true
  | .caneWrite _ _ => true
  | .caneRead _ => true
  | .caneTimeout _ => true
  | .twinWindowClose _ => true
  | .twinPacketSend => true
  | .twinPacketReceive p => decide (p.items.length ≤ 128)
  | .twinItemTimeout => true
  | .powerOn => true
  | .bootPhaseComplete _ => true
  | .recoveryByHostRestart => true
  | .inputSag _ => true
  | .sagEnd _ => true
  | .interruption _ => true
  | .inputSurge _ => true
  | .inputRipple _ _ => true
  | .overcurrent _ => true
  | .inputOutsideRating _ => true
  | .pwrFailN _ => true
  | .quench cause => (1 ≤ cause.toNat && decide (cause.toNat ≤ 6))
  | .bankCutoff => true
  | .quenchEnd _ => true
  | .railFault _ _ => true
  | .railRepower _ => true
  | .railRead _ _ _ _ => true
  | .thermalTrip _ _ => true
  | .zoneOverTemperature _ => true
  | .powerLimitNotMet => true
  | .idleEntry _ => true
  | .idleWake _ => true
  | .earlyWake _ => true
  | .pd03IdleOff => true
  | .lclkEdge => true
  | .lossOfLock _ => true
  | .lockRegained _ => true
  | .emptyBeadArrival _ h _ => (beadClass h 0 || beadClass h 6)
  | .rootPllLockLoss _ _ => true
  | .openPacketLifetimeExpiry => true
  | .engineResetTimeout => true
  | .lifecycleRecoveryStart => true
  | .marginRetrainRequest _ _ width _ => width ≠ 3
  | .tileSelfTest _ _ => true
  | .interruptionEnd _ => true
  | .surgeEnd _ => true
  | .rippleEnd _ => true
  | .highInputEntry _ => true
  | .bankRecharged => true

end Sys2Proof
end

