-- ==== Sys2Proof/Certificates/Slice0/Obligations.lean ====
section
/-! DEFINITION. The statements about the block, chapter by chapter of the spec. -/

open Sys2Proof Sys2Proof.Machine

/-! ### The queue of commands -/

/-- A step runs the command at the front of the queue on the state with the queue's rest; with no command waiting the block
idles (the model's choice, log 13). -/
def Obligations.StepRunsFrontCommand : Prop :=
  (∀ (c : Instr) (rest : List Instr) (s : State), s.pending = c :: rest → step s = exec c { s with pending := rest }) ∧
  (∀ s : State, s.pending = [] → step s = .next s)

/-- Every command answers a next state: no command of the table ends in a fault or a refusal. -/
def Obligations.EveryCommandAnswers : Prop := ∀ (c : Instr) (s : State), ∃ t, exec c s = .next t

/-! ### Crucible tiles (chapter 2) -/

/-- The control slot commands that do not wait: NOP, PINC, PSET, LOOP, JMP, BLOAD, AADD, ASET, SEED and HALT (R30, R33 to R35,
R40, R52, R53, R55, R72, R250). s1 is the state in which the bundle issues. -/
def Obligations.ControlSlotsAct : Prop :=
  -- NOP has no sequencer action
  (∀ t s s1, CtlOpens s t s1 → exec (.nop t 0) s = .next s1) ∧
  -- PINC and PSET on an own local counter: in the next cc
  (∀ t s s1 (n : BitVec 16) (k : BitVec 8), CtlOpens s t s1 → n.toNat < 64 → k ≠ 0 →
    exec (.pinc t 0 n k) s = .next (setTile s1 t { getTile s1 t with
      made := (getTile s1 t).made ++ [((getTile s1 t).cc + 1, .pun n.toNat (.inc k.toNat))] })) ∧
  (∀ t s s1 (n : BitVec 16) (k : BitVec 8), CtlOpens s t s1 → n.toNat < 64 →
    exec (.pset t 0 n k) s = .next (setTile s1 t { getTile s1 t with
      made := (getTile s1 t).made ++ [((getTile s1 t).cc + 1, .pun n.toNat (.set (BitVec.ofNat 32 k.toNat)))] })) ∧
  -- on another tile's counter or a chip-wide one: into the sync network XO after the capture tick, applied 8 ticks later
  (∀ t s s1 (u c : Nat) (k : BitVec 8), CtlOpens s t s1 → u < 256 → c < 64 → ownsTile s1 t u = true →
    let sent (op : PunOp) : SyncItem := { due := captureAt s1 t + XO + 8, ctr := .tile (Fin.ofNat 256 u) c, op := op }
    let out (op : PunOp) : State := setTile { s1 with syncNet := s1.syncNet ++ [sent op] } t { getTile s1 t with sent := some (sent op) }
    (k ≠ 0 → exec (.pinc t 1 (BitVec.ofNat 16 (256 * u + c)) k) s = .next (out (.inc k.toNat))) ∧
    exec (.pset t 1 (BitVec.ofNat 16 (256 * u + c)) k) s = .next (out (.set (BitVec.ofNat 32 k.toNat)))) ∧
  (∀ t s s1 (n : BitVec 16) (k : BitVec 8), CtlOpens s t s1 → n.toNat < 4096 → ownsChip s1 t n.toNat = true →
    let sent (op : PunOp) : SyncItem := { due := captureAt s1 t + XO + 8, ctr := .chip n.toNat, op := op }
    let out (op : PunOp) : State := setTile { s1 with syncNet := s1.syncNet ++ [sent op] } t { getTile s1 t with sent := some (sent op) }
    (k ≠ 0 → exec (.pinc t 2 n k) s = .next (out (.inc k.toNat))) ∧
    exec (.pset t 2 n k) s = .next (out (.set (BitVec.ofNat 32 k.toNat)))) ∧
  -- LOOP: the body is the LEN + 1 bundles that follow, COUNT + 1 times; at most four levels
  (∀ t s s1 (n : BitVec 14) (len : BitVec 11), CtlOpens s t s1 → (getTile s1 t).loops.length < 4 →
    exec (.loop t n 0 len) s = .next (setTile s1 t { getTile s1 t with
      bidx := ((getTile s1 t).cur + 1) % 2048
      loops := { left := n.toNat + 1, first := ((getTile s1 t).cur + 1) % 2048
                 last := ((getTile s1 t).cur + 1 + len.toNat) % 2048 } :: (getTile s1 t).loops })) ∧
  -- JMP, outside loops
  (∀ t s s1 (k : BitVec 11), CtlOpens s t s1 → (getTile s1 t).loops = [] →
    exec (.jmp t 0 k) s = .next (setTile s1 t { getTile s1 t with bidx := k.toNat })) ∧
  -- BLOAD reads 1 KiB in the next cc into another block, valid for issue 4 cc after
  (∀ t s s1 (b : BitVec 6) (a : BitVec 15), CtlOpens s t s1 → (getTile s1 t).cur / 32 ≠ b.toNat →
    ∃ u, exec (.bload t b 0 a) s = .next u ∧
      (getTile u t).made = (getTile s1 t).made ++ [((getTile s1 t).cc + 1, .rdB (16 * a.toNat) b.toNat)] ∧
      tget (fun _ => 0) (getTile u t).blkFrom b.toNat = (getTile s1 t).cc + 4 ∧ u.mem = s1.mem ∧ u.regs = s1.regs) ∧
  -- AADD wraps modulo 2^20; AADD, ASET and SEED hold from the next cc
  (∀ t s s1 (a : BitVec 3) (v : BitVec 20), CtlOpens s t s1 →
    exec (.aadd t a 0 v) s = .next (setTile s1 t { getTile s1 t with
      made := (getTile s1 t).made ++ [((getTile s1 t).cc + 1, .setAd a.toNat (adreg (getTile s1 t) a.toNat + v))] }) ∧
    exec (.aset t a 0 v) s = .next (setTile s1 t { getTile s1 t with
      made := (getTile s1 t).made ++ [((getTile s1 t).cc + 1, .setAd a.toNat v)] })) ∧
  (∀ t s s1 (n : BitVec 10), CtlOpens s t s1 →
    exec (.seed t n 0) s = .next (setTile s1 t { getTile s1 t with
      made := (getTile s1 t).made ++ [((getTile s1 t).cc + 1, .seed n)] })) ∧
  -- HALT
  (∀ t s s1, CtlOpens s t s1 → exec (.halt t 0) s = .next (setTile s1 t { getTile s1 t with st := .halted }))

/-- PWAIT, TWAIT and STEP issue in the cc in which their condition holds, as the tile's zone sees it, and otherwise stall issue;
WAIT_SATISFIED lets the stalled bundle issue, and WAIT_BOUND_EXCEEDED raises EXEC 0x002 one tick past the bound (R29, R51, R53,
R54, R200). s1 is the state in the tile's next cc; the chip-wide counter is seen 2 + XI ticks late, a tick XI ticks late. -/
def Obligations.WaitSlotsStallAndResume : Prop :=
  -- PWAIT on a counter of the tile
  (∀ t s s1 (n : BitVec 12) (i : BitVec 10) (v : W32) (b : Nat), WaitOpens s t s1 → n.toNat < 64 →
    waitEntry (getTile s1 t) i.toNat = some (v, b) →
    ((localCtr (getTile s1 t) n.toNat - v).toNat < 2 ^ 31 → MayIssue s1 t →
      ∃ u, exec (.pwait t false n 0 i) s = .next u ∧ Issued s1 u t) ∧
    (¬ (localCtr (getTile s1 t) n.toNat - v).toNat < 2 ^ 31 →
      ∃ u, exec (.pwait t false n 0 i) s = .next u ∧ Stalled s1 u t { cond := .local n.toNat v, since := s1.now, bound := some b })) ∧
  -- PWAIT on a chip-wide counter of the tile's context
  (∀ t s s1 (n : BitVec 12) (i : BitVec 10) (v : W32) (b : Nat), WaitOpens s t s1 → ownsChip s1 t n.toNat = true →
    waitEntry (getTile s1 t) i.toNat = some (v, b) →
    ((chipAt s1 n.toNat (s1.now - (2 + XI)) - v).toNat < 2 ^ 31 → MayIssue s1 t →
      ∃ u, exec (.pwait t true n 0 i) s = .next u ∧ Issued s1 u t) ∧
    (¬ (chipAt s1 n.toNat (s1.now - (2 + XI)) - v).toNat < 2 ^ 31 →
      ∃ u, exec (.pwait t true n 0 i) s = .next u ∧ Stalled s1 u t { cond := .chip n.toNat v, since := s1.now, bound := some b })) ∧
  -- TWAIT: the start of the step the zone is in, plus the target
  (∀ t s s1 (i : BitVec 10) (v : W32) (b : Nat) (c : CtxId) (p : Plan), WaitOpens s t s1 → (getTile s1 t).own = some c →
    (getCtx s1 c).image = some p → waitEntry (getTile s1 t) i.toNat = some (v, b) →
    let k := (getCtx s1 c).launchAt + stepOffset p (resumeStep s1 c) (zoneSteps s1 t) + v.toNat
    (k + XI ≤ s1.now → MayIssue s1 t → ∃ u, exec (.twait t 0 i) s = .next u ∧ Issued s1 u t) ∧
    (s1.now < k + XI → ∃ u, exec (.twait t 0 i) s = .next u ∧ Stalled s1 u t { cond := .time k, since := s1.now, bound := some b })) ∧
  -- STEP: the boundary that ends the tile's step; it has no bound
  (∀ t s s1 (c : CtxId) (p : Plan), WaitOpens s t s1 → (getTile s1 t).own = some c → (getCtx s1 c).image = some p →
    let b := (getCtx s1 c).launchAt + stepOffset p (resumeStep s1 c) ((getTile s1 t).steps + 1)
    edgeBefore s1 t < b + XI →
    (b + XI ≤ s1.now → MayIssue s1 t → ∃ u, exec (.step t 0) s = .next u ∧ Issued s1 u t ∧ (getTile u t).steps = (getTile s1 t).steps + 1) ∧
    (s1.now < b + XI → ∃ u, exec (.step t 0) s = .next u ∧ Stalled s1 u t { cond := .step b, since := s1.now, bound := none })) ∧
  -- a stalled bundle issues in the tile's next cc once its condition holds there: a PWAIT or TWAIT no later than its bound, a STEP
  (∀ (t : TileId) s s1 w (b : Nat), s1 = advanceCc s t → (getTile s t).stall = some w → w.bound = some b → s.now ≤ w.since + b →
    zoneRuns s (zoneOf t) = true → stopSeen s t = false → condHolds s1 t w.cond = true → (getTile s1 t).st ≠ .faulted → MayIssue s1 t →
    ∃ u, exec (.waitSatisfied t) s = .next u ∧ Issued s1 u t) ∧
  (∀ (t : TileId) s s1 w (k : Nat), s1 = advanceCc s t → (getTile s t).stall = some w → w.bound = none → w.cond = .step k →
    k + XI ≤ s1.now → zoneRuns s (zoneOf t) = true → stopSeen s t = false → (getTile s1 t).st ≠ .faulted → MayIssue s1 t →
    ∃ u, exec (.waitSatisfied t) s = .next u ∧ Issued s1 u t ∧ (getTile u t).steps = (getTile s1 t).steps + 1) ∧
  -- past its bound it faults, with fault tick since + bound + 1
  (∀ (t : TileId) s w (b : Nat) (c : CtxId), (getTile s t).stall = some w → w.bound = some b → w.since + b < s.now → stopSeen s t = false →
    (getTile s t).own = some c → purging (getCtx s c) = false →
    ∃ u, exec (.waitBoundExceeded t) s = .next u ∧ (getTile u t).st = .faulted ∧ (getTile u t).stall = none ∧
      (getCtx u c).plan = .faulted ∧ (getCtx u c).faultTick =
        some (match (getCtx s c).faultTick with | some f => min (w.since + b + 1) f | none => w.since + b + 1) ∧
      (∀ k, k ≠ (t : Nat) → getTile u k = getTile s k) ∧ u.mem = s.mem ∧ u.regs = s.regs)

/-- The matrix slot: MNOP, MWL, MWLT, MMA, MDR, MDRC, MDRV and MCLR schedule their accesses in the cc that R40 and R42 give,
and change nothing else (R31, R32, R36, R42 to R44). -/
def Obligations.MatrixSlotsSchedule : Prop :=
  (∀ t s s1, SlotOpens s t 0 s1 → exec (.mnop t) s = .next s1) ∧
  -- MWL and MWLT: 512 B a cc from the next, then the scales; the format is recorded at once, the content lands at its latency
  (∀ t s s1 (f : MatSlot) (tr : Bool) (u : Nat), SlotOpens s t 0 s1 → fmtOk f.fmt = true → u = effAddr (getTile s1 t) f.ad f.off →
    u < 2 ^ 19 → u % 8 = 0 → u + 8 * chunkReads f.fmt + (if hasScales f.fmt then scaleLines f.fmt else 0) ≤ 2 ^ 19 →
    ¬ ((getTile s1 t).cc < (getTile s1 t).mmaEnd ∧ (getTile s1 t).mmaWb = f.wb.toNat) →
    (tr = true → (getTile s1 t).drainEnd ≤ (getTile s1 t).cc) →
    let key := 2 * (getTile s1 t).cc + f.wb.toNat
    exec (if tr then .mwlt t f else .mwl t f) s = .next (setTile s1 t {
      setWbuf (getTile s1 t) f.wb.toNat { wbuf (getTile s1 t) f.wb.toNat with fmt := f.fmt } with
      made := (getTile s1 t).made ++
        (List.range (chunkReads f.fmt)).map (fun k => ((getTile s1 t).cc + 1 + k, Act.rdW (u + 8 * k) 8 key (4096 * k))) ++
        (if hasScales f.fmt then [((getTile s1 t).cc + 1 + chunkReads f.fmt,
          Act.rdW (u + 8 * chunkReads f.fmt) (scaleLines f.fmt) key 65536)] else []) ++
        [((getTile s1 t).cc + (mwlN f.fmt + (if tr then 5 else 3) - (if isLc2 s1 (getTile s1 t) then 1 else 0)),
          Act.wbLand f.wb.toNat key f.fmt tr)] })) ∧
  mwlN 0x0 = 16 ∧ mwlN 0x3 = 17 ∧ mwlN 0x5 = 13 ∧ mwlN 0x8 = 16 ∧ mwlN 0xA = 8 ∧
  -- MMA: row j meets the stationary matrix in cc i + j, is read in cc i + 1 + j and lands at the end of cc i + j + L; scale line g
  -- of a block-scaled format is read in cc i + 16g, where R46 admits the first beside the accesses of the issue cc
  (∀ t s s1 (f : MatSlot) (u : Nat) (y : Tile), SlotOpens s t 0 s1 → fmtOk f.fmt = true → u = effAddr (getTile s1 t) f.ad f.off →
    f.accrow.toNat + f.rep.toNat ≤ 255 → u + f.rep.toNat < 2 ^ 19 →
    (hasScales f.fmt = true → (u ^^^ 2 ^ 18) + f.soff.toNat + f.rep.toNat / 16 < 2 ^ 19) →
    (getTile s1 t).mmaEnd ≤ (getTile s1 t).cc → (getTile s1 t).drainEnd ≤ (getTile s1 t).cc →
    fmtMatch f.fmt (wbuf (getTile s1 t) f.wb.toNat).fmt = true →
    y = { getTile s1 t with
      made := (getTile s1 t).made ++ (List.range (f.rep.toNat + 1)).map (fun j =>
          ((getTile s1 t).cc + j, Act.rdWt (u + j)
            { af := f.af.toNat, row := f.accrow.toNat + j, fmt := f.fmt, accz := f.accz = 1
              land := (getTile s1 t).cc + j + mmaLat f.fmt (isLc2 s1 (getTile s1 t)), j := j, iss := (getTile s1 t).cc
              wb := f.wb.toNat, buf := wbuf (getTile s1 t) f.wb.toNat })) ++
        (if hasScales f.fmt then (List.range (f.rep.toNat / 16 + 1)).map (fun g =>
          ((getTile s1 t).cc + 16 * g, Act.rdSc ((u ^^^ 2 ^ 18) + f.soff.toNat + g))) else [])
      mmaEnd := (getTile s1 t).cc + (f.rep.toNat + 1)
      mmaWb := f.wb.toNat
      mmaAf := f.af.toNat } →
    (hasScales f.fmt = true → involved (actsNow y) = []) → exec (.mma t f) s = .next (setTile s1 t y)) ∧
  mmaLat 0x0 false = 15 ∧ mmaLat 0xA false = 19 ∧ mmaLat 0x0 true = 11 ∧ mmaLat 0xA true = 15 ∧
  -- drains: pair k is read in cc d + 1 + k and written in the cc of the class's latency
  (∀ t s s1 (f : MatSlot) (k : DrainKind) (u : Nat), SlotOpens s t 0 s1 → f.rep.toNat % 2 = 1 → f.accrow.toNat + f.rep.toNat ≤ 255 →
    (k = .mdrc → f.fmt = 0x0 ∨ f.fmt = 0x1 ∨ f.fmt = 0x8 ∨ f.fmt = 0x9) → (k = .mdrv → f.rep = 1) →
    u = effAddr (getTile s1 t) f.ad f.off →
    (k ≠ .mdrv → u < 2 ^ 19 ∧ u % drainUnits k f.fmt = 0 ∧ u + drainUnits k f.fmt * ((f.rep.toNat + 1) / 2) ≤ 2 ^ 19) →
    (getTile s1 t).mmaEnd ≤ (getTile s1 t).cc → (getTile s1 t).drainEnd ≤ (getTile s1 t).cc →
    exec (match k with | .mdr => .mdr t f | .mdrc => .mdrc t f | .mdrv => .mdrv t f) s = .next (setTile s1 t { getTile s1 t with
      made := (getTile s1 t).made ++ (List.range ((f.rep.toNat + 1) / 2)).map (fun p =>
        ((getTile s1 t).cc + 1 + p, Act.drain f.af.toNat (f.accrow.toNat + 2 * p)
          (if k = .mdrv then f.off.toNat % 32 else u + drainUnits k f.fmt * p)
          (if k = .mdrc then some f.fmt else none) (decide (k = .mdrv))
          ((if isLc2 s1 (getTile s1 t) then 4 else 6) + (if k = .mdrc then 1 else 0) - 1) (bundleWin (getTile s1 t))))
      drainEnd := (getTile s1 t).cc + (f.rep.toNat + 1) / 2 })) ∧
  -- MCLR clears its rows at the end of the next cc
  (∀ t s s1 (f : MatSlot), SlotOpens s t 0 s1 → f.accrow.toNat + f.rep.toNat ≤ 255 →
    ¬ ((getTile s1 t).cc < (getTile s1 t).mmaEnd ∧ (getTile s1 t).mmaAf = f.af.toNat) → (getTile s1 t).drainEnd ≤ (getTile s1 t).cc →
    exec (.mclr t f) s = .next (setTile s1 t { getTile s1 t with
      made := (getTile s1 t).made ++ [((getTile s1 t).cc + 1, .accClr f.af.toNat f.accrow.toNat (f.rep.toNat + 1) (getTile s1 t).cc)] }))

/-- The arithmetic of the vector slot: VNOP, VADD, VSUB, VMUL, VFMA, VMAX and VMIN put the masked lanes into VD after the
latency of R40; RM = 4 takes one draw where RM is used (R37, R66, R67, R72, R416). `putLanes x f r lat g` is the tile with
lane l of register r set to g l, for every lane of the mask, lat cc later. -/
def Obligations.VectorArithmeticActs : Prop :=
  (∀ t s s1, SlotOpens s t 1 s1 → exec (.vnop t) s = .next s1) ∧
  -- FP32 sums, differences and products: 4 cc, rounded once
  (∀ t s s1 (f : VecSlot), SlotOpens s t 1 s1 → f.ty = 0 → f.rm < 5 →
    exec (.vadd t f) s = .next (setTile s1 t { putLanes (getTile s1 t) f f.vd.toNat 4 (fun l =>
        toF32 (laneRnd s1 t (getTile s1 t) f.rm l) (addN (laneRnd s1 t (getTile s1 t) f.rm l)
          (ofF32 (lane (vreg (getTile s1 t) f.va.toNat) l)) (ofF32 (lane (vreg (getTile s1 t) f.vb.toNat) l)))) with
      draw := (getTile s1 t).draw + (if f.rm = 4 then 1 else 0) }) ∧
    exec (.vsub t f) s = .next (setTile s1 t { putLanes (getTile s1 t) f f.vd.toNat 4 (fun l =>
        toF32 (laneRnd s1 t (getTile s1 t) f.rm l) (addN (laneRnd s1 t (getTile s1 t) f.rm l)
          (ofF32 (lane (vreg (getTile s1 t) f.va.toNat) l)) (negN (ofF32 (lane (vreg (getTile s1 t) f.vb.toNat) l))))) with
      draw := (getTile s1 t).draw + (if f.rm = 4 then 1 else 0) }) ∧
    exec (.vmul t f) s = .next (setTile s1 t { putLanes (getTile s1 t) f f.vd.toNat 4 (fun l =>
        toF32 (laneRnd s1 t (getTile s1 t) f.rm l)
          (mulN (ofF32 (lane (vreg (getTile s1 t) f.va.toNat) l)) (ofF32 (lane (vreg (getTile s1 t) f.vb.toNat) l)))) with
      draw := (getTile s1 t).draw + (if f.rm = 4 then 1 else 0) })) ∧
  (∀ t s s1 (f : VecSlot), SlotOpens s t 1 s1 → f.rm < 5 →
    exec (.vfma t f) s = .next (setTile s1 t { putLanes (getTile s1 t) f f.vd.toNat 4 (fun l =>
        toF32 (laneRnd s1 t (getTile s1 t) f.rm l) (addN (laneRnd s1 t (getTile s1 t) f.rm l)
          (mulN (ofF32 (lane (vreg (getTile s1 t) f.va.toNat) l)) (ofF32 (lane (vreg (getTile s1 t) f.vb.toNat) l)))
          (ofF32 (lane (vreg (getTile s1 t) f.vc.toNat) l)))) with
      draw := (getTile s1 t).draw + (if f.rm = 4 then 1 else 0) })) ∧
  -- INT32 and UINT32: 1 cc for sums, 4 for products, modulo 2^32; RM is ignored
  (∀ t s s1 (f : VecSlot), SlotOpens s t 1 s1 → (f.ty = 1 ∨ f.ty = 2) →
    exec (.vadd t f) s = .next (setTile s1 t (putLanes (getTile s1 t) f f.vd.toNat 1 fun l =>
      lane (vreg (getTile s1 t) f.va.toNat) l + lane (vreg (getTile s1 t) f.vb.toNat) l)) ∧
    exec (.vsub t f) s = .next (setTile s1 t (putLanes (getTile s1 t) f f.vd.toNat 1 fun l =>
      lane (vreg (getTile s1 t) f.va.toNat) l - lane (vreg (getTile s1 t) f.vb.toNat) l)) ∧
    exec (.vmul t f) s = .next (setTile s1 t (putLanes (getTile s1 t) f f.vd.toNat 4 fun l =>
      lane (vreg (getTile s1 t) f.va.toNat) l * lane (vreg (getTile s1 t) f.vb.toNat) l))) ∧
  -- INT64 sums in even-odd pairs, 2 cc, where every unmasked lane is in range
  (∀ t s s1 (f : VecSlot), SlotOpens s t 1 s1 → f.ty = 3 →
    f.vd.getLsbD 0 = false → f.va.getLsbD 0 = false → f.vb.getLsbD 0 = false →
    (∀ l, l < 256 → (qreg (getTile s1 t) f.msk.toNat).getLsbD l = true →
      -(2 ^ 63) ≤ (pairLane (getTile s1 t) f.va.toNat l).toInt + (pairLane (getTile s1 t) f.vb.toNat l).toInt ∧
      (pairLane (getTile s1 t) f.va.toNat l).toInt + (pairLane (getTile s1 t) f.vb.toNat l).toInt < 2 ^ 63) →
    exec (.vadd t f) s = .next (setTile s1 t (putPairs (getTile s1 t) f 2 fun l =>
      pairLane (getTile s1 t) f.va.toNat l + pairLane (getTile s1 t) f.vb.toNat l))) ∧
  (∀ t s s1 (f : VecSlot), SlotOpens s t 1 s1 → f.ty = 3 →
    f.vd.getLsbD 0 = false → f.va.getLsbD 0 = false → f.vb.getLsbD 0 = false →
    (∀ l, l < 256 → (qreg (getTile s1 t) f.msk.toNat).getLsbD l = true →
      -(2 ^ 63) ≤ (pairLane (getTile s1 t) f.va.toNat l).toInt - (pairLane (getTile s1 t) f.vb.toNat l).toInt ∧
      (pairLane (getTile s1 t) f.va.toNat l).toInt - (pairLane (getTile s1 t) f.vb.toNat l).toInt < 2 ^ 63) →
    exec (.vsub t f) s = .next (setTile s1 t (putPairs (getTile s1 t) f 2 fun l =>
      pairLane (getTile s1 t) f.va.toNat l - pairLane (getTile s1 t) f.vb.toNat l))) ∧
  -- VMAX and VMIN: 2 cc
  (∀ t s s1 (f : VecSlot), SlotOpens s t 1 s1 → f.ty < 3 →
    exec (.vmax t f) s = .next (setTile s1 t (putLanes (getTile s1 t) f f.vd.toNat 2 fun l =>
      pick f.ty true (lane (vreg (getTile s1 t) f.va.toNat) l) (lane (vreg (getTile s1 t) f.vb.toNat) l))) ∧
    exec (.vmin t f) s = .next (setTile s1 t (putLanes (getTile s1 t) f f.vd.toNat 2 fun l =>
      pick f.ty false (lane (vreg (getTile s1 t) f.va.toNat) l) (lane (vreg (getTile s1 t) f.vb.toNat) l)))) ∧
  (∀ a b : W32, (pick 1 true a b).toInt = max a.toInt b.toInt ∧ (pick 1 false a b).toInt = min a.toInt b.toInt ∧
    (pick 2 true a b).toNat = max a.toNat b.toNat ∧ (pick 2 false a b).toNat = min a.toNat b.toNat)

/-- VCMP, VSEL, VLOGIC, VSHF, VRED and VCVT (R40, R41, R66 to R68). VLOGIC's AND-NOT is VA and not VB by the model's
reading (log 11). -/
def Obligations.VectorLaneOperationsAct : Prop :=
  -- VCMP writes the mask bits of the lanes MSK selects; the others keep their value
  (∀ t s s1 (f : VecSlot) (c q : Nat), SlotOpens s t 1 s1 → f.ty < 3 → c < 6 → q < 8 → f.imm.toNat = 8 * c + q →
    ∃ bits : BitVec 256,
      exec (.vcmp t f) s = .next (setTile s1 t { getTile s1 t with
        made := (getTile s1 t).made ++ [((getTile s1 t).cc + 2, .setQ q bits (qreg (getTile s1 t) f.msk.toNat))] }) ∧
      ∀ l, l < 256 → bits.getLsbD l =
        compareLane f.ty c (lane (vreg (getTile s1 t) f.va.toNat) l) (lane (vreg (getTile s1 t) f.vb.toNat) l)) ∧
  (∀ a b : W32,
    compareLane 1 0 a b = decide (a.toInt = b.toInt) ∧ compareLane 1 1 a b = decide (a.toInt ≠ b.toInt) ∧
    compareLane 1 2 a b = decide (a.toInt < b.toInt) ∧ compareLane 1 3 a b = decide (a.toInt ≤ b.toInt) ∧
    compareLane 1 4 a b = decide (b.toInt < a.toInt) ∧ compareLane 1 5 a b = decide (b.toInt ≤ a.toInt) ∧
    compareLane 2 2 a b = decide (a.toNat < b.toNat) ∧ compareLane 2 5 a b = decide (b.toNat ≤ a.toNat)) ∧
  -- VSEL
  (∀ t s s1 (f : VecSlot), SlotOpens s t 1 s1 →
    exec (.vsel t f) s = .next (setTile s1 t (putLanes (getTile s1 t) f f.vd.toNat 1 fun l =>
      if (qreg (getTile s1 t) (f.imm.toNat % 8)).getLsbD l then lane (vreg (getTile s1 t) f.va.toNat) l
      else lane (vreg (getTile s1 t) f.vb.toNat) l))) ∧
  -- VLOGIC
  (∀ t s s1 (f : VecSlot), SlotOpens s t 1 s1 →
    exec (.vlogic t f) s = .next (setTile s1 t (putLanes (getTile s1 t) f f.vd.toNat 1 fun l =>
      match f.imm.toNat % 4 with
      | 0 => lane (vreg (getTile s1 t) f.va.toNat) l &&& lane (vreg (getTile s1 t) f.vb.toNat) l
      | 1 => lane (vreg (getTile s1 t) f.va.toNat) l ||| lane (vreg (getTile s1 t) f.vb.toNat) l
      | 2 => lane (vreg (getTile s1 t) f.va.toNat) l ^^^ lane (vreg (getTile s1 t) f.vb.toNat) l
      | _ => lane (vreg (getTile s1 t) f.va.toNat) l &&& ~~~ lane (vreg (getTile s1 t) f.vb.toNat) l))) ∧
  -- VSHF by its pattern, each of which but the broadcast moves every source lane to one place
  (∀ t s s1 (f : VecSlot), SlotOpens s t 1 s1 → f.imm.toNat < 15 →
    exec (.vshf t f) s = .next (setTile s1 t (putLanes (getTile s1 t) f f.vd.toNat 2 fun l =>
      lane (vreg (getTile s1 t) f.va.toNat) (shfSrc f.imm.toNat l)))) ∧
  (∀ p, p < 15 → p ≠ 11 → ∀ l, l < 256 → shfSrc p l < 256 ∧ ∀ m, m < 256 → shfSrc p l = shfSrc p m → l = m) ∧
  -- VRED writes lane 0 alone
  (∀ t s s1 (f : VecSlot), SlotOpens s t 1 s1 → f.ty < 3 → f.imm.toNat < 2 →
    exec (.vred t f) s = .next (setTile s1 t { getTile s1 t with
      made := (getTile s1 t).made ++ [((getTile s1 t).cc + 12, .setV 0 f.vd.toNat
        (if (qreg (getTile s1 t) f.msk.toNat).getLsbD 0 then
          [(0, lane (treeRed (redOp f.ty (decide (f.imm.toNat = 1))) 8 (vreg (getTile s1 t) f.va.toNat)) 0)] else []))] })) ∧
  -- VCVT from FP32 (0xA), INT32 (0xB) or UINT32 (0xC)
  (∀ t s s1 (f : VecSlot) (src dst : BitVec 4), SlotOpens s t 1 s1 → f.rm < 5 → src = BitVec.ofNat 4 f.imm.toNat →
    dst = BitVec.ofNat 4 (f.imm.toNat / 16) → src ∈ [0xA, 0xB, 0xC] → dst ∈ [0x0, 0x1, 0x2, 0x8, 0x9, 0xA, 0xB, 0xC] →
    exec (.vcvt t f) s = .next (setTile s1 t { putLanes (getTile s1 t) f f.vd.toNat 3 (fun l =>
        vcvtLane src dst (laneRnd s1 t (getTile s1 t) f.rm l) (lane (vreg (getTile s1 t) f.va.toNat) l)) with
      draw := (getTile s1 t).draw + (if f.rm = 4 then 1 else 0) }))

/-- The tree of VRED adds every lane of an INT32 register once, and its maximum is a lane that none exceeds (R40, R41). -/
def Obligations.ReductionTreeCoversEveryLane : Prop :=
  (∀ l : List W32, l.length = 256 → lane (treeRed (redOp 1 false) 8 l) 0 = l.foldr (· + ·) 0) ∧
  (∀ l : List W32, l.length = 256 →
    lane (treeRed (redOp 2 true) 8 l) 0 ∈ l ∧ ∀ w ∈ l, w.toNat ≤ (lane (treeRed (redOp 2 true) 8 l) 0).toNat)

/-- The transcendental pipe, VRNG and the Alloy conversions: VEXP2, VLOG2, VRCP, VRSQRT, VRNG, VAMX, VAENC and VADEC
(R32, R40, R69, R72, R73, R75, R77). -/
def Obligations.VectorSpecialOperationsAct : Prop :=
  (∀ t s s1 (f : VecSlot), SlotOpens s t 1 s1 → (getTile s1 t).trEnd ≤ (getTile s1 t).cc →
    exec (.vexp2 t f) s = .next (setTile s1 t { putLanes (getTile s1 t) f f.vd.toNat 16 (fun l =>
      exp2V (lane (vreg (getTile s1 t) f.va.toNat) l)) with trEnd := (getTile s1 t).cc + 4 }) ∧
    exec (.vlog2 t f) s = .next (setTile s1 t { putLanes (getTile s1 t) f f.vd.toNat 16 (fun l =>
      log2V (lane (vreg (getTile s1 t) f.va.toNat) l)) with trEnd := (getTile s1 t).cc + 4 }) ∧
    exec (.vrcp t f) s = .next (setTile s1 t { putLanes (getTile s1 t) f f.vd.toNat 16 (fun l =>
      rcpV (lane (vreg (getTile s1 t) f.va.toNat) l)) with trEnd := (getTile s1 t).cc + 4 }) ∧
    exec (.vrsqrt t f) s = .next (setTile s1 t { putLanes (getTile s1 t) f f.vd.toNat 16 (fun l =>
      rsqrtV (lane (vreg (getTile s1 t) f.va.toNat) l)) with trEnd := (getTile s1 t).cc + 4 })) ∧
  -- VRNG takes exactly one draw, whatever TYPE and RM hold
  (∀ t s s1 (f : VecSlot), SlotOpens s t 1 s1 →
    exec (.vrng t f) s = .next (setTile s1 t { putLanes (getTile s1 t) f f.vd.toNat 6 (fun l =>
      randWord s1 t (getTile s1 t) (getTile s1 t).draw l) with draw := (getTile s1 t).draw + 1 })) ∧
  -- VAMX: the maximum exponent of the 256 lanes, whatever the mask, in every lane of the mask
  (∀ t s s1 (f : VecSlot), SlotOpens s t 1 s1 →
    exec (.vamx t f) s = .next (setTile s1 t (putLanes (getTile s1 t) f f.vd.toNat 10 fun _ =>
      BitVec.ofInt 32 ((vreg (getTile s1 t) f.va.toNat).foldl (fun a w => max a (alloyExp w)) (-32768 : Int))))) ∧
  -- VAENC at exponent E of VB lane 0, where every lane of the mask is admitted; E = 32767 encodes to 0
  (∀ t s s1 (f : VecSlot) (e : Int), SlotOpens s t 1 s1 → f.vd.getLsbD 0 = false →
    e = (lane (vreg (getTile s1 t) f.vb.toNat) 0).toInt → e ≠ 32767 →
    (∀ l, l < 256 → (qreg (getTile s1 t) f.msk.toNat).getLsbD l = true →
      encBad e (lane (vreg (getTile s1 t) f.va.toNat) l) = false) →
    exec (.vaenc t f) s = .next (setTile s1 t (putPairs (getTile s1 t) f 5 fun l =>
      alloyEnc e (lane (vreg (getTile s1 t) f.va.toNat) l)))) ∧
  (∀ t s s1 (f : VecSlot), SlotOpens s t 1 s1 → f.vd.getLsbD 0 = false →
    (lane (vreg (getTile s1 t) f.vb.toNat) 0).toInt = 32767 →
    exec (.vaenc t f) s = .next (setTile s1 t (putPairs (getTile s1 t) f 5 fun _ => 0))) ∧
  -- VADEC to FP32 or BF16 (IMM[0])
  (∀ t s s1 (f : VecSlot), SlotOpens s t 1 s1 → f.va.getLsbD 0 = false →
    exec (.vadec t f) s = .next (setTile s1 t (putLanes (getTile s1 t) f f.vd.toNat 5 fun l =>
      alloyDec (lane (vreg (getTile s1 t) f.vb.toNat) 0).toInt (f.imm.getLsbD 0) (pairLane (getTile s1 t) f.va.toNat l))))

/-- Alloy: the lanes VAENC admits are zero and the finite values with e(x) no larger than E, and every integer it makes has
magnitude at most 2^46 - 2^22, so that 131,072 of them never leave a signed 64-bit word (R73, R75, R76). -/
def Obligations.AlloyIntegersLeaveHeadroom : Prop :=
  (∀ (e : Int) (w : W32), encBad e w = false ↔ ∃ n m x, ofF32 w = .fin n m x ∧ (m = 0 ∨ alloyExp w ≤ e)) ∧
  (∀ (e : Int) (w : W32), encBad e w = false → ((alloyEnc e w).toInt).natAbs ≤ 2 ^ 46 - 2 ^ 22) ∧
  (∀ l : List (BitVec 64), l.length ≤ 131072 → (∀ i ∈ l, i.toInt.natAbs ≤ 2 ^ 46 - 2 ^ 22) →
    (l.foldr (· + ·) 0).toInt = (l.map BitVec.toInt).foldr (· + ·) 0)

/-- The memory slot: MEMNOP, VLD, VST, VLDX, VSTX, VLDS, MCPY and MZERO make their accesses in the cc R40 gives, at the
unit address AD + OFF, and take the memory slot of the cc (R16, R31, R35, R38, R40, R68). -/
def Obligations.MemorySlotsSchedule : Prop :=
  (∀ t s s1, SlotOpens s t 2 s1 → exec (.memnop t) s = .next s1) ∧
  (∀ t s s1 (f : MemSlot) (u n : Nat), SlotOpens s t 2 s1 → f.size < 5 → n = 2 ^ f.size.toNat →
    u = effAddr (getTile s1 t) f.ad f.off → u % n = 0 → u < 2 ^ 19 →
    -- VLD: read at +1, usable at +3; VST and MZERO: written at +1, the register as it stands in the issue cc
    exec (.vld t f) s = .next (setTile s1 t { getTile s1 t with
      memBusy := true
      made := (getTile s1 t).made ++ [((getTile s1 t).cc + 1, .rdV u n f.vr.toNat none ((getTile s1 t).cc + 3))] }) ∧
    exec (.vst t f) s = .next (setTile s1 t { getTile s1 t with
      memBusy := true
      made := (getTile s1 t).made ++ [((getTile s1 t).cc + 1, .wr u (regLines (vreg (getTile s1 t) f.vr.toNat) n) 4 (bundleWin (getTile s1 t)))] }) ∧
    exec (.mzero t f) s = .next (setTile s1 t { getTile s1 t with
      memBusy := true
      made := (getTile s1 t).made ++ [((getTile s1 t).cc + 1, .wr u (List.replicate n 0) 4 (bundleWin (getTile s1 t)))] }) ∧
    -- MCPY: read at +1, written at +2, to VR x 2^14 + STRIDE x 32
    ((f.vr.toNat * 2 ^ 14 + f.stride.toNat * 32) % n = 0 →
      exec (.mcpy t f) s = .next (setTile s1 t { getTile s1 t with
        memBusy := true
        made := (getTile s1 t).made ++ [((getTile s1 t).cc + 1,
          .rdC u n (f.vr.toNat * 2 ^ 14 + f.stride.toNat * 32) (bundleWin (getTile s1 t)))] }))) ∧
  -- VLDX and VSTX: 512 B for the 16-bit formats, 256 B for FP8 and INT8
  (∀ t s s1 (f : MemSlot) (u n : Nat), SlotOpens s t 2 s1 → f.ty ∈ [0x0, 0x1, 0x2, 0x8, 0x9] →
    n = (if f.ty = 0x8 ∨ f.ty = 0x9 then 8 else 4) → u = effAddr (getTile s1 t) f.ad f.off → u % n = 0 → u < 2 ^ 19 →
    exec (.vldx t f) s = .next (setTile s1 t { getTile s1 t with
      memBusy := true
      made := (getTile s1 t).made ++ [((getTile s1 t).cc + 1, .rdV u n f.vr.toNat (some f.ty) ((getTile s1 t).cc + 4))] }) ∧
    exec (.vstx t f) s = .next (setTile s1 t { getTile s1 t with
      memBusy := true
      made := (getTile s1 t).made ++ [((getTile s1 t).cc + 2, .wr u (narrowLines f.ty (vreg (getTile s1 t) f.vr.toNat)) 4 (bundleWin (getTile s1 t)))] })) ∧
  -- VLDS: sixteen lines at a stride
  (∀ t s s1 (f : MemSlot), SlotOpens s t 2 s1 → effAddr (getTile s1 t) f.ad f.off + 15 * f.stride.toNat < 2 ^ 19 →
    exec (.vlds t f) s = .next (setTile s1 t { getTile s1 t with
      memBusy := true
      made := (getTile s1 t).made ++ [((getTile s1 t).cc + 1,
        .rdS (effAddr (getTile s1 t) f.ad f.off) f.stride.toNat f.vr.toNat ((getTile s1 t).cc + 3))] }))

/-- The mesh slot: XNOP, XSEND, XRECV and XDROP. Word k of a transfer is moved in cc i + 1 + k and its path is busy for
LEN + 1 cc; XDROP frees its entries in its own cc (R32, R35, R39, R40, R50). -/
def Obligations.MeshSlotsSchedule : Prop :=
  (∀ t s s1, SlotOpens s t 3 s1 → exec (.xnop t) s = .next s1) ∧
  (∀ t s s1 (f : MeshSlot) (u : Nat), SlotOpens s t 3 s1 → f.rsv = 0 → u = effAddr (getTile s1 t) f.ad f.off →
    u + f.len.toNat < 2 ^ 19 → (getTile s1 t).sendEnd ≤ (getTile s1 t).cc →
    exec (.xsend t f) s = .next (setTile s1 t { getTile s1 t with
      sendEnd := (getTile s1 t).cc + (f.len.toNat + 1)
      made := (getTile s1 t).made ++ (List.range (f.len.toNat + 1)).map fun k =>
        ((getTile s1 t).cc + 1 + k, Act.rdOut (u + k) ((f.entry.toNat + k) % 128) f.chan.toNat) })) ∧
  (∀ t s s1 (f : MeshSlot) (u : Nat), SlotOpens s t 3 s1 → f.rsv = 0 → u = effAddr (getTile s1 t) f.ad f.off →
    u + f.len.toNat < 2 ^ 19 → (getTile s1 t).recvEnd ≤ (getTile s1 t).cc →
    exec (.xrecv t f) s = .next (setTile s1 t { getTile s1 t with
      recvEnd := (getTile s1 t).cc + (f.len.toNat + 1)
      made := (getTile s1 t).made ++ (List.range (f.len.toNat + 1)).map fun k =>
        ((getTile s1 t).cc + 1 + k, Act.wrIn (u + k) ((f.entry.toNat + k) % 128) (bundleWin (getTile s1 t))) })) ∧
  (∀ t s s1 (f : MeshSlot), SlotOpens s t 3 s1 → f.rsv = 0 →
    exec (.xdrop t f) s = .next (setTile s1 t { getTile s1 t with
      made := (getTile s1 t).made ++ (List.range (f.len.toNat + 1)).map fun k =>
        ((getTile s1 t).cc, Act.drop ((f.entry.toNat + k) % 128)) })) ∧
  -- a dropped entry is free when its cc has ended, for a word that comes from the capture tick plus XO on; the others keep theirs
  (∀ (s : State) (t : TileId) (e : Nat), (getTile s t).acts = [] → (getTile s t).made = [((getTile s t).cc, .drop e)] →
    boxGet (getTile (closeCc s t) t).inbox e = none ∧ tget (fun _ => 0) (getTile (closeCc s t) t).freedAt (e % 128) = captureAt s t + XO ∧
    (∀ d, d % 128 ≠ e % 128 → boxGet (getTile (closeCc s t) t).inbox d = boxGet (getTile s t).inbox d) ∧
    (getTile (closeCc s t) t).outbox = (getTile s t).outbox ∧ (closeCc s t).mem = s.mem)

/-- Register results land at the start of their cc: the vector register, mask register, address register, stream or local
counter named takes its new value then and not before, every other register keeps its value, and Q0 and AD0 never change
(R24, R29, R31, R40, R52, R72). -/
def Obligations.RegisterResultsLandInTheirCycle : Prop :=
  -- the lanes that a mask selects, n cc after issue
  (∀ (s : State) (t : TileId) (x : Tile) (f : VecSlot) (r n : Nat) (g : Nat → W32), x.only [] → r < 32 → 0 < n →
    (∀ k, k < n → ∀ q, vreg (getTile (ccs (setTile s t (putLanes x f r n g)) t k) t) q = vreg x q) ∧
    (∀ l, l < 256 → lane (vreg (getTile (ccs (setTile s t (putLanes x f r n g)) t n) t) r) l =
      if (qreg x f.msk.toNat).getLsbD l then g l else lane (vreg x r) l) ∧
    (∀ q, q < 32 → q ≠ r → vreg (getTile (ccs (setTile s t (putLanes x f r n g)) t n) t) q = vreg x q)) ∧
  -- a mask register
  (∀ (s : State) (t : TileId) (q : Nat) (bits msk : BitVec 256), (getTile s t).only [((getTile s t).cc + 1, .setQ q bits msk)] →
    (∀ l, l < 256 → (qreg (getTile (advanceCc s t) t) q).getLsbD l =
      if q = 0 then true else if msk.getLsbD l then bits.getLsbD l else (qreg (getTile s t) q).getLsbD l) ∧
    ∀ p, p ≠ q → qreg (getTile (advanceCc s t) t) p = qreg (getTile s t) p) ∧
  -- an address register
  (∀ (s : State) (t : TileId) (a : Nat) (v : BitVec 20), (getTile s t).only [((getTile s t).cc + 1, .setAd a v)] →
    adreg (getTile (advanceCc s t) t) a = (if a = 0 then 0 else v) ∧
    ∀ b, b ≠ a → adreg (getTile (advanceCc s t) t) b = adreg (getTile s t) b) ∧
  -- the current stream, with draw index 0
  (∀ (s : State) (t : TileId) (n : BitVec 10), (getTile s t).only [((getTile s t).cc + 1, .seed n)] →
    (getTile (advanceCc s t) t).stream = n ∧ (getTile (advanceCc s t) t).draw = 0) ∧
  -- a local counter: the PSET, or the counter plus the increment modulo 2^32
  (∀ (s : State) (t : TileId) (c k : Nat), c < 64 → (getTile s t).only [((getTile s t).cc + 1, .pun c (.inc k))] →
    localCtr (getTile (advanceCc s t) t) c = localCtr (getTile s t) c + BitVec.ofNat 32 k ∧
    ∀ d, d ≠ c → localCtr (getTile (advanceCc s t) t) d = localCtr (getTile s t) d) ∧
  (∀ (s : State) (t : TileId) (c : Nat) (v : W32), c < 64 → (getTile s t).only [((getTile s t).cc + 1, .pun c (.set v))] →
    localCtr (getTile (advanceCc s t) t) c = v)

/-- Operations that reach one counter in one cc or tick are applied together: the outcome does not depend on their order, no
increment is lost, a PSET counts before the increments, of several PSETs the largest counts, and a cc sees the counter as the
cc before left it (R51, R52). -/
def Obligations.CounterOperationsCombine : Prop :=
  (∀ (v : W32) (a b : List PunOp), a.Perm b → punApply v a = punApply v b) ∧
  (∀ (v : W32) (ns : List Nat), punApply v (ns.map .inc) = v + BitVec.ofNat 32 ns.sum) ∧
  (∀ (v w : W32) (ops : List PunOp), (.set w) ∈ ops → (∀ x, (.set x) ∈ ops → x.toNat ≤ w.toNat) →
    punApply v ops = w + BitVec.ofNat 32 ((ops.map fun o => match o with | .inc n => n | .set _ => 0).sum)) ∧
  -- the operations of one cc on a local counter, and of one tick on a chip-wide one
  (∀ (s : State) (t : TileId) (c : Nat) (ops : List PunOp), c < 64 → (getTile s t).only (ops.map fun o => ((getTile s t).cc + 1, .pun c o)) →
    localCtr (getTile (advanceCc s t) t) c = punApply (localCtr (getTile s t) c) ops) ∧
  (∀ (s : State) (n t : Nat) (ops : List PunOp), s.syncNet = ops.map (fun o => { due := t, ctr := .chip n, op := o }) → t ≤ s.now →
    ∃ u, exec .syncIncrementApplied s = .next u ∧ chipNow u n = punApply (chipNow s n) ops ∧ u.syncNet = []) ∧
  -- operations of the cc in which a wait is evaluated are not seen by it
  (∀ (s : State) (t : TileId) (c : Nat) (ops : List PunOp), (getTile s t).only (ops.map fun o => ((getTile s t).cc + 2, .pun c o)) →
    localCtr (getTile (advanceCc s t) t) c = localCtr (getTile s t) c) ∧
  (∀ v t : W32, punMet v t = true ↔ (v - t).toNat < 2 ^ 31)

/-- Loops and jumps: LOOP opens a level whose body is the bundles that follow it, at most four deep, and issue follows
the loop stack; a loop runs its body `left` times, every bundle in stream order each time, and leaves the level after its last
bundle, so that loops cost no bundle; JMP moves issue outside loops alone (R34). `lv` is a level whose body is `len` bundles
within the bundle store. -/
def Obligations.LoopBodyRepeats : Prop :=
  (∀ t s s1 (n : BitVec 14) (len : BitVec 11), CtlOpens s t s1 →
    ((getTile s1 t).loops.length < 4 → exec (.loop t n 0 len) s = .next (setTile s1 t { getTile s1 t with
      bidx := ((getTile s1 t).cur + 1) % 2048
      loops := { left := n.toNat + 1, first := ((getTile s1 t).cur + 1) % 2048
                 last := ((getTile s1 t).cur + 1 + len.toNat) % 2048 } :: (getTile s1 t).loops })) ∧
    (4 ≤ (getTile s1 t).loops.length → exec (.loop t n 0 len) s = .next (tileFault s1 t 1 0x200A 0 0))) ∧
  (∀ t s s1 (k : BitVec 11), CtlOpens s t s1 →
    ((getTile s1 t).loops = [] → exec (.jmp t 0 k) s = .next (setTile s1 t { getTile s1 t with bidx := k.toNat })) ∧
    ((getTile s1 t).loops ≠ [] → exec (.jmp t 0 k) s = .next (tileFault s1 t 1 0x200D 0 0))) ∧
  -- each bundle issues in the cc after the one before it, where the loop stack says
  (∀ s (t : TileId), breakHit s t (getTile s t) = none → tget (fun _ => 0) (getTile s t).blkFrom ((getTile s t).bidx / 32) ≤ (getTile s t).cc →
    (getTile (takeBundle s t) t).cur = (getTile s t).bidx ∧ (getTile (takeBundle s t) t).cc = (getTile s t).cc ∧
    ((getTile (takeBundle s t) t).bidx, (getTile (takeBundle s t) t).loops) = seqNext (getTile s t).bidx (getTile s t).loops) ∧
  (∀ (lv : LoopLv) (len : Nat) (outer : List LoopLv), 0 < len → 1 ≤ lv.left → lv.last + 1 = lv.first + len → lv.last < 2048 →
    (∀ o ∈ outer, o.last ≠ lv.last) →
    (∀ k, k < lv.left * len → (seqRun k (lv.first, lv :: outer)).1 = lv.first + k % len) ∧
    seqRun (lv.left * len) (lv.first, lv :: outer) = ((lv.last + 1) % 2048, outer))

/-- SRAM accesses of a tile with nothing else under way: a VLD's lanes are the bytes of its lines and land two cc after the
read, a store or a received word writes exactly its lines, and an XSEND fills its outbox entry (R31, R38, R40, R45, R49, R50).
Lines without error patterns. -/
def Obligations.SramAccessesMoveTheirLines : Prop :=
  (∀ (s : State) (t : TileId) (u n r : Nat), (∀ w, tget (fun _ => 0) s.flaw w = 0) → 1 ≤ n → n ≤ 16 → r < 32 →
    (getTile s t).only [((getTile s t).cc + 1, .rdV u n r none ((getTile s t).cc + 3))] →
    (∀ l, l < 256 → lane (vreg (getTile (ccs s t 3) t) r) l =
      if l < 16 * n then BitVec.ofNat 32 (memRead s (sramAddr t u + 4 * l) 4) else lane (vreg (getTile s t) r) l) ∧
    (∀ q, q < 32 → q ≠ r → vreg (getTile (ccs s t 3) t) q = vreg (getTile s t) q) ∧
    (∀ a, memByte (ccs s t 3) a = memByte s a)) ∧
  (∀ (s : State) (t : TileId) (u win : Nat) (e : Nat) (ds : List (BitVec 512)), 1 ≤ ds.length → ds.length ≤ 16 →
    (getTile s t).only [((getTile s t).cc + 1, .wr u ds e win)] →
    (∀ i, i < 64 * ds.length → memByte (ccs s t 2) (sramAddr t u + i) =
      BitVec.ofNat 8 ((ds.getD (i / 64) 0).toNat >>> (8 * (i % 64)))) ∧
    (∀ a, a < sramAddr t u ∨ sramAddr t u + 64 * ds.length ≤ a → memByte (ccs s t 2) a = memByte s a) ∧
    (∀ r, vreg (getTile (ccs s t 2) t) r = vreg (getTile s t) r)) ∧
  -- XRECV commits the word of its entry and frees it
  (∀ (s : State) (t : TileId) (u e win : Nat) (w : BoxWord),
    (getTile s t).only [((getTile s t).cc + 1, .wrIn u e win)] → boxGet (getTile s t).inbox e = some w →
    (∀ i, i < 64 → memByte (ccs s t 2) (sramAddr t u + i) = BitVec.ofNat 8 (w.word.toNat >>> (8 * i))) ∧
    (∀ a, a < sramAddr t u ∨ sramAddr t u + 64 ≤ a → memByte (ccs s t 2) a = memByte s a) ∧
    boxGet (getTile (ccs s t 2) t).inbox e = none) ∧
  -- XSEND places the line in its outbox entry, tagged with its channel
  (∀ (s : State) (t : TileId) (u e ch : Nat), (∀ w, tget (fun _ => 0) s.flaw w = 0) →
    (getTile s t).only [((getTile s t).cc + 1, .rdOut u e ch)] → boxGet (getTile s t).outbox e = none →
    (boxGet (getTile (ccs s t 2) t).outbox e).map (fun b => (b.word, b.chan, b.ready)) =
      some (BitVec.ofNat 512 (memRead s (sramAddr t u) 64), ch, captureAt (ccs s t 1) t + XO) ∧
    (∀ a, memByte (ccs s t 2) a = memByte s a))

/-- The array's integer sums are exact and saturate, and set ISAT, at the ends of INT32 (R44); the array's other formats add
in the fixed order of R63 to the old row, or to nothing with ACCZ. -/
def Obligations.ArrayRowSums : Prop :=
  (∀ (m : MmaRow) (a sc : BitVec 512) (c : W32) (n : Nat) (sum : Int), m.fmt = 0x2 →
    sum = (List.range 64).foldl (fun (acc : Int) k =>
      acc + (BitVec.ofNat 8 (bitsAt a.toNat (8 * k) 8)).toInt * (BitVec.ofNat 8 (wElem m.buf m.fmt k n)).toInt)
      (if m.accz then 0 else c.toInt) →
    (-(2 ^ 31) ≤ sum → sum < 2 ^ 31 → (mmaLane m a sc c n).1.toInt = sum ∧ (mmaLane m a sc c n).2 = false) ∧
    (2 ^ 31 ≤ sum → (mmaLane m a sc c n).1.toInt = 2 ^ 31 - 1 ∧ (mmaLane m a sc c n).2 = true) ∧
    (sum < -(2 ^ 31) → (mmaLane m a sc c n).1.toInt = -(2 ^ 31) ∧ (mmaLane m a sc c n).2 = true)) ∧
  (∀ (m : MmaRow) (a sc : BitVec 512) (c : W32) (n : Nat), m.fmt ≠ 0x2 →
    mmaLane m a sc c n = (dotF ((if m.accz then Num.fin false 0 0 else ofF32 c) ::
      (List.range (depthK m.fmt)).map (mmaTerm m a sc n)), false)) ∧
  -- a row of a tile with nothing else under way is final at the end of its cc, and not before
  (∀ (s : State) (t : TileId) (m : MmaRow) (a sc : BitVec 512), m.land = (getTile s t).cc + 1 → m.af < 2 → m.row < 256 →
    (getTile s t).only [(m.land, .accMma m a sc)] →
    accRow (getTile (ccs s t 1) t) m.af m.row = accRow (getTile s t) m.af m.row ∧
    (accRow (getTile (ccs s t 2) t) m.af m.row).lanes = (List.range 128).map (fun n =>
      (mmaLane m a sc ((accRow (getTile s t) m.af m.row).lanes.getD n 0) n).1) ∧
    ∀ f r, f < 2 → r < 256 → (f, r) ≠ (m.af, m.row) → accRow (getTile (ccs s t 2) t) f r = accRow (getTile s t) f r)

/-- The slots' own checks: each stops the tile with the fault of R57, the code of R80 or the bounds fault of R35 and R55, and
with no effect of the command (R30, R32 to R36, R39, R41, R44, R54, R67, R75). -/
def Obligations.SlotChecksFault : Prop :=
  -- nonzero reserved bits and reserved or out-of-range codes: EXEC 0x00D
  (∀ t s s1 (r : BitVec 26), CtlOpens s t s1 → r ≠ 0 →
    exec (.nop t r) s = .next (tileFault s1 t 1 0x200D 0 0) ∧ exec (.halt t r) s = .next (tileFault s1 t 1 0x200D 0 0)) ∧
  (∀ t s s1 (n : BitVec 16) (k : BitVec 8) (sc : BitVec 2), CtlOpens s t s1 →
    exec (.pinc t sc n 0) s = .next (tileFault s1 t 1 0x200D 0 0) ∧ exec (.pset t 3 n k) s = .next (tileFault s1 t 1 0x200D 0 0)) ∧
  (∀ t s s1 (n : BitVec 16) (k : BitVec 8), CtlOpens s t s1 → n.toNat < 4096 → ownsChip s1 t n.toNat = false →
    exec (.pset t 2 n k) s = .next (tileFault s1 t 1 0x3001 0 0)) ∧
  (∀ t s s1 (f : VecSlot), SlotOpens s t 1 s1 → 4 ≤ f.ty → exec (.vadd t f) s = .next (tileFault s1 t 3 0x200D 0 0)) ∧
  (∀ t s s1 (f : VecSlot), SlotOpens s t 1 s1 → f.ty = 0 → 5 ≤ f.rm → exec (.vmul t f) s = .next (tileFault s1 t 3 0x200D 0 0)) ∧
  (∀ t s s1 (f : VecSlot), SlotOpens s t 1 s1 → f.imm.toNat = 15 → exec (.vshf t f) s = .next (tileFault s1 t 3 0x200D 0 0)) ∧
  (∀ t s s1 (f : MemSlot), SlotOpens s t 2 s1 → 5 ≤ f.size → exec (.vld t f) s = .next (tileFault s1 t 4 0x200D 0 0)) ∧
  -- a fifth LOOP, a JMP inside a loop, a BLOAD of its own block
  (∀ t s s1 (n : BitVec 14) (len : BitVec 11), CtlOpens s t s1 → 4 ≤ (getTile s1 t).loops.length →
    exec (.loop t n 0 len) s = .next (tileFault s1 t 1 0x200A 0 0)) ∧
  (∀ t s s1 (k : BitVec 11), CtlOpens s t s1 → (getTile s1 t).loops ≠ [] → exec (.jmp t 0 k) s = .next (tileFault s1 t 1 0x200D 0 0)) ∧
  (∀ t s s1 (b : BitVec 6) (a : BitVec 15), CtlOpens s t s1 → (getTile s1 t).cur / 32 = b.toNat →
    exec (.bload t b 0 a) s = .next (tileFault s1 t 1 0x200B 0 0)) ∧
  -- an address of 2^19 units or more, and a misaligned one
  (∀ t s s1 (f : MemSlot), SlotOpens s t 2 s1 → f.size = 0 → 2 ^ 19 ≤ effAddr (getTile s1 t) f.ad f.off →
    exec (.vst t f) s = .next (tileFault s1 t 4 0x3001 0 0)) ∧
  (∀ t s s1 (f : MemSlot), SlotOpens s t 2 s1 → f.size = 4 → effAddr (getTile s1 t) f.ad f.off % 16 ≠ 0 →
    effAddr (getTile s1 t) f.ad f.off < 2 ^ 19 → exec (.mzero t f) s = .next (tileFault s1 t 4 0x200D 0 0)) ∧
  -- busy engines, a buffer in use, a format that does not match
  (∀ t s s1 (f : VecSlot), SlotOpens s t 1 s1 → (getTile s1 t).cc < (getTile s1 t).trEnd →
    exec (.vexp2 t f) s = .next (tileFault s1 t 3 0x2006 0 0)) ∧
  (∀ t s s1 (f : MeshSlot), SlotOpens s t 3 s1 → f.rsv = 0 → effAddr (getTile s1 t) f.ad f.off + f.len.toNat < 2 ^ 19 →
    (getTile s1 t).cc < (getTile s1 t).sendEnd → exec (.xsend t f) s = .next (tileFault s1 t 5 0x2006 0 0)) ∧
  (∀ t s s1 (f : MatSlot), SlotOpens s t 0 s1 → f.fmt = 0x0 → f.accrow.toNat + f.rep.toNat ≤ 255 →
    effAddr (getTile s1 t) f.ad f.off + f.rep.toNat < 2 ^ 19 →
    ((getTile s1 t).cc < (getTile s1 t).mmaEnd → exec (.mma t f) s = .next (tileFault s1 t 2 0x2006 0 0)) ∧
    ((getTile s1 t).mmaEnd ≤ (getTile s1 t).cc → (getTile s1 t).drainEnd ≤ (getTile s1 t).cc →
      2 ≤ (wbuf (getTile s1 t) f.wb.toNat).fmt → exec (.mma t f) s = .next (tileFault s1 t 2 0x2008 0 0))) ∧
  (∀ t s s1 (f : MatSlot), SlotOpens s t 0 s1 → f.fmt = 0x0 → effAddr (getTile s1 t) f.ad f.off % 8 = 0 →
    effAddr (getTile s1 t) f.ad f.off + 128 ≤ 2 ^ 19 → (getTile s1 t).cc < (getTile s1 t).mmaEnd →
    (getTile s1 t).mmaWb = f.wb.toNat → exec (.mwl t f) s = .next (tileFault s1 t 2 0x2007 0 0)) ∧
  -- an INT64 sum out of range, a lane VAENC does not admit: the lowest of the mask
  (∀ t s s1 (f : VecSlot) (l : Nat), SlotOpens s t 1 s1 → f.ty = 3 →
    f.vd.getLsbD 0 = false → f.va.getLsbD 0 = false → f.vb.getLsbD 0 = false → l < 256 →
    (qreg (getTile s1 t) f.msk.toNat).getLsbD l = true →
    2 ^ 63 ≤ (pairLane (getTile s1 t) f.va.toNat l).toInt + (pairLane (getTile s1 t) f.vb.toNat l).toInt →
    exec (.vadd t f) s = .next (tileFault s1 t 3 0x200F 0 0)) ∧
  (∀ t s s1 (f : VecSlot) (e : Int) (l : Nat), SlotOpens s t 1 s1 → f.vd.getLsbD 0 = false →
    e = (lane (vreg (getTile s1 t) f.vb.toNat) 0).toInt → e ≠ 32767 → l < 256 →
    (qreg (getTile s1 t) f.msk.toNat).getLsbD l = true → encBad e (lane (vreg (getTile s1 t) f.va.toNat) l) = true →
    (∀ k, k < l → (qreg (getTile s1 t) f.msk.toNat).getLsbD k = true → encBad e (lane (vreg (getTile s1 t) f.va.toNat) k) = false) →
    exec (.vaenc t f) s = .next (tileFault s1 t 3 0x200E
      (l + (BitVec.ofInt 16 (alloyExp (lane (vreg (getTile s1 t) f.va.toNat) l))).toNat * 2 ^ 16) 0))

/-- A tile fault: the tile issues nothing more, what its open bundle scheduled, changed or sent to the sync network is taken
back and the bundle counts as not issued, while what was scheduled before stays; its context's plan is FAULTED with the
earliest fault tick (capture tick plus XO), and no other tile, no other context, no register and no byte of memory changes
(R47, R56, R57, R200, R244, R282). -/
def Obligations.TileFaultStopsItsContext : Prop :=
  ∀ (s : State) (t : TileId) (slot : Nat) (code : BitVec 16) (d0 d1 : Nat) (c : CtxId),
    (getTile s t).st ≠ .faulted → (getTile s t).own = some c → purging (getCtx s c) = false →
    let x := getTile s t
    let u := tileFault s t slot code d0 d1
    (getTile u t).st = .faulted ∧ canIssue u t = false ∧
    (getTile u t).issued = (if x.isOpen then x.issued - 1 else x.issued) ∧
    (getTile u t).bidx = (if x.isOpen then x.cur else x.bidx) ∧ (getTile u t).loops = (if x.isOpen then x.undo.loops else x.loops) ∧
    (getTile u t).draw = (if x.isOpen then x.undo.draw else x.draw) ∧ (getTile u t).acts = x.acts ∧
    (getTile u t).made = (if x.isOpen then [] else x.made) ∧
    u.syncNet = (match x.sent with | some i => if x.isOpen then s.syncNet.erase i else s.syncNet | none => s.syncNet) ∧
    (getTile u t).v = x.v ∧ (getTile u t).punty = x.punty ∧ (getTile u t).inbox = x.inbox ∧ (getTile u t).outbox = x.outbox ∧
    (getCtx u c).plan = .faulted ∧
    (getCtx u c).faultTick = some (match (getCtx s c).faultTick with | some g => min (captureAt s t + XO) g | none => captureAt s t + XO) ∧
    (∀ k, k ≠ (t : Nat) → getTile u k = getTile s k) ∧ (∀ k, k ≠ (c : Nat) → getCtx u k = getCtx s k) ∧
    u.regs = s.regs ∧ ∀ a, memByte u a = memByte s a

/-- Frame of the slots that use no memory: an engine or control slot command that completes changes its own tile only. Every
register outside tiles, every other tile, every context and every byte of memory stays as it was when the bundle opened (R24,
R31, R40). -/
def Obligations.RegisterSlotsKeepTheRest : Prop :=
  (∀ (t : TileId) (f : VecSlot) (s s1 u : State) (c : Instr), SlotOpens s t 1 s1 → exec c s = .next u → (getTile u t).st ≠ .faulted →
    c ∈ [.vadd t f, .vsub t f, .vmul t f, .vfma t f, .vmax t f, .vmin t f, .vcmp t f, .vsel t f, .vcvt t f, .vlogic t f,
      .vshf t f, .vred t f, .vexp2 t f, .vlog2 t f, .vrcp t f, .vrsqrt t f, .vrng t f, .vamx t f, .vaenc t f, .vadec t f] →
    (∀ a, memByte u a = memByte s1 a) ∧ u.regs = s1.regs ∧ u.ctxs = s1.ctxs ∧ u.syncNet = s1.syncNet ∧ u.chip = s1.chip ∧
    (∀ k, k ≠ (t : Nat) → getTile u k = getTile s1 k) ∧
    (getTile u t).v = (getTile s1 t).v ∧ (getTile u t).acc = (getTile s1 t).acc ∧ (getTile u t).q = (getTile s1 t).q ∧
    (getTile u t).ad = (getTile s1 t).ad ∧ (getTile u t).punty = (getTile s1 t).punty ∧ (getTile u t).wb = (getTile s1 t).wb ∧
    (getTile u t).loops = (getTile s1 t).loops ∧ (getTile u t).inbox = (getTile s1 t).inbox ∧ (getTile u t).outbox = (getTile s1 t).outbox) ∧
  (∀ (t : TileId) (a : BitVec 3) (v : BitVec 20) (n : BitVec 10) (s s1 u : State) (c : Instr), CtlOpens s t s1 → exec c s = .next u →
    c ∈ [.nop t 0, .aadd t a 0 v, .aset t a 0 v, .seed t n 0, .halt t 0] →
    (∀ a, memByte u a = memByte s1 a) ∧ u.regs = s1.regs ∧ u.ctxs = s1.ctxs ∧ u.syncNet = s1.syncNet ∧ u.chip = s1.chip ∧
    (∀ k, k ≠ (t : Nat) → getTile u k = getTile s1 k) ∧
    (getTile u t).v = (getTile s1 t).v ∧ (getTile u t).acc = (getTile s1 t).acc ∧ (getTile u t).q = (getTile s1 t).q ∧
    (getTile u t).ad = (getTile s1 t).ad ∧ (getTile u t).punty = (getTile s1 t).punty ∧ (getTile u t).loops = (getTile s1 t).loops)

/-! ### Gather engines and LPDDR (chapter 4) -/

/-- A gather engine starts its descriptors, opens its blocks, stages its lines and finishes (R88, R94 to R98, R101): the
commands DESCRIPTOR_START, BLOCK_ACCESS, LINE_ENTERS_STAGING and DESCRIPTOR_FINISH. -/
def Obligations.GatherEnginesFollowTheirLists : Prop :=
  -- a descriptor starts at step start + START; the one before it must have finished, else MEM 0x007
  (∀ (g : EngId) s (c : CtxId) d, (getEng s g).own = some c → meshRuns (getCtx s c) = true → (getEng s g).st ≠ .faulted →
    descAt (getEng s g) (getEng s g).upNext = some d → (getCtx s c).stepStart + d.start ≤ s.now →
    ((getEng s g).active = false → exec (.descriptorStart g) s = .next (setEng s g { getEng s g with
      idx := (getEng s g).upNext, upNext := (getEng s g).upNext + 1, active := true
      row := 0, col := 0, sent := 0, lastEnd := s.now, st := .waitSlot })) ∧
    ((getEng s g).active = true → purging (getCtx s c) = false → ∃ u, exec (.descriptorStart g) s = .next u ∧
      (getEng u g).st = .faulted ∧ (getCtx u c).plan = .faulted ∧ u.mem = s.mem ∧ u.regs = s.regs)) ∧
  -- a block read: its lines are on their way to staging, each due at its own tick
  (∀ (g : EngId) s (c : CtxId) d ls row col, wantsSlot s g (32 * (s.now / 32)) = true → (getEng s g).own = some c →
    nextBlock (getEng s g) = some (d, ls, row, col) → (∀ n, n ∈ ls → inRegions s c (64 * n) 64 = true) →
    (d.op = 1 → ∃ u, exec (.blockAccess g) s = .next u ∧
      getEng u g = { getEng s g with
        row := row, col := col, slot := s.now / 32 + 1, blocks := (getEng s g).blocks + 1
        st := .transferring, lastEnd := 32 * (s.now / 32) + 128
        flight := (getEng s g).flight ++ ls.map (readLine s d (32 * (s.now / 32))) } ∧
      u.mem = s.mem ∧ u.poison = s.poison ∧ u.regs = s.regs ∧ u.ctxs = s.ctxs) ∧
    -- a block written from staging: each named line takes the oldest line of the channel, its poison with it
    (d.op = 2 → ls.length ≤ (stagedFor (getEng s g) d.chan (32 * (s.now / 32)) ls.length).length →
      ∃ u, exec (.blockAccess g) s = .next u ∧
      (∀ (i n : Nat) (l : GLine), ls[i]? = some n → (stagedFor (getEng s g) d.chan (32 * (s.now / 32)) ls.length)[i]? = some l →
        memRead u (64 * n) 64 = l.word.toNat ∧ linePoisoned u n = l.poison) ∧
      (∀ a, (∀ n, n ∈ ls → a < 64 * n ∨ 64 * n + 64 ≤ a) → memByte u a = memByte s a) ∧
      (getEng u g).row = row ∧ (getEng u g).col = col ∧ (getEng u g).lastEnd = 32 * (s.now / 32) + 128 ∧
      u.regs = s.regs ∧ u.ctxs = s.ctxs) ∧
    -- lines missing: MEM 0x005, and the block is not written
    (d.op = 2 → (stagedFor (getEng s g) d.chan (32 * (s.now / 32)) ls.length).length < ls.length → purging (getCtx s c) = false →
      ∃ u, exec (.blockAccess g) s = .next u ∧ (getEng u g).st = .faulted ∧ (getCtx u c).plan = .faulted ∧ u.mem = s.mem) ∧
    -- a block filled with zero
    (d.op = 3 → ∃ u, exec (.blockAccess g) s = .next u ∧
      (∀ n, n ∈ ls → memRead u (64 * n) 64 = 0 ∧ linePoisoned u n = false) ∧
      (∀ a, (∀ n, n ∈ ls → a < 64 * n ∨ 64 * n + 64 ≤ a) → memByte u a = memByte s a) ∧
      (getEng u g).row = row ∧ (getEng u g).col = col ∧ (getEng u g).lastEnd = 32 * (s.now / 32) + 128 ∧
      u.regs = s.regs ∧ u.ctxs = s.ctxs)) ∧
  -- raw line r crosses the engine boundary at t + 48 + 4 r; check lines stand before data lines 0 and 15
  (∀ s d t n, (readLine s d t n).tick = t + 48 + 4 * (if n % 30 < 15 then n % 30 + 1 else n % 30 + 2) ∧
    (readLine s d t n).line = n ∧ (readLine s d t n).chan = d.chan) ∧
  -- a clean line enters staging; into a full buffer it is not stored (MEM 0x006); a poisoned line raises MEM 0x003
  (∀ (g : EngId) s (c : CtxId) (l : GLine), (getEng s g).flight.find? (fun l => decide (l.tick ≤ s.now)) = some l →
    (getEng s g).own = some c →
    (l.poison = false → l.bad = false → l.fixed = [] → (getEng s g).staging.length < 128 → ∃ u, exec (.lineEntersStaging g) s = .next u ∧
      getEng u g = { getEng s g with
        flight := (getEng s g).flight.erase l, staging := (getEng s g).staging ++ [l] } ∧
      u = { s with engines := u.engines, ppr := u.ppr }) ∧
    (l.poison = false → l.bad = false → l.fixed = [] → 128 ≤ (getEng s g).staging.length → purging (getCtx s c) = false →
      ∃ u, exec (.lineEntersStaging g) s = .next u ∧ (getEng u g).staging = (getEng s g).staging ∧
        (getEng u g).st = .faulted ∧ (getCtx u c).plan = .faulted ∧ u.mem = s.mem ∧ u.regs = s.regs) ∧
    (l.poison = true → (getEng s g).staging.length < 128 → purging (getCtx s c) = false →
      ∃ u, exec (.lineEntersStaging g) s = .next u ∧ (getEng u g).staging = (getEng s g).staging ++ [l] ∧
        (getEng u g).st = .faulted ∧ (getCtx u c).plan = .faulted ∧ u.mem = s.mem ∧
        rd u (rMEM_LP_ERR (groupOf (chanOf (64 * l.line)))) fMEM_LP_ERR_UE_PLAN =
          min (rd s (rMEM_LP_ERR (groupOf (chanOf (64 * l.line)))) fMEM_LP_ERR_UE_PLAN + 1) (2 ^ fwid fMEM_LP_ERR_UE_PLAN - 1)) ∧
    -- a line with a corrected symbol enters as it was corrected, and its group and row count the correction (R101, R102)
    (l.poison = false → l.bad = false → l.fixed ≠ [] → (getEng s g).staging.length < 128 →
      ∃ u, exec (.lineEntersStaging g) s = .next u ∧
        getEng u g = { getEng s g with
          flight := (getEng s g).flight.erase l, staging := (getEng s g).staging ++ [l] } ∧
        u.mem = s.mem ∧ u.ctxs = s.ctxs ∧
        tget (fun _ => 0) u.rowErr (l.line / 30) = tget (fun _ => 0) s.rowErr (l.line / 30) + 1 ∧
        rd u (rMEM_LP_ERR (groupOf (chanOf (64 * l.line)))) fMEM_LP_ERR_CE =
          min (rd s (rMEM_LP_ERR (groupOf (chanOf (64 * l.line)))) fMEM_LP_ERR_CE + 1) (2 ^ fwid fMEM_LP_ERR_CE - 1))) ∧
  -- a finished descriptor: its completion increment enters the sync network at the next tick and is applied 8 ticks later
  (∀ (g : EngId) s (c : CtxId) d r, (getEng s g).own = some c → descAt (getEng s g) (getEng s g).idx = some d →
    (getEng s g).active = true → d.rows < (getEng s g).row → (getEng s g).lastEnd ≤ s.now →
    (d.op = 1 → descLines d ≤ (getEng s g).sent) → (getEng s g).st ≠ .faulted → (getCtx s c).stopped = false →
    d.sc ≠ 0 → ctrRefOf d.sc d.target 0 = some r →
    ∃ u, exec (.descriptorFinish g) s = .next u ∧ u = { s with engines := u.engines, syncNet := u.syncNet } ∧
      getEng u g = { getEng s g with
        active := false, st := if (descAt (getEng s g) (getEng s g).upNext).isSome then .waitStart else .ended } ∧
      u.syncNet = s.syncNet ++ [{ due := (getEng s g).lastEnd + 1 + 8, ctr := r, op := .inc d.amount }])

/-- The blocks an engine opens for a descriptor name each of its lines once, row by row and in ascending order within a row
(R94, R95), whatever the number of blocks. -/
def Obligations.BlocksCoverTheDescriptor : Prop :=
  (∀ (d : Desc) (k : Nat), (d.rows + 1) * (d.rlen + 1) ≤ k →
    blockRun d k 0 0 = (List.range (d.rows + 1)).flatMap fun r => (List.range (d.rlen + 1)).map fun c => d.base + r * d.stride + c) ∧
  -- a contiguous stream takes all that is left of a block at once
  (∀ (d : Desc) (c : Nat), d.rows = 0 → c ≤ d.rlen →
    (blockLines d 30 0 c).1.length = min (30 - (d.base + c) % 30) (d.rlen + 1 - c))

/-- In every slot the channels that can be started are owned by different engines, and no two engines own one channel (R88). -/
def Obligations.SlotOwnershipHasNoCollisions : Prop :=
  (∀ (g h : EngId) (s : Nat), ownChan g s = ownChan h s → g = h) ∧
  (∀ (c : ChanId) (s : Nat), startable c s = true → ∃ g : EngId, ownChan g s = c.val ∧ ownEng c s = g.val) ∧
  (∀ (g : EngId) (s : Nat), startable (ownChan g s) s = true ∧ ownChan g (s + 1) = (ownChan g s + 1) % 128)

/-- Refresh windows, the controllers' own refresh, and scrubbing (R90 to R93, R100 to R102): REFRESH_WINDOW,
CONTROLLER_REFRESH, SRAM_SCRUB and PATROL_SCRUB. -/
def Obligations.RefreshAndScrub : Prop :=
  -- a refresh inside a window of the reservation in force, of a device that reports no faster rate
  (∀ (ch : ChanId) (gap : BitVec 16) s, s.refreshP ≠ [] → enginesHeld s = true →
    inRefresh s ch (((s.now / 32 + 128 - ch.val % 4) % 128 / 4)) = true → 2048 ≤ gap.toNat →
    exec (.refreshWindow ch gap) s = .next { s with
      refWin := tset (fun _ => 0) s.refWin ch ((tget (fun _ => 0) s.refWin ch + 1) % 64)
      hot := tset (fun _ => false) s.hot ch false }) ∧
  -- a device that needs more than one refresh in 2,048 ticks: its group is hot, and MEM 0x004 stops the plans with an engine
  (∀ (ch : ChanId) (gap : BitVec 16) s, s.refreshP ≠ [] → enginesHeld s = true →
    inRefresh s ch (((s.now / 32 + 128 - ch.val % 4) % 128 / 4)) = true → gap.toNat < 2048 → tget (fun _ => false) s.hot ch = false →
    ∃ u, exec (.refreshWindow ch gap) s = .next u ∧ groupHot u (groupOf ch) = true ∧
      (∀ c : CtxId, holdsEngines (getCtx s c) = true → purging (getCtx s c) = false → (getCtx u c).plan = .faulted) ∧
      (∀ g t, groupOf (ownChan g (gSlot t)) = groupOf ch → wantsSlot u g t = false) ∧ u.mem = s.mem) ∧
  -- a controller's own refresh where no plan holds an engine
  (∀ (ch : ChanId) (gap : BitVec 16) s, enginesHeld s = false → 2048 ≤ gap.toNat →
    exec (.controllerRefresh ch gap) s = .next { s with hot := tset (fun _ => false) s.hot ch false }) ∧
  -- a pass over a tile no plan holds, and over the next block of a group: nothing flawed, nothing changed
  (∀ (t : TileId) s, (∀ c : CtxId, holdsPlan (getCtx s c) = true → (planTiles (getCtx s c)).getLsbD t = false) →
    s.flaw = [] → exec (.sramScrub t) s = .next s) ∧
  -- a line of a tile no plan holds with one flawed code word that holds one wrong symbol is written back and counted
  (∀ (t : TileId) s w e j x, (∀ c : CtxId, holdsPlan (getCtx s c) = true → (planTiles (getCtx s c)).getLsbD t = false) →
    s.flaw = [(w, e)] → sramAddr t 0 ≤ 32 * w → 32 * w < sramAddr t 0 + 2 ^ 25 → eccRead e = (.corrected j, x) →
    ∃ u, exec (.sramScrub t) s = .next u ∧ u.flaw = [] ∧
      memRead u (32 * w) 32 = (memRead s (32 * w) 32 ^^^ x) % 2 ^ 256 ∧
      (∀ a, a < 32 * w ∨ 32 * w + 32 ≤ a → memByte u a = memByte s a) ∧
      rd u (rTIL_SRAM_CE (physOf s t)) fTIL_SRAM_CE_COUNT =
        min (rd s (rTIL_SRAM_CE (physOf s t)) fTIL_SRAM_CE_COUNT + 1) (2 ^ fwid fTIL_SRAM_CE_COUNT - 1)) ∧
  (∀ (m : GroupId) s, enginesHeld s = false → rd s rMEM_SCRUB_CTL fMEM_SCRUB_CTL_ENABLE = 1 →
    chanFree s (32 * m.val + tget (fun _ => 0) s.scrubAt m % 32) = true → s.flaw = [] → s.rowErr = [] →
    exec (.patrolScrub m) s = .next { s with
      scrubAt := tset (fun _ => 0) s.scrubAt m ((tget (fun _ => 0) s.scrubAt m + 1) % 2 ^ 27)
      lpUsed := tset (fun _ => 0) s.lpUsed (32 * m.val + tget (fun _ => 0) s.scrubAt m % 32) (s.now / 32 + 1) })

/-- Open-class accesses use what the plan leaves free (R16, R46, R48, R89, R185, R238, R305): OPEN_SRAM_ACCESS a line whose memory
slot, bank and mesh port are idle in the cc, OPEN_LPDDR_ACCESS a period that no plan and no refresh uses. The oldest entry that
waits for the tile, or the controller group, is served. -/
def Obligations.OpenAccessesUseFreeSlots : Prop :=
  -- a line, or a period, for a stored request
  (∀ (t : TileId) s i is n w, rd s (rCLK_ZONE_CTL (zoneOf t)) fCLK_ZONE_CTL_STOPPED = 0 → zoneDeep s (zoneOf t) = false →
    s.inb = i :: is → i.needs.any (Need.onTile t) = true → turnOf s (Need.onTile t) = some (.inb, i.needs) →
    i.needs.find? (sramServable s t) = some (.sram n w) →
    exec (.openSramAccess t) s = .next { markOpen s t (n % 2 ^ 19) w with inb := { i with needs := i.needs.erase (.sram n w) } :: is }) ∧
  (∀ (ch : ChanId) s i is, chanFree s ch = true → s.inb = i :: is → turnOf s (Need.onGroup (groupOf ch)) = some (.inb, i.needs) →
    Need.period ch ∈ i.needs →
    exec (.openLpddrAccess ch) s = .next { s with
      inb := { i with needs := i.needs.erase (.period ch) } :: is
      lpUsed := tset (fun _ => 0) s.lpUsed ch (s.now / 32 + 1)
      lpOpen := tset (fun _ => 0) s.lpOpen (groupOf ch) (tget (fun _ => 0) s.lpOpen (groupOf ch) + 1) }) ∧
  -- whose turn it is: of stored requests, returned data and host accesses that want the same, the one that came first
  (∀ s (p : Need → Bool) (i : Inb) (r : RespW) (a : HostAcc), s.inb = [i] → s.respW = [r] → s.hostAcc = [a] →
    i.needs.any p = true → r.needs.any p = true → a.needs.any p = true →
    (i.at_ ≤ r.at_ → i.at_ ≤ a.at_ → turnOf s p = some (.inb, i.needs)) ∧
    (r.at_ < i.at_ → r.at_ ≤ a.at_ → turnOf s p = some (.resp, r.needs)) ∧
    (a.at_ < i.at_ → a.at_ < r.at_ → turnOf s p = some (.host, a.needs))) ∧
  -- a line is served only where the cc leaves its bank, the line limit and the port free
  (∀ s (t u : Nat) (w : Bool), sramFree s t u w = true → (getTile s t).memBusy = false ∧
    (∀ x v, x ∈ actsNow (getTile s t) → v ∈ (Act.lines x).1 ∨ v ∈ (Act.lines x).2 → bankOf v ≠ bankOf u) ∧
    (∀ v, v ∈ (getTile s t).openRd ∨ v ∈ (getTile s t).openWr → bankOf v ≠ bankOf u) ∧
    (w = true → portInBusy s t = false) ∧ (w = false → portOutBusy s t = false)) ∧
  -- the last line of returned data: the buffer holds the words, and the request is no longer outstanding
  (∀ (t : TileId) s r n w, rd s (rCLK_ZONE_CTL (zoneOf t)) fCLK_ZONE_CTL_STOPPED = 0 → zoneDeep s (zoneOf t) = false →
    s.inb = [] → s.hostAcc = [] → s.respW = [r] → r.needs = [.sram n w] → sramServable s t (.sram n w) = true →
    (r.addr + 8 * r.data.length ≤ tableAddr 0 ∨ tableAddr (2 ^ 36) ≤ r.addr) → (∀ o, o ∈ s.outst → o.rank < 65536) →
    ∃ u, exec (.openSramAccess t) s = .next u ∧ u.respW = [] ∧
      memRead u r.addr (8 * r.data.length) = r.data.foldr (fun w a => w.toNat + 2 ^ 64 * a) 0 ∧
      (∀ a, a < r.addr ∨ r.addr + 8 * r.data.length ≤ a → a < tableAddr 0 ∨ tableAddr (2 ^ 36) ≤ a → memByte u a = memByte s a) ∧
      (∀ o, o ∈ u.outst → o.key ≠ r.key)) ∧
  -- the last period of a BAR4 access: a write is in memory, a read completes with its bytes where no line is flawed
  (∀ (ch : ChanId) s a, chanFree s ch = true → s.inb = [] → s.respW = [] → s.hostAcc = [a] → a.needs = [.period ch] →
    (∀ v, a.who = .barWrite v → ∃ u, exec (.openLpddrAccess ch) s = .next u ∧ u.hostAcc = [] ∧
      memRead u a.addr a.len = v.toNat % 256 ^ a.len ∧ (∀ b, b < a.addr ∨ a.addr + a.len ≤ b → memByte u b = memByte s b) ∧ u.outs = s.outs) ∧
    (∀ fn tag, a.who = .barRead fn tag → NoFlaws s → ∃ u, exec (.openLpddrAccess ch) s = .next u ∧ u.hostAcc = [] ∧
      u.outs = .completion fn tag 0 (BitVec.ofNat 64 (memRead s a.addr a.len)) :: s.outs ∧ u.mem = s.mem)) ∧
  -- a channel the plan's engine wants, or in a refresh window, is not given to an open access, nor a tile whose memory slot is taken
  (∀ (ch : ChanId) s, chanFree s ch = false → exec (.openLpddrAccess ch) s = .next s) ∧
  (∀ (t : TileId) s, (getTile s t).memBusy = true → exec (.openSramAccess t) s = .next s)

/-- Memory reads back what was written, and only there (R84, R385). A write of whole code words leaves them with no error. -/
def Obligations.MemoryReadsBackWhatWasWritten : Prop :=
  (∀ s a n v, memRead (memWrite s a n v) a n = v % 256 ^ n) ∧
  (∀ s a n v b, b < a ∨ a + n ≤ b → memByte (memWrite s a n v) b = memByte s b) ∧
  (∀ s a n, memRead (memWipe s a n) a n = 0) ∧
  (∀ s a n b, b < a ∨ a + n ≤ b → memByte (memWipe s a n) b = memByte s b) ∧
  (∀ s n w, lineRead (lineWrite s (64 * n) w) (64 * n) = (w, [], false))

/-! ### The sync network, the tile mesh and planned traffic (chapters 2, 5 and 10) -/

/-- SYNC_INCREMENT_APPLIED: what is due reaches its counters, all operations of one counter and tick together, and nothing
else does (R52, R53, R200). -/
def Obligations.SyncIncrementsReachTheirCounters : Prop :=
  ∀ s, ∃ u, exec .syncIncrementApplied s = .next u ∧ u = { s with syncNet := u.syncNet, chip := u.chip, tiles := u.tiles } ∧
    -- what is not due stays
    u.syncNet = s.syncNet.filter (fun i => decide (s.now < i.due)) ∧
    -- a chip-wide counter takes the operations of one tick together
    (∀ n t, t ≤ s.now → (∃ i, i ∈ s.syncNet ∧ i.ctr = .chip n ∧ i.due = t) →
      (∀ i, i ∈ s.syncNet → i.ctr = .chip n → i.due ≤ s.now → i.due = t) →
      chipNow u n = punApply (chipNow s n) (s.syncNet.filterMap fun i => if i.ctr = .chip n ∧ i.due = t then some i.op else none)) ∧
    -- a chip-wide counter with nothing due keeps its value
    (∀ n, (∀ i, i ∈ s.syncNet → i.ctr = .chip n → s.now < i.due) → chipNow u n = chipNow s n) ∧
    -- a local counter's increment is on its way to its tile's zone, which sees it XI ticks later
    (∀ t : TileId, getTile u t = { getTile s t with
      incs := (getTile s t).incs ++ s.syncNet.filterMap (fun i => match i.ctr with
        | .tile v c => if v = t ∧ i.due ≤ s.now then some (i.due + XI, c, i.op) else none
        | .chip _ => none) })

/-- MESH_WORD_DEPARTURE: word w of a channel leaves at FIRST + (w / BURST) x PERIOD + (w mod BURST) from step start and not before;
an absent word raises EXEC 0x003, or MEM 0x005 at a gather engine (R95, R96, R122, R202, R238, R240). -/
def Obligations.MeshWordsLeaveOnSchedule : Prop :=
  -- the schedule itself
  (∀ e : Chan, ∀ a b, b ≤ e.burst → wordDeparts e (a * (e.burst + 1) + b) = e.first + a * e.period + b) ∧
  -- a word of a tile's outbox
  (∀ (ep : BitVec 10) (ch : BitVec 9) s (c : CtxId) p e w t, ep.toNat < 0x100 → (getTile s ep.toNat).own = some c →
    (getCtx s c).image = some p → chanAt p ep.toNat ch.toNat = some e → meshRuns (getCtx s c) = true → e.dkind ≠ 0 →
    w = wordIdx s c ep.toNat ch.toNat → w < (e.burst + 1) * e.count → t = (getCtx s c).stepStart + wordDeparts e w →
    (∀ n b, t ≤ s.now → oldestOut (getTile s ep.toNat) ch.toNat t = some (n, b) →
      ∃ u, exec (.meshWordDeparture ep ch) s = .next u ∧ u = { s with flight := u.flight, tiles := u.tiles, chanW := u.chanW } ∧
        u.flight = s.flight ++ [{ arrive := t + MESH, src := ep.toNat, chan := ch.toNat, index := w, ctx := c, word := b.word, poison := b.poison }] ∧
        wordIdx u c ep.toNat ch.toNat = w + 1 ∧ (∀ k, k ≠ ep.toNat → getTile u k = getTile s k) ∧
        getTile u ep.toNat = { takeOut (getTile s ep.toNat) s.now n with portOut := s.now + 1 }) ∧
    (t ≤ s.now → oldestOut (getTile s ep.toNat) ch.toNat t = none →
      exec (.meshWordDeparture ep ch) s = .next (raise (setWordIdx s c ep.toNat ch.toNat (w + 1)) c (chanFault 0x2003 ep.toNat ch.toNat w 0))) ∧
    (s.now < t → exec (.meshWordDeparture ep ch) s = .next s)) ∧
  -- the entry it left is free, and where no word waits for room in the crossing buffer nothing else of the tile changed
  (∀ (x : Tile) (now n : Nat), (∀ k v, (k, some v) ∈ (boxSet x.outbox n none) → k ∈ x.xout.erase n) →
    takeOut x now n = { x with outbox := boxSet x.outbox n none, xout := x.xout.erase n }) ∧
  -- a staged line of a gather engine: the next line of its descriptor, and none other
  (∀ (g : EngId) (ch : BitVec 9) s (c : CtxId) p e w t, (getEng s g).own = some c → (getCtx s c).image = some p →
    chanAt p (0x100 + g.val) ch.toNat = some e → meshRuns (getCtx s c) = true → e.dkind ≠ 0 →
    w = wordIdx s c (0x100 + g.val) ch.toNat → w < (e.burst + 1) * e.count → t = (getCtx s c).stepStart + wordDeparts e w →
    (∀ ln, t ≤ s.now → nextLine (getEng s g) ch.toNat t = some ln →
      ∃ u, exec (.meshWordDeparture (BitVec.ofNat 10 (0x100 + g.val)) ch) s = .next u ∧
        u = { s with flight := u.flight, engines := u.engines, chanW := u.chanW } ∧
        u.flight = s.flight ++ [{ arrive := t + MESH, src := 0x100 + g.val, chan := ch.toNat, index := w, ctx := c, word := ln.word, poison := ln.poison }] ∧
        lineDue (getEng s g) ch.toNat = some ln.line ∧ wordIdx u c (0x100 + g.val) ch.toNat = w + 1 ∧
        getEng u g = { getEng s g with staging := (getEng s g).staging.erase ln, sent := (getEng s g).sent + 1, lastEnd := t }) ∧
    (t ≤ s.now → nextLine (getEng s g) ch.toNat t = none →
      exec (.meshWordDeparture (BitVec.ofNat 10 (0x100 + g.val)) ch) s =
        .next (raise (modEng (setWordIdx s c (0x100 + g.val) ch.toNat (w + 1)) g fun y => { y with st := .faulted }) c
          { code := 0x3005, engine := 7, unit := g.val, offset := (getEng s g).idx, d0 := 0, d1 := 0, d2 := 0 })) ∧
    (s.now < t → exec (.meshWordDeparture (BitVec.ofNat 10 (0x100 + g.val)) ch) s = .next s)) ∧
  -- a word handed over by a link's delivery endpoint, at its tick
  (∀ (l : LinkId) (ch : BitVec 9) s,
    (∀ d, s.deliv.find? (fun d => d.link = (l : Nat) && d.chan = ch.toNat && decide (d.tick ≤ s.now) && !(getCtx s d.ctx).stopped) = some d →
      ∃ u, exec (.meshWordDeparture (BitVec.ofNat 10 (0x200 + l.val)) ch) s = .next u ∧
        u = { s with flight := u.flight, deliv := s.deliv.erase d, chanW := u.chanW } ∧
        u.flight = s.flight ++ [{ arrive := d.tick + MESH, src := 0x200 + l.val, chan := ch.toNat
                                  index := wordIdx s d.ctx (0x200 + l.val) ch.toNat, ctx := d.ctx, word := d.word, poison := false }]) ∧
    (s.deliv.find? (fun d => d.link = (l : Nat) && d.chan = ch.toNat && decide (d.tick ≤ s.now) && !(getCtx s d.ctx).stopped) = none →
      exec (.meshWordDeparture (BitVec.ofNat 10 (0x200 + l.val)) ch) s = .next s))

/-- MESH_WORD_ARRIVAL: the word goes to the tile inbox, assembly entry, staging buffer or request queue that its channel names, or
raises the fault of what cannot take it (R50, R96, R121, R174, R202, R238 to R240, R263). f is the oldest word of the channel that
has crossed the mesh. -/
def Obligations.MeshWordsReachTheirDestinations : Prop :=
  (∀ (ep : BitVec 10) (ch : BitVec 9) s, s.flight.find? (fun f => f.src = ep.toNat && f.chan = ch.toNat && decide (f.arrive ≤ s.now)) = none →
    exec (.meshWordArrival ep ch) s = .next s) ∧
  ∀ (ep : BitVec 10) (ch : BitVec 9) s f p e,
    s.flight.find? (fun f => f.src = ep.toNat && f.chan = ch.toNat && decide (f.arrive ≤ s.now)) = some f →
    (getCtx s f.ctx).image = some p → chanAt p f.src f.chan = some e →
    -- a tile inbox: entry BASE + w mod RING, seen by the zone XI ticks later
    (∀ k, e.dkind = 1 → k = (e.base + f.index % (e.ring + 1)) % 128 → (getTile s e.dest).xin.length < 64 →
      (boxGet (getTile s e.dest).inbox k = none → (∀ x, x ∈ (getTile s e.dest).xin → x.entry ≠ k) →
        tget (fun _ => 0) (getTile s e.dest).freedAt k ≤ f.arrive →
        exec (.meshWordArrival ep ch) s = .next (setTile { s with flight := s.flight.erase f } e.dest { getTile s e.dest with
          portIn := s.now + 1
          xin := (getTile s e.dest).xin ++ [{ seen := f.arrive + XI, entry := k, ctr := e.ctr, word := f.word, poison := f.poison }] })) ∧
      -- an entry still full, or freed later than the word came, raises EXEC 0x005
      ((boxGet (getTile s e.dest).inbox k).isSome = true ∨ (∃ x, x ∈ (getTile s e.dest).xin ∧ x.entry = k) ∨
          f.arrive < tget (fun _ => 0) (getTile s e.dest).freedAt k →
        exec (.meshWordArrival ep ch) s = .next (raise { s with flight := s.flight.erase f } f.ctx (chanFault 0x2005 f.src f.chan f.index 0)))) ∧
    -- a full crossing buffer raises EXEC 0x012
    (e.dkind = 1 → 64 ≤ (getTile s e.dest).xin.length → purging (getCtx s f.ctx) = false →
      ∃ u, exec (.meshWordArrival ep ch) s = .next u ∧ (getCtx u f.ctx).plan = .faulted ∧ u.tiles = s.tiles ∧ u.mem = s.mem) ∧
    -- an assembly entry: its word and its valid bit; a word already valid raises LINK 0x006 and is not written
    (∀ n w, e.dkind = 2 → n = abufOf p (e.dest + f.index / 5 % (e.ring + 1)) → w = f.index % 5 → (getAbuf s n).freeAt = none →
      ((getAbuf s n).valid.getLsbD w = false →
        ∃ u, exec (.meshWordArrival ep ch) s = .next u ∧ u = { s with flight := s.flight.erase f, abuf := u.abuf } ∧
          (getAbuf u n).valid = (getAbuf s n).valid ||| BitVec.ofNat 5 (1 <<< w) ∧
          (getAbuf u n).full = (if (getAbuf u n).valid = 31 then f.arrive else (getAbuf s n).full) ∧
          (payWord (getAbuf s n).pay w = 0 → payWord (getAbuf u n).pay w = f.word) ∧
          (∀ v, v < 5 → v ≠ w → payWord (getAbuf u n).pay v = payWord (getAbuf s n).pay v) ∧
          (∀ m, m ≠ n → getAbuf u m = getAbuf s m)) ∧
      ((getAbuf s n).valid.getLsbD w = true → purging (getCtx s f.ctx) = false →
        ∃ u, exec (.meshWordArrival ep ch) s = .next u ∧ (getCtx u f.ctx).plan = .faulted ∧ (∀ m, getAbuf u m = getAbuf s m) ∧ u.mem = s.mem)) ∧
    -- an engine's staging buffer; into a full one it raises MEM 0x006
    (e.dkind = 3 → (getEng s e.dest).staging.length < 128 →
      exec (.meshWordArrival ep ch) s = .next (setEng { s with flight := s.flight.erase f } e.dest { getEng s e.dest with
        staging := (getEng s e.dest).staging ++ [{ line := 0, tick := f.arrive, word := f.word, poison := f.poison
                                                   chan := f.chan, fixed := [], bad := false, mesh := true }] })) ∧
    (e.dkind = 3 → 128 ≤ (getEng s e.dest).staging.length → purging (getCtx s f.ctx) = false →
      ∃ u, exec (.meshWordArrival ep ch) s = .next u ∧ (getCtx u f.ctx).plan = .faulted ∧
        getEng u e.dest = { getEng s e.dest with st := .faulted } ∧ u.mem = s.mem) ∧
    -- a request descriptor joins its context's queue of 256; DET_MODE refuses those whose result depends on order
    (e.dkind = 4 → descOk f.word = true → descBounds s f.ctx f.word = true →
      ((getCtx s f.ctx).dm = false ∨ orderOp (dOp f.word) = false) → (tget (fun _ => []) s.reqq f.ctx).length < 256 →
      ∃ u, exec (.meshWordArrival ep ch) s = .next u ∧ u = { s with flight := s.flight.erase f, reqq := u.reqq } ∧
        tget (fun _ => []) u.reqq f.ctx = tget (fun _ => []) s.reqq f.ctx ++
          [{ word := f.word, src := f.src, chan := f.chan, index := f.index, at_ := f.arrive }]) ∧
    (e.dkind = 4 → descOk f.word = false ∨ ((getCtx s f.ctx).dm = true ∧ orderOp (dOp f.word) = true) ∨ descBounds s f.ctx f.word = false ∨
        256 ≤ (tget (fun _ => []) s.reqq f.ctx).length → purging (getCtx s f.ctx) = false →
      ∃ u, exec (.meshWordArrival ep ch) s = .next u ∧ (getCtx u f.ctx).plan = .faulted ∧ u.reqq = s.reqq ∧ u.mem = s.mem)

/-- SLOT_DEPARTURE: what a slot carries. A planned slot sends the bead its transmit entry names, or a VOID where that bead
cannot be formed; a flux slot sends a waiting replay; a slot with nothing to carry sends EMPTY, and a raw bead
period in which no bead waits a fill bead (R14, R112, R117, R121, R125 to R127, R133, R136, R154, R215). -/
def Obligations.SlotsCarryWhatThePlanNames : Prop :=
  -- LOCAL
  (∀ (l : LinkId) s (c : CtxId) p e b, PlannedSlot s l c p e → voidAt (getCtx s c) s.now = false → e.kind = 1 →
    abufAt (getAbuf s (abufOf p e.abuf)) (s.now - 4) = some b →
    ∃ u, exec (.slotDeparture l) s = .next u ∧
      BeadSent s u l 1 false (s.now / 4) (getCtx s c).gen.toNat (getCtx s c).job.toNat e.stok.toNat b ∧
      u.mem = s.mem ∧ u.ctxs = s.ctxs ∧ u.tiles = s.tiles ∧
      (e.rel = true → (getAbuf u (abufOf p e.abuf)).freeAt = some s.now) ∧ (e.rel = false → u.abuf = s.abuf)) ∧
  -- RELAY: the bead of the same context released at the boundary before
  (∀ (l : LinkId) s (c : CtxId) p e b, PlannedSlot s l c p e → voidAt (getCtx s c) s.now = false → e.kind = 2 →
    releasedAt s c e.srca (s.now - 4) = some b →
    ∃ u, exec (.slotDeparture l) s = .next u ∧
      BeadSent s u l 1 false (s.now / 4) (getCtx s c).gen.toNat (getCtx s c).job.toNat e.stok.toNat b ∧
      u.mem = s.mem ∧ u.ctxs = s.ctxs ∧ u.abuf = s.abuf) ∧
  -- FOLD of a released bead with another, or with an assembly entry read at the release, 12 ticks after it under LC1 and 8 under LC2
  (∀ (l : LinkId) s (c : CtxId) p e a b v, PlannedSlot s l c p e → voidAt (getCtx s c) s.now = false → e.kind = 3 →
    releasedAt s c e.srca (s.now - (if p.lc2 then 8 else 12)) = some a →
    (if e.bsel then releasedAt s c e.srcb (s.now - (if p.lc2 then 8 else 12))
      else ((s.foldB.find? fun f => f.tick = s.now && f.link = (l : Nat) && f.ctx = c).map (·.pay)).join) = some b →
    (foldBeads e.fop a b = .inl v → ∃ u, exec (.slotDeparture l) s = .next u ∧
      BeadSent s u l 1 false (s.now / 4) (getCtx s c).gen.toNat (getCtx s c).job.toNat e.stok.toNat v ∧ u.mem = s.mem ∧ u.ctxs = s.ctxs) ∧
    -- one that overflows departs as VOID, and its context faults
    (∀ n, foldBeads e.fop a b = .inr n → purging (getCtx s c) = false → ∃ u, exec (.slotDeparture l) s = .next u ∧
      BeadSent s u l 7 false (s.now / 4) (getCtx s c).gen.toNat (getCtx s c).job.toNat 0 0 ∧ (getCtx u c).plan = .faulted ∧ u.mem = s.mem)) ∧
  -- VOID: the source is missing, or the slots of the context are void
  (∀ (l : LinkId) s (c : CtxId) p e, PlannedSlot s l c p e →
    (voidAt (getCtx s c) s.now = true ∨ (e.kind = 2 ∧ releasedAt s c e.srca (s.now - 4) = none) ∨
      (e.kind = 3 ∧ releasedAt s c e.srca (s.now - (if p.lc2 then 8 else 12)) = none)) →
    ∃ u, exec (.slotDeparture l) s = .next u ∧
      BeadSent s u l 7 false (s.now / 4) (getCtx s c).gen.toNat (getCtx s c).job.toNat 0 0 ∧
      rd u (rFWD_LNK_TX l) fFWD_LNK_TX_VOID_OUT = min (rd s (rFWD_LNK_TX l) fFWD_LNK_TX_VOID_OUT + 1) (2 ^ 32 - 1) ∧
      u.mem = s.mem ∧ u.ctxs = s.ctxs ∧ u.abuf = s.abuf) ∧
  -- a LOCAL entry not ready departs as VOID and raises LINK 0x005
  (∀ (l : LinkId) s (c : CtxId) p e, PlannedSlot s l c p e → voidAt (getCtx s c) s.now = false → e.kind = 1 →
    abufAt (getAbuf s (abufOf p e.abuf)) (s.now - 4) = none → purging (getCtx s c) = false →
    ∃ u, exec (.slotDeparture l) s = .next u ∧
      BeadSent s u l 7 false (s.now / 4) (getCtx s c).gen.toNat (getCtx s c).job.toNat 0 0 ∧ (getCtx u c).plan = .faulted) ∧
  -- a replay waits for a flux slot, and goes ahead of everything there; it takes no new sequence
  (∀ (l : LinkId) s r, SlotBegins s l → lnkUp s l = true → fluxSlot s l (s.now / 4) = true → (getLink s l).txq = [] →
    (getLink s l).rplq.find? (fun r => decide (r.req + 4 ≤ s.now)) = some r →
    ∃ u, exec (.slotDeparture l) s = .next u ∧ (getLink u l).txSeq = (getLink s l).txSeq ∧
      (getLink u l).ring = (getLink s l).ring ∧ (∃ b, (getLink u l).out = some b ∧ b.seq = r.bead.seq ∧ b.pay = r.bead.pay ∧
        hRpl b.hdr = true ∧ hLseq b.hdr = hLseq r.bead.hdr ∧ hSlot b.hdr = hSlot r.bead.hdr) ∧ (∀ q, q ∈ (getLink u l).rplq → q.bead.seq ≠ r.bead.seq) ∧
      rd u (rFWD_LNK_FLUX l) fFWD_LNK_FLUX_REPLAYS = min (rd s (rFWD_LNK_FLUX l) fFWD_LNK_FLUX_REPLAYS + 1) (2 ^ 32 - 1)) ∧
  -- nothing to carry
  (∀ (l : LinkId) s, SlotBegins s l → plannedAt s l (s.now / 4) = none → (getLink s l).txq = [] → (getLink s l).rplq = [] →
    (getLink s l).ctrlq = [] → (getLink s l).special = [] →
    ∃ u, exec (.slotDeparture l) s = .next u ∧ BeadSent s u l 0 false (s.now / 4) 0 0 0 0 ∧ u.mem = s.mem ∧ u.ctxs = s.ctxs) ∧
  -- a raw bead period carries the bead that waits for it, and a fill bead where none does
  (∀ (l : LinkId) s, rxLive s l = true → lnkQuiet s l = false → slotDue s l = false → rawPeriod s l = true →
    ((getLink s l).txWait = true → exec (.slotDeparture l) s = .next (ontoLanes s l)) ∧
    ((getLink s l).txWait = false → (getLink s l).txq = [] →
      ∃ u, exec (.slotDeparture l) s = .next u ∧ BeadSent s u l 0 true 0 0 0 0 0 ∧ u.mem = s.mem ∧ u.ctxs = s.ctxs)) ∧
  (∀ (l : LinkId) s, slotDue s l = false → rawPeriod s l = false → exec (.slotDeparture l) s = .next s) ∧
  -- Link quiet sends nothing
  (∀ (l : LinkId) s, lnkQuiet s l = true → exec (.slotDeparture l) s = .next s)

/-- Fold combines two beads lane by lane: exact 64-bit sums or an overflow, 16- and 32-bit maxima, sums modulo 2^32, and FP32
extremes; all six are commutative (R125, R126). -/
def Obligations.FoldsAreExactAndCommute : Prop :=
  (∀ fop a b, 1 ≤ fop → fop ≤ 6 → foldBeads fop a b = foldBeads fop b a) ∧
  (∀ a b v i, i < 40 → foldBeads 1 a b = .inl v → signed 64 (payLane v 64 i) = signed 64 (payLane a 64 i) + signed 64 (payLane b 64 i)) ∧
  (∀ a b, (∃ i, foldBeads 1 a b = .inr i) ↔
    ∃ i, i < 40 ∧ (signed 64 (payLane a 64 i) + signed 64 (payLane b 64 i) < -(2 ^ 63) ∨
      2 ^ 63 ≤ signed 64 (payLane a 64 i) + signed 64 (payLane b 64 i))) ∧
  (∀ a b v i, i < 160 → foldBeads 2 a b = .inl v → signed 16 (payLane v 16 i) = max (signed 16 (payLane a 16 i)) (signed 16 (payLane b 16 i))) ∧
  (∀ a b v i, i < 80 → foldBeads 3 a b = .inl v → payLane v 32 i = (payLane a 32 i + payLane b 32 i) % 2 ^ 32) ∧
  (∀ a b v i, i < 80 → (foldBeads 5 a b = .inl v → payLane v 32 i = (maxF (BitVec.ofNat 32 (payLane a 32 i)) (BitVec.ofNat 32 (payLane b 32 i))).toNat) ∧
    (foldBeads 6 a b = .inl v → payLane v 32 i = (minF (BitVec.ofNat 32 (payLane a 32 i)) (BitVec.ofNat 32 (payLane b 32 i))).toNat)) ∧
  (∀ a b v i, i < 80 → foldBeads 4 a b = .inl v → signed 32 (payLane v 32 i) = max (signed 32 (payLane a 32 i)) (signed 32 (payLane b 32 i))) ∧
  (∀ fop a b, 2 ≤ fop → fop ≤ 6 → ∃ v, foldBeads fop a b = .inl v)

/-- A planned bead that arrives in its slot waits in the Lehr and is released at 4 x slot + DUE, whenever it arrived before;
what does not fit the plan is discarded and counted (R118, R119, R122, R123, R127 to R130, R164): PLANNED_BEAD_ARRIVAL,
VOID_BEAD_ARRIVAL and DUE_TICK_RELEASE. -/
def Obligations.LehrHoldsBeadsUntilDue : Prop :=
  -- an original copy is placed by its SLOT and its arrival tick
  (∀ s l h q, hRpl h = false → q % 256 = hSlot h → s.now - expOf s l < 4 * q + 512 → 4 * q < s.now - expOf s l + 512 →
    arrivalSlot s l h none = q) ∧
  -- a bead whose position the running plan owns
  (∀ (l : LinkId) b h pay k s (c : CtxId) p hh i e slot, rxDecode b = .ok h pay k → FreshBead s l h → hClass h = 1 → beadSlot s l h = slot →
    rd s (rLNK_FENCE l) fLNK_FENCE_ENABLE = 0 → ownerOf s l slot = some c → (getCtx s c).image = some p →
    keepsProgram (getCtx s c) = true → voidAt (getCtx s c) s.now = false → rxEntry p (getCtx s c) (resumeStep s c) l slot = some (hh, i, e) →
    -- one that its entry receives is held
    (e.kind = 1 → (isFlux (fluxN s l) slot = false ∨ hRpl h = true) → hEpoch h = (getCtx s c).job.toNat → hGen h = (getCtx s c).gen.toNat →
      s.now < 4 * slot + e.due →
      (lehrGet s l slot = none → ∃ u, exec (.plannedBeadArrival l b.h b.pay b.err) s = .next u ∧
        lehrGet u l slot = some { slot := slot, at_ := s.now, stok := BitVec.ofNat 4 (hStok h), pay := pay } ∧ u.mem = s.mem ∧ u.ctxs = s.ctxs) ∧
      -- LINK 0x004: the entry holds a bead
      ((lehrGet s l slot).isSome = true → purging (getCtx s c) = false → ∃ u, exec (.plannedBeadArrival l b.h b.pay b.err) s = .next u ∧
        (getCtx u c).plan = .faulted ∧ lehrGet u l slot = lehrGet s l slot ∧ u.mem = s.mem)) ∧
    -- LINK 0x002: another job's, an original in a flux slot, or a position with no receive entry
    ((hEpoch h ≠ (getCtx s c).job.toNat ∨ (isFlux (fluxN s l) slot = true ∧ hRpl h = false) ∨ e.kind ≠ 1) → purging (getCtx s c) = false →
      ∃ u, exec (.plannedBeadArrival l b.h b.pay b.err) s = .next u ∧ (getCtx u c).plan = .faulted ∧ lehrGet u l slot = lehrGet s l slot ∧
        rd u (rFWD_LNK_RX0 l) fFWD_LNK_RX0_UNPLANNED = min (rd s (rFWD_LNK_RX0 l) fFWD_LNK_RX0_UNPLANNED + 1) (2 ^ 32 - 1)) ∧
    -- an old generation, and a bead at or after its due tick
    (e.kind = 1 → (isFlux (fluxN s l) slot = false ∨ hRpl h = true) → hEpoch h = (getCtx s c).job.toNat →
      (hGen h ≠ (getCtx s c).gen.toNat → ∃ u, exec (.plannedBeadArrival l b.h b.pay b.err) s = .next u ∧
        rd u (rFWD_LNK_RX1 l) fFWD_LNK_RX1_STALE = min (rd s (rFWD_LNK_RX1 l) fFWD_LNK_RX1_STALE + 1) (2 ^ 32 - 1) ∧
        lehrGet u l slot = lehrGet s l slot ∧ u.ctxs = s.ctxs) ∧
      (hGen h = (getCtx s c).gen.toNat → 4 * slot + e.due ≤ s.now → ∃ u, exec (.plannedBeadArrival l b.h b.pay b.err) s = .next u ∧
        rd u (rFWD_LNK_RX1 l) fFWD_LNK_RX1_LATE = min (rd s (rFWD_LNK_RX1 l) fFWD_LNK_RX1_LATE + 1) (2 ^ 32 - 1) ∧
        lehrGet u l slot = lehrGet s l slot ∧ u.ctxs = s.ctxs))) ∧
  -- a VOID bead faults on arrival, with the cause upstream void
  (∀ (l : LinkId) b h pay k s (c : CtxId) p hh i e slot, rxDecode b = .ok h pay k → FreshBead s l h → hClass h = 7 → beadSlot s l h = slot →
    rd s (rLNK_FENCE l) fLNK_FENCE_ENABLE = 0 → ownerOf s l slot = some c → (getCtx s c).image = some p →
    keepsProgram (getCtx s c) = true → voidAt (getCtx s c) s.now = false → rxEntry p (getCtx s c) (resumeStep s c) l slot = some (hh, i, e) →
    e.kind = 1 → (isFlux (fluxN s l) slot = false ∨ hRpl h = true) → hEpoch h = (getCtx s c).job.toNat → hGen h = (getCtx s c).gen.toNat →
    s.now < 4 * slot + e.due → purging (getCtx s c) = false →
    ∃ u, exec (.voidBeadArrival l b.h b.toBeadBody) s = .next u ∧ (getCtx u c).plan = .faulted ∧ lehrGet u l slot = lehrGet s l slot ∧
      rd u (rFWD_LNK_RX0 l) fFWD_LNK_RX0_MISSING = min (rd s (rFWD_LNK_RX0 l) fFWD_LNK_RX0_MISSING + 1) (2 ^ 32 - 1)) ∧
  -- a position no context owns, and one whose context has stopped
  (∀ (l : LinkId) b h pay k s slot, rxDecode b = .ok h pay k → FreshBead s l h → hClass h = 1 → beadSlot s l h = slot →
    rd s (rLNK_FENCE l) fLNK_FENCE_ENABLE = 0 →
    (ownerOf s l slot = none ∨ ∃ c : CtxId, ownerOf s l slot = some c ∧ (getCtx s c).image ≠ none ∧
      (keepsProgram (getCtx s c) = false ∨ voidAt (getCtx s c) s.now = true)) →
    ∃ u, exec (.plannedBeadArrival l b.h b.pay b.err) s = .next u ∧
      rd u (rFWD_LNK_RX2 l) fFWD_LNK_RX2_UNOWNED = min (rd s (rFWD_LNK_RX2 l) fFWD_LNK_RX2_UNOWNED + 1) (2 ^ 32 - 1) ∧
      u.ctxs = s.ctxs ∧ u.mem = s.mem) ∧
  -- on a fenced link a bead of a foreign job
  (∀ (l : LinkId) b h pay k s, rxDecode b = .ok h pay k → FreshBead s l h → hClass h = 1 → fencedOut s l h = true →
    ∃ u, exec (.plannedBeadArrival l b.h b.pay b.err) s = .next u ∧
      rd u (rLNK_FENCE_DROP l) fLNK_FENCE_DROP_FOREIGN =
        min (rd s (rLNK_FENCE_DROP l) fLNK_FENCE_DROP_FOREIGN + 1) (2 ^ fwid fLNK_FENCE_DROP_FOREIGN - 1) ∧
      u.ctxs = s.ctxs ∧ u.mem = s.mem) ∧
  -- at its due tick the entry is cleared, the bead is there for relays and folds, its tokens enter the sync network, and its
  -- five words go to the mesh from 4 ticks later
  (∀ (l : LinkId) s (c : CtxId) p slot hh k e b, (∀ d : CtxId, d ≠ c → (getCtx s d).image = none) → (getCtx s c).image = some p →
    keepsProgram (getCtx s c) = true → voidAt (getCtx s c) s.now = false → releasedNow s l c = false →
    dueEntries p (getCtx s c) (resumeStep s c) l s.now = [(slot, hh, k, e)] → lehrGet s l slot = some b → b.slot = slot → b.at_ < s.now →
    ∃ u, exec (.dueTickRelease l) s = .next u ∧ lehrGet u l slot = none ∧ releasedAt u c l s.now = some b.pay ∧
      u.syncNet = s.syncNet ++ ((List.range 4).filter (fun i => b.stok.getLsbD i)).map
        (fun i => { due := s.now + 8, ctr := .chip (e.tokctr + i), op := .inc 1 }) ∧
      (e.rfld = false → e.dlv = true → u.deliv = s.deliv ++ (List.range 5).map
        fun w => { tick := s.now + 4 + w, link := l, chan := e.chan, ctx := c, word := payWord b.pay w }) ∧ u.mem = s.mem ∧
      -- a receive Fold: the words of the bead combined with its assembly entry, 12 ticks after the release under LC1 and 8 under LC2
      (∀ o v, e.rfld = true → e.dlv = true → abufAt (getAbuf s (abufOf p e.abuf)) s.now = some o → foldBeads e.fop b.pay o = .inl v →
        u.deliv = s.deliv ++ (List.range 5).map
          fun w => { tick := s.now + (if p.lc2 then 8 else 12) + w, link := l, chan := e.chan, ctx := c, word := payWord v w })) ∧
  -- no bead present: LINK 0x001, and nothing is released
  (∀ (l : LinkId) s (c : CtxId) p slot hh k e, (∀ d : CtxId, d ≠ c → (getCtx s d).image = none) → (getCtx s c).image = some p →
    keepsProgram (getCtx s c) = true → voidAt (getCtx s c) s.now = false → releasedNow s l c = false →
    dueEntries p (getCtx s c) (resumeStep s c) l s.now = [(slot, hh, k, e)] → lehrGet s l slot = none → purging (getCtx s c) = false →
    ∃ u, exec (.dueTickRelease l) s = .next u ∧ (getCtx u c).plan = .faulted ∧ u.rel = s.rel ∧ u.deliv = s.deliv ∧ u.mem = s.mem ∧
      rd u (rFWD_LNK_RX0 l) fFWD_LNK_RX0_MISSING = min (rd s (rFWD_LNK_RX0 l) fFWD_LNK_RX0_MISSING + 1) (2 ^ 32 - 1))

/-! ### Links (chapter 6) -/

/-- Sequence numbers and the accepted map: a 12-bit LSEQ names the sequence nearest the one expected, and accepting a
sequence adds it to the map and nothing else (R109, R154, R159). -/
def Obligations.AcceptedSequencesAreExact : Prop :=
  (∀ r q m, 0 < m → q < r + m / 2 → r < q + m / 2 → unwrap r (q % m) m = q) ∧
  (∀ (x : Link) q p, (x.accept q).has p = true ↔ (x.has p = true ∨ p = q)) ∧
  (∀ (x : Link) q, x.rxNext ≤ q → (x.accept q).rxNext = q + 1) ∧
  (∀ (x : Link) q t p, x.rxCum ≤ p → p < q → x.has p = false → ∃ v, (p, v) ∈ (x.nakBelow q t).naks)

/-- BEAD_IN_ERROR, NAK, IMPLICIT_NAK, FLUX_BUDGET_EXHAUSTED, SKIP and EMPTY_BEAD_ARRIVAL: errors are found and counted, the missing
sequence is asked for, and the transmitter replays it or says it is gone (R133, R134, R152 to R157, R162, R165). -/
def Obligations.BeadsInErrorAreReplayed : Prop :=
  -- what the receiver makes of a bead: up to 10 erroneous bytes are corrected, then the CRC and the class are checked
  (∀ b : WireBead, (10 < errBytes b.err → rxDecode b = .bad .uncorrectable) ∧
    (errBytes b.err ≤ 10 → 2 ^ 2784 ≤ b.err.toNat → ∃ n, rxDecode b = .bad (.crc n)) ∧
    (errBytes b.err ≤ 10 → b.err.toNat < 2 ^ 2784 → 2 ^ 63 ≤ b.h.toNat → ∃ n, rxDecode b = .bad (.reservedClass n)) ∧
    (errBytes b.err ≤ 10 → b.err.toNat < 2 ^ 2784 → b.h.toNat < 2 ^ 63 → rxDecode b = .ok b.h b.pay (errBytes b.err))) ∧
  -- cadence certain: the next new sequence is in error, its slot is recorded, and its NAK waits
  (∀ (l : LinkId) b e s, rxDecode b = .bad e → rxLive s l = true → tooMany (getLink s l) ((getLink s l).rxCount + 1) = false →
    (getLink s l).unsure = false → ((getLink s l).lastRx = 0 ∨ s.now < (getLink s l).lastRx + 240) →
    (fluxSlot s l (nearestSlot (s.now - expOf s l)) = false ∨ (getLink s l).nakOut = []) →
    ∃ u, exec (.beadInError l b) s = .next u ∧
      (getLink u l).rxNext = (getLink s l).rxNext + 1 ∧
      (getLink u l).rxErr = ((getLink s l).rxNext, nearestSlot (s.now - expOf s l)) :: (getLink s l).rxErr ∧
      (getLink u l).naks = insertNak (getLink s l).rxNext s.now (getLink s l).naks ∧
      (getLink u l).rxCount = (getLink s l).rxCount + 1 ∧ (getLink u l).consec = (getLink s l).consec + 1 ∧
      rd u (rLNK_FEC l) fLNK_FEC_UNCORR = min (rd s (rLNK_FEC l) fLNK_FEC_UNCORR + 1) (2 ^ 32 - 1) ∧
      (∀ n, e = .crc n → rd u (rLNK_FEC2 l) fLNK_FEC2_CRC_ONLY = min (rd s (rLNK_FEC2 l) fLNK_FEC2_CRC_ONLY + 1) (2 ^ fwid fLNK_FEC2_CRC_ONLY - 1)) ∧
      (15 ≤ (getLink s l).consec → rd u (rLNK_STATUS l) fLNK_STATUS_LOCK = 0 ∨ (getLink s l).lockLost.isSome = true) ∧
      u = { s with regs := u.regs, links := u.links }) ∧
  -- cadence uncertain: the next clean bead settles it
  (∀ (l : LinkId) b e s, rxDecode b = .bad e → rxLive s l = true → tooMany (getLink s l) ((getLink s l).rxCount + 1) = false →
    ((fluxSlot s l (nearestSlot (s.now - expOf s l)) = true ∧ (getLink s l).nakOut ≠ []) ∨ (getLink s l).unsure = true ∨
      ((getLink s l).lastRx ≠ 0 ∧ (getLink s l).lastRx + 240 ≤ s.now)) →
    ∃ u, exec (.beadInError l b) s = .next u ∧ (getLink u l).unsure = true ∧ (getLink u l).rxNext = (getLink s l).rxNext ∧
      (getLink u l).naks = (getLink s l).naks ∧ u = { s with regs := u.regs, links := u.links }) ∧
  -- more than 64 in 2^20 beads take the link DOWN with cause 1
  (∀ (l : LinkId) b e s, rxDecode b = .bad e → rxLive s l = true → tooMany (getLink s l) ((getLink s l).rxCount + 1) = true →
    rd s (rLNK_CTL l) fLNK_CTL_ENABLE = 1 →
    ∃ u, exec (.beadInError l b) s = .next u ∧ lnkState u l = 8 ∧ rd u (rLNK_STATUS l) fLNK_STATUS_DOWN_CAUSE = 1) ∧
  -- a NAK for a bead still in the ring is a replay request; it is answered with SKIP for one that is not
  (∀ (l : LinkId) (x : BitVec 12) s q, rxLive s l = true → unwrap (getLink s l).txAck x.toNat 4096 = q → q < (getLink s l).txSeq →
    (∀ r, r ∈ (getLink s l).rplq → r.bead.seq ≠ q) →
    (∀ b, (getLink s l).ring.find? (fun b => decide (b.seq = q)) = some b →
      ∃ u, exec (.nak l x) s = .next u ∧ (getLink u l).rplq = (getLink s l).rplq ++ [{ bead := b, req := s.now }] ∧
        rd u (rLNK_RPL0 l) fLNK_RPL0_NAK_RECV = min (rd s (rLNK_RPL0 l) fLNK_RPL0_NAK_RECV + 1) (2 ^ 32 - 1) ∧ u.mem = s.mem) ∧
    ((getLink s l).ring.find? (fun b => decide (b.seq = q)) = none →
      ∃ u, exec (.nak l x) s = .next u ∧ (getLink u l).ctrlq = (getLink s l).ctrlq ++ [BitVec.ofNat 64 (7 * 2 ^ 56 + q % 4096)] ∧
        (getLink u l).rplq = (getLink s l).rplq ∧
        rd u (rLNK_RPL2 l) fLNK_RPL2_SKIP_SENT = min (rd s (rLNK_RPL2 l) fLNK_RPL2_SKIP_SENT + 1) (2 ^ 32 - 1) ∧
        u = { s with regs := u.regs, links := u.links })) ∧
  -- a NAK of a bead already queued is ignored
  (∀ (l : LinkId) (x : BitVec 12) s r, rxLive s l = true → r ∈ (getLink s l).rplq →
    unwrap (getLink s l).txAck x.toNat 4096 = r.bead.seq → r.bead.seq < (getLink s l).txSeq →
    ∃ u, exec (.nak l x) s = .next u ∧ (getLink u l).rplq = (getLink s l).rplq ∧ u = { s with regs := u.regs, links := u.links }) ∧
  -- the oldest unacknowledged sequence, not NAKed, 2 x HOP + 12 ticks after it departed
  (∀ (l : LinkId) s b, rxLive s l = true → (getLink s l).ring.find? (fun b => decide (b.seq = (getLink s l).txAck)) = some b →
    (getLink s l).txAck ∉ (getLink s l).nakIn → b.at_ + 2 * rd s (rLNK_HOP l) fLNK_HOP_HOP + 12 ≤ s.now →
    (∀ r, r ∈ (getLink s l).rplq → r.bead.seq ≠ (getLink s l).txAck) →
    ∃ u, exec (.implicitNak l) s = .next u ∧ (getLink u l).rplq = (getLink s l).rplq ++ [{ bead := b, req := s.now }] ∧
      rd u (rLNK_RPL1 l) fLNK_RPL1_IMPLICIT = min (rd s (rLNK_RPL1 l) fLNK_RPL1_IMPLICIT + 1) (2 ^ 32 - 1) ∧ u.mem = s.mem) ∧
  -- a replay that missed its second flux slot: LINK 0x003 against every running plan on the link
  (∀ (l : LinkId) s r (c : CtxId), r ∈ (getLink s l).rplq → fluxDeadline (fluxN s l) r.req ≤ s.now → c ∈ ctxsOn s l isRunning →
    purging (getCtx s c) = false →
    ∃ u, exec (.fluxBudgetExhausted l) s = .next u ∧ (getCtx u c).plan = .faulted ∧ u.links = s.links ∧ u.mem = s.mem) ∧
  -- SKIP: the sequence counts as accepted
  (∀ (l : LinkId) (x : BitVec 12) s, rxLive s l = true →
    ∃ u, exec (.skip l x) s = .next u ∧ (getLink u l).has (unwrap (getLink s l).rxNext x.toNat 4096) = true ∧
      rd u (rLNK_RPL2 l) fLNK_RPL2_SKIP_RECV = min (rd s (rLNK_RPL2 l) fLNK_RPL2_SKIP_RECV + 1) (2 ^ 32 - 1) ∧ u.mem = s.mem) ∧
  -- an EMPTY or CTRL bead takes its place in the sequence and acknowledges
  (∀ (l : LinkId) b h pay k s, rxDecode b = .ok h pay k → InOrder s l h → hClass h = 0 ∨ hClass h = 6 → hNak h = false →
    unwrap (getLink s l).txAck (hAck h + 1) 4096 ≤ (getLink s l).txSeq → (getLink s l).txAck < unwrap (getLink s l).txAck (hAck h + 1) 4096 →
    ∃ u, exec (.emptyBeadArrival l b.h b.toBeadBody) s = .next u ∧ (getLink u l).rxNext = (getLink s l).rxNext + 1 ∧
      (getLink u l).txAck = unwrap (getLink s l).txAck (hAck h + 1) 4096 ∧ (getLink u l).consec = 0 ∧
      -- what was corrected, and the control words of a reserved type, are counted
      (k ≠ 0 → rd u (rLNK_FEC l) fLNK_FEC_CORRECTED = min (rd s (rLNK_FEC l) fLNK_FEC_CORRECTED + 1) (2 ^ 32 - 1) ∧
        rd u (rLNK_FEC_HIST l (k - 1)) fLNK_FEC_HIST_COUNT = min (rd s (rLNK_FEC_HIST l (k - 1)) fLNK_FEC_HIST_COUNT + 1) (2 ^ fwid fLNK_FEC_HIST_COUNT - 1)) ∧
      (hClass h = 6 → rd u (rLNK_EVENTS l) fLNK_EVENTS_RSV_WORD =
        min (rd s (rLNK_EVENTS l) fLNK_EVENTS_RSV_WORD + rsvWords pay) (2 ^ fwid fLNK_EVENTS_RSV_WORD - 1)) ∧
      u = { s with regs := u.regs, links := u.links })

/-- OPEN_BEAD, CREDIT and CREDIT_RETURN: open-class beads enter the receive buffer at once and leave it in sequence order, a
duplicate is dropped, and credits come back with cumulative counts (R159, R161, R162, R177). -/
def Obligations.OpenBeadsUseCredits : Prop :=
  (∀ (l : LinkId) b h pay k s, rxDecode b = .ok h pay k → InOrder s l h → hClass h = 2 ∨ hClass h = 3 →
    ((getLink s l).fdrop = false ∨ fOffset pay = 0) →
    (rd s (rLNK_FENCE l) fLNK_FENCE_ENABLE = 0 ∨ hClass h = 3 ∨ hFil h = true) →
    (fAbort pay = false → fOffset pay = (getLink s l).fexp →
      ∃ u, exec (.openBead l b.h b.pay b.err) s = .next u ∧
        (getLink u l).obuf = (getLink s l).obuf ++ [{ seq := (getLink s l).rxNext, mgmt := hClass h = 3, fil := hFil h, at_ := s.now, pay := pay }] ∧
        (getLink u l).held = [] ∧ (getLink u l).fexp = (if fLast pay then 0 else (getLink s l).fexp + 312) ∧
        rd u (rLNK_CREDIT l) fLNK_CREDIT_BUF_NOW = ((getLink s l).obuf.length + 1) % 2 ^ 9 ∧
        u = { s with regs := u.regs, links := u.links }) ∧
    -- one that does not continue its packet is discarded with it
    (fAbort pay = true ∨ fOffset pay ≠ (getLink s l).fexp →
      ∃ u, exec (.openBead l b.h b.pay b.err) s = .next u ∧ (∀ o, o ∈ (getLink u l).obuf → o ∈ (getLink s l).obuf) ∧ (getLink u l).fexp = 0 ∧
        (getLink u l).fdrop = !fLast pay ∧
        rd u rOPN_DROP3 fOPN_DROP3_FRAMING = min (rd s rOPN_DROP3 fOPN_DROP3_FRAMING + 1) (2 ^ fwid fOPN_DROP3_FRAMING - 1) ∧
        u = { s with regs := u.regs, links := u.links })) ∧
  -- the bead that was missing goes on first, and the one held behind it follows
  (∀ (l : LinkId) b h pay k s (o : OpenB), rxDecode b = .ok h pay k → rxLive s l = true → hClass h = 2 ∨ hClass h = 3 →
    unwrap (getLink s l).rxNext (hLseq h) 4096 = (getLink s l).rxCum → (getLink s l).held = [o] → o.seq = (getLink s l).rxCum + 1 →
    (getLink s l).rxAcc = [o.seq] → (getLink s l).rxNext = o.seq + 1 → (getLink s l).unsure = false → (getLink s l).fdrop = false →
    rd s (rLNK_FENCE l) fLNK_FENCE_ENABLE = 0 → fAbort pay = false → fLast pay = false → fOffset pay = (getLink s l).fexp →
    fAbort o.pay = false → fOffset o.pay = (getLink s l).fexp + 312 →
    ∃ u, exec (.openBead l b.h b.pay b.err) s = .next u ∧ (getLink u l).held = [] ∧
      (getLink u l).obuf = (getLink s l).obuf ++ [{ seq := (getLink s l).rxCum, mgmt := hClass h = 3, fil := hFil h, at_ := s.now, pay := pay }, o] ∧
      u = { s with regs := u.regs, links := u.links }) ∧
  -- behind a missing sequence it is held, and the missing one is asked for
  (∀ (l : LinkId) b h pay k s q, rxDecode b = .ok h pay k → rxLive s l = true → hClass h = 2 ∨ hClass h = 3 →
    unwrap (getLink s l).rxNext (hLseq h) 4096 = q → (getLink s l).rxCum = (getLink s l).rxNext → (getLink s l).rxNext < q →
    (getLink s l).rxAcc = [] → (getLink s l).held = [] → (getLink s l).naks = [] →
    ∃ u, exec (.openBead l b.h b.pay b.err) s = .next u ∧ (getLink u l).held = [{ seq := q, mgmt := hClass h = 3, fil := hFil h, at_ := s.now, pay := pay }] ∧
      (getLink u l).obuf = (getLink s l).obuf ∧ (getLink u l).naks.map (·.1) = (List.range (q - (getLink s l).rxNext)).map ((getLink s l).rxNext + ·) ∧
      (getLink u l).rxNext = q + 1 ∧ u = { s with regs := u.regs, links := u.links }) ∧
  -- a sequence in the map is discarded
  (∀ (l : LinkId) b h pay k s, rxDecode b = .ok h pay k → rxLive s l = true → hClass h = 2 ∨ hClass h = 3 →
    (getLink s l).has (unwrap (getLink s l).rxNext (hLseq h) 4096) = true →
    ∃ u, exec (.openBead l b.h b.pay b.err) s = .next u ∧ (getLink u l).held = (getLink s l).held ∧ (getLink u l).obuf = (getLink s l).obuf ∧
      rd u (rLNK_RPL1 l) fLNK_RPL1_DUP = min (rd s (rLNK_RPL1 l) fLNK_RPL1_DUP + 1) (2 ^ 32 - 1) ∧
      u = { s with regs := u.regs, links := u.links }) ∧
  -- a CREDIT word carries the far end's cumulative count
  (∀ (l : LinkId) (cum : BitVec 16) s, rxLive s l = true →
    ∃ u, exec (.credit l cum) s = .next u ∧ getLink u l = { getLink s l with credBack := cum.toNat } ∧
      rd u (rLNK_CREDIT l) fLNK_CREDIT_AVAIL = 256 - ((getLink s l).credOut + 2 ^ 16 - cum.toNat) % 2 ^ 16 ∧
      u = { s with regs := u.regs, links := u.links }) ∧
  -- this end's count goes out at 16 pending returns or 256 ticks after the first, and not before
  (∀ (l : LinkId) s, lnkUp s l = true → (getLink s l).retPend ≠ 0 →
    (16 ≤ (getLink s l).retPend ∨ (getLink s l).retFirst + 256 ≤ s.now) →
    exec (.creditReturn l) s = .next (setLink s l { getLink s l with
      retPend := 0, ctrlq := (getLink s l).ctrlq ++ [BitVec.ofNat 64 (2 ^ 56 + (getLink s l).retCum)] })) ∧
  (∀ (l : LinkId) s, (getLink s l).retPend < 16 → s.now < (getLink s l).retFirst + 256 → exec (.creditReturn l) s = .next s)

/-- The words of CTRL beads, discovery, lock and a link going DOWN (R148, R162 to R169): PEER_RESET, FENCE_WORD, MEASURE,
HELLO, HELLO_SEND, LOSS_OF_LOCK, LOCK_REGAINED, LOCK_LOSS and LINK_DOWN. -/
def Obligations.LinksTellTheirNeighbours : Prop :=
  (∀ (l : LinkId) (k : BitVec 8) s, rxLive s l = true → s.recOpen = [] →
    ∃ u, exec (.peerReset l k) s = .next u ∧ rd u (rLNK_PEER l) fLNK_PEER_KIND = k.toNat % 16 ∧
      rd u (rLNK_PEER l) fLNK_PEER_COUNT = s.now % 2 ^ 60 ∧ u = { s with regs := u.regs } ∧
      (∀ o, o ≠ rLNK_PEER l → regGet u o = regGet s o)) ∧
  -- the open LINK 0x001 records of the link take the kind
  (∀ (l : LinkId) (k : BitVec 8) s i t, rxLive s l = true → s.recOpen = [(i, (l : Nat), t)] → s.now < t + 1200 →
    ∃ u, exec (.peerReset l k) s = .next u ∧ rd u (rGAF_FLOG i 0) ⟨23, 16⟩ = k.toNat ∧ u = { s with regs := u.regs }) ∧
  (∀ (l : LinkId) on (tag : BitVec 12) s, rxLive s l = true →
    exec (.fenceWord l on tag) s = .next (wr s (rLNK_STATUS l) fLNK_STATUS_FENCED (if on then 1 else 0))) ∧
  -- a probe is answered; a reply gives one round trip
  (∀ (l : LinkId) (p : BitVec 8) (ta : BitVec 32) s, rxLive s l = true →
    exec (.measure l p false ta) s = .next (setLink s l { getLink s l with
      ctrlq := (getLink s l).ctrlq ++ [BitVec.ofNat 64 (8 * 2 ^ 56 + p.toNat * 2 ^ 48 + 2 ^ 47 + s.now % 2 ^ 32)] })) ∧
  (∀ (l : LinkId) (p : BitVec 8) (ta : BitVec 32) s t, rxLive s l = true →
    (getLink s l).probes.find? (fun e => decide (e.1 = p.toNat)) = some (p.toNat, t) →
    exec (.measure l p true ta) s = .next (setLink s l { getLink s l with
      probes := (getLink s l).probes.filter (fun e => decide (e.1 ≠ p.toNat))
      rtts := (s.now - t - ta.toNat) :: (getLink s l).rtts })) ∧
  -- a Hello fills the neighbour table, sets XRACK and INCOMPAT, and a new neighbour takes the link DOWN with cause 3
  (∀ (l : LinkId) b h p k s, rxDecode b = .ok h p k → InOrder s l h → hClass h = 5 →
    (rd s (rLNK_NBR0 l) fLNK_NBR0_VALID = 0 ∨ (regGet s (rLNK_NBR1 l)).toNat = payLane p 64 1) →
    ∃ u, exec (.hello l b.h b.toBeadBody) s = .next u ∧ u = { s with regs := u.regs, links := u.links } ∧
      rd u (rLNK_NBR0 l) fLNK_NBR0_VALID = 1 ∧ rd u (rLNK_NBR0 l) fLNK_NBR0_GID = payLane p 32 0 % 2 ^ 20 ∧
      rd u (rLNK_NBR0 l) fLNK_NBR0_LINK = payLane p 8 4 % 2 ^ 5 ∧ rd u (rLNK_NBR0 l) fLNK_NBR0_VER_MAJOR = payLane p 8 5 ∧
      rd u (rLNK_NBR0 l) fLNK_NBR0_RACK = payLane p 16 8 ∧ (regGet u (rLNK_NBR1 l)).toNat = payLane p 64 1 ∧
      rd u (rFWD_EXP l) fFWD_EXP_XRACK = (if payLane p 16 8 = rd s rGAF_LOCATION fGAF_LOCATION_RACK then 0 else 1) ∧
      rd u (rLNK_STATUS l) fLNK_STATUS_INCOMPAT =
        (if payLane p 8 5 ≤ s.protoMajor + 1 ∧ s.protoMajor ≤ payLane p 8 5 + 1 then 0 else 1) ∧
      ((getLink s l).rtts ≠ [] → rd u (rLNK_HOP l) fLNK_HOP_RTT = max (ownRtt (getLink s l)) (payLane p 16 10) % 2 ^ 16)) ∧
  (∀ (l : LinkId) b h p k s, rxDecode b = .ok h p k → InOrder s l h → hClass h = 5 → lnkState s l = 6 → rd s (rLNK_CTL l) fLNK_CTL_ENABLE = 1 →
    rd s (rLNK_NBR0 l) fLNK_NBR0_VALID = 1 → (regGet s (rLNK_NBR1 l)).toNat ≠ payLane p 64 1 →
    rd s (rLNK_LANE_MAP l) fLNK_LANE_MAP_MAP = 0x3210 →
    ∃ u, exec (.hello l b.h b.toBeadBody) s = .next u ∧ lnkState u l = 1 ∧ rd u (rLNK_STATUS l) fLNK_STATUS_DOWN_CAUSE = 3 ∧
      rd u (rLNK_EVENTS l) fLNK_EVENTS_DOWNS = min (rd s (rLNK_EVENTS l) fLNK_EVENTS_DOWNS + 1) (2 ^ 16 - 1)) ∧
  -- each end sends a Hello on entering HELLO and every 1,200,000 ticks while UP; helloAt is one more than the tick of the last
  (∀ (l : LinkId) s, (lnkState s l = 6 ∧ (getLink s l).helloAt + 1200000 ≤ s.now + 1) ∨
      (lnkState s l = 5 ∧ (getLink s l).helloAt ≤ (getLink s l).stateAt) →
    exec (.helloSend l) s = .next (setLink s l { getLink s l with
      helloAt := s.now + 1, special := (getLink s l).special ++ [(5, helloPayload s l)] })) ∧
  -- a loss of lock shorter than 1,200 ticks leaves the link UP
  (∀ (l : LinkId) s, rxLive s l = true → (getLink s l).lockLost = none →
    ∃ u, exec (.lossOfLock l) s = .next u ∧ getLink u l = { getLink s l with lockLost := some s.now } ∧
      rd u (rLNK_STATUS l) fLNK_STATUS_LOCK = 0 ∧ lnkState u l = lnkState s l ∧
      rd u (rLNK_FEC2 l) fLNK_FEC2_LOCK_LOSS = min (rd s (rLNK_FEC2 l) fLNK_FEC2_LOCK_LOSS + 1) (2 ^ 32 - 1) ∧
      u = { s with regs := u.regs, links := u.links }) ∧
  (∀ (l : LinkId) s, rxLive s l = true →
    ∃ u, exec (.lockRegained l) s = .next u ∧ getLink u l = { getLink s l with lockLost := none, consec := 0 } ∧
      rd u (rLNK_STATUS l) fLNK_STATUS_LOCK = 1 ∧ lnkState u l = lnkState s l ∧ u = { s with regs := u.regs, links := u.links }) ∧
  (∀ (l : LinkId) s t, (getLink s l).lockLost = some t → s.now < t + 1200 → exec (.lockLoss l) s = .next s) ∧
  (∀ (l : LinkId) s t, (getLink s l).lockLost = some t → t + 1200 ≤ s.now → rxLive s l = true → rd s (rLNK_CTL l) fLNK_CTL_ENABLE = 1 →
    ∃ u, exec (.lockLoss l) s = .next u ∧ lnkState u l = 8 ∧ rd u (rLNK_STATUS l) fLNK_STATUS_DOWN_CAUSE = 2) ∧
  (∀ (l : LinkId) (k : BitVec 4) s, k.toNat = 0 ∨ 5 < k.toNat → exec (.linkDown l k) s = .next s) ∧
  -- DOWN: everything queued for the link is discarded, and every plan with positions on it faults
  (∀ (l : LinkId) (k : BitVec 4) s, 1 ≤ k.toNat → k.toNat ≤ 5 → lnkState s l ≠ 8 → lnkState s l ≠ 0 →
    ∃ u, exec (.linkDown l k) s = .next u ∧ lnkState u l = (if rd s (rLNK_CTL l) fLNK_CTL_ENABLE = 1 then 8 else 0) ∧
      rd u (rLNK_STATUS l) fLNK_STATUS_DOWN_CAUSE = k.toNat ∧ (getLink u l).ring = [] ∧ (getLink u l).rplq = [] ∧
      (getLink u l).held = [] ∧ (getLink u l).obuf = [] ∧ (getLink u l).lehr = [] ∧ (getLink u l).txq = [] ∧
      rd u (rLNK_EVENTS l) fLNK_EVENTS_DOWNS = min (rd s (rLNK_EVENTS l) fLNK_EVENTS_DOWNS + 1) (2 ^ 16 - 1) ∧
      (∀ c : CtxId, c ∈ planCtxs s l → purging (getCtx s c) = false → (getCtx u c).plan = .faulted))

/-- Training and retraining (R144 to R151, R161, R167): RT_REQ, RT_GO, RT_REFUSE, MARGIN_RETRAIN_REQUEST, RETRAIN_START,
AUTO_RETRY, TRAINING_STATE_COMPLETE and TRAINING_STATE_LIMIT. -/
def Obligations.LinksTrainAndRetrain : Prop :=
  -- the master grants a slave's request where no plan holds the link; else it refuses with reason 1
  (∀ (l : LinkId) (id : BitVec 8) eq (w : BitVec 2) forced s, lnkState s l = 6 → isMaster s l = true → id ≠ 0 → linkHeld s l = false →
    ∃ u, exec (.rtReq l id eq w forced) s = .next u ∧ lnkState u l = 7 ∧
      (getLink u l).grant = some { absorbed := id.toNat, eq := eq, width := w.toNat, forced := forced, start := 0 } ∧
      (getLink u l).ctrlq = (getLink s l).ctrlq ++
        [BitVec.ofNat 64 (3 * 2 ^ 56 + id.toNat * 2 ^ 48 + w.toNat * 2 ^ 46 + (if forced then 2 ^ 45 else 0))] ∧ u.mem = s.mem) ∧
  (∀ (l : LinkId) (id : BitVec 8) eq (w : BitVec 2) s, lnkState s l = 6 → isMaster s l = true → id ≠ 0 → linkHeld s l = true →
    exec (.rtReq l id eq w false) s = .next (ctrlPush s l (4 * 2 ^ 56 + id.toNat * 2 ^ 16 + 1))) ∧
  (∀ (l : LinkId) (id : BitVec 8) eq (w : BitVec 2) forced s, lnkState s l = 4 ∨ lnkState s l = 5 → isMaster s l = true → id ≠ 0 →
    exec (.rtReq l id eq w forced) s = .next (ctrlPush s l (4 * 2 ^ 56 + id.toNat * 2 ^ 16 + 2))) ∧
  -- a forced one is granted, and the plans on the link fault
  (∀ (l : LinkId) (id : BitVec 8) eq (w : BitVec 2) s (c : CtxId), lnkState s l = 6 → isMaster s l = true → id ≠ 0 →
    c ∈ planCtxs s l → purging (getCtx s c) = false →
    ∃ u, exec (.rtReq l id eq w true) s = .next u ∧ lnkState u l = 7 ∧ (getCtx u c).plan = .faulted) ∧
  -- the slave drains toward S and clears its request when the GO names it
  (∀ (l : LinkId) (id : BitVec 8) (w : BitVec 2) forced (st : BitVec 45) s r, lnkState s l = 6 → isMaster s l = false →
    linkHeld s l = false → s.now < unwrap s.now (256 * st.toNat) (2 ^ 53) → (getLink s l).ownReq = some r → r.id = id.toNat →
    ∃ u, exec (.rtGo l id w forced st) s = .next u ∧ lnkState u l = 7 ∧ (getLink u l).ownReq = none ∧
      rd u (rLNK_STATUS l) fLNK_STATUS_PEND_REQ = 0 ∧
      (getLink u l).grant = some { absorbed := id.toNat, eq := r.eq, width := w.toNat, forced := forced
                                   start := unwrap s.now (256 * st.toNat) (2 ^ 53) }) ∧
  -- it refuses one that no force allows over a plan
  (∀ (l : LinkId) (id : BitVec 8) (w : BitVec 2) (st : BitVec 45) s, lnkState s l = 6 → isMaster s l = false → linkHeld s l = true →
    s.now < unwrap s.now (256 * st.toNat) (2 ^ 53) → (getLink s l).ownReq = none →
    exec (.rtGo l id w false st) s = .next (ctrlPush s l (4 * 2 ^ 56 + id.toNat * 2 ^ 16 + 1))) ∧
  (∀ (l : LinkId) (id reason : BitVec 8) s r, rxLive s l = true → (getLink s l).ownReq = some r → r.id = id.toNat → s.cmds = [] →
    ∃ u, exec (.rtRefuse l id reason) s = .next u ∧ (getLink u l).ownReq = none ∧ rd u (rLNK_STATUS l) fLNK_STATUS_PEND_REQ = 0 ∧
      lnkState u l = lnkState s l ∧ u.mem = s.mem) ∧
  -- the margin policy of a slave sends a request with its next identifier; a master's grants itself
  (∀ (l : LinkId) eq (w : BitVec 2) forced s, lnkState s l = 6 → w ≠ 3 → (getLink s l).ownReq = none → linkHeld s l = false →
    (isMaster s l = false → ∃ u, exec (.marginRetrainRequest l eq w forced) s = .next u ∧
      (getLink u l).ownReq = some { id := (getLink s l).nextId, eq := eq, width := w.toNat, forced := forced } ∧
      lnkState u l = 6 ∧ rd u (rLNK_STATUS l) fLNK_STATUS_PEND_REQ = (getLink s l).nextId % 256 ∧
      u = { s with regs := u.regs, links := u.links }) ∧
    (isMaster s l = true → ∃ u, exec (.marginRetrainRequest l eq w forced) s = .next u ∧ lnkState u l = 7 ∧
      (getLink u l).grant = some { absorbed := 0, eq := eq, width := w.toNat, forced := forced, start := 0 })) ∧
  -- at S the link trains; unacknowledged beads are discarded and counted
  (∀ (l : LinkId) s g, (getLink s l).grant = some g → lnkState s l = 7 → g.start ≠ 0 → g.start ≤ s.now →
    rd s (rLNK_LANE_MAP l) fLNK_LANE_MAP_MAP = 0x3210 →
    ∃ u, exec (.retrainStart l) s = .next u ∧ lnkState u l = 1 ∧ (getLink u l).ring = [] ∧ (getLink u l).rplq = [] ∧
      (getLink u l).reqWidth = g.width ∧ (getLink u l).txq = (getLink s l).txq ∧
      rd u (rLNK_DROP l) fLNK_DROP_DOWN_BEADS = min (rd s (rLNK_DROP l) fLNK_DROP_DOWN_BEADS +
        ((getLink s l).ring.filter fun b => decide ((getLink s l).txAck ≤ b.seq)).length) (2 ^ 32 - 1) ∧ u.mem = s.mem ∧ u.ctxs = s.ctxs) ∧
  -- a DOWN link tries again every second, with EQUALISE in full
  (∀ (l : LinkId) s, lnkState s l = 8 → rd s (rLNK_CTL l) fLNK_CTL_AUTO_RETRY = 1 → rd s (rLNK_CTL l) fLNK_CTL_ENABLE = 1 →
    (getLink s l).retryAt + 1200000000 ≤ s.now → rd s (rLNK_LANE_MAP l) fLNK_LANE_MAP_MAP = 0x3210 →
    ∃ u, exec (.autoRetry l) s = .next u ∧ lnkState u l = 1 ∧ (getLink u l).fullEq = true ∧ (getLink u l).retryAt = s.now ∧
      (getLink u l).reqWidth = rd s (rLNK_STATUS l) fLNK_STATUS_WIDTH ∧ u.mem = s.mem) ∧
  -- the states follow each other; the master is the end with the lower identifier
  (∀ (l : LinkId) r s, lnkState s l = 1 → ∃ u, exec (.trainingStateComplete l r) s = .next u ∧
    rd u (rLNK_STATUS l) fLNK_STATUS_MASTER = (if masterOver s r.gid.toNat r.hash then 1 else 0) ∧
    (lnkState u l = 2 ∨ lnkState u l = 3) ∧ ((getLink s l).fullEq = true ∨ r.equalise = true ∨ (getLink s l).coeff = none → lnkState u l = 2) ∧
    (∀ x, (getLink s l).fullEq = false → r.equalise = false → (getLink s l).coeff = some (x, r.hash) → lnkState u l = 3) ∧ u.mem = s.mem) ∧
  (∀ (l : LinkId) r s, (getLink s l).lanesOk ≠ 0 → (getLink s l).lanesOk &&& ~~~ r.lanes = 0 →
    (∀ i, i < 4 → tget (fun _ => 0) (getLink s l).laneFails i < 3) →
    (lnkState s l = 2 → ∃ u, exec (.trainingStateComplete l r) s = .next u ∧ lnkState u l = 3 ∧
      (getLink u l).coeff = some (r.coeff, r.hash) ∧ u.mem = s.mem) ∧
    (lnkState s l = 3 → ∃ u, exec (.trainingStateComplete l r) s = .next u ∧ lnkState u l = 4 ∧
      rd u (rLNK_STATUS l) fLNK_STATUS_LANE_OK = (getLink s l).lanesOk.toNat ∧
      rd u (rLNK_STATUS l) fLNK_STATUS_WIDTH = widthOf (getLink s l).lanesOk (getLink s l).reqWidth % 4 ∧
      rd u (rLNK_STATUS l) fLNK_STATUS_LOCK = 1 ∧ (getLink u l).ctrlq.length = 16 ∧ u.mem = s.mem)) ∧
  -- a lane that does not pass fails the attempt, and training starts again; it is left out after its third failure
  (∀ (l : LinkId) r s, lnkState s l = 2 ∨ lnkState s l = 3 → (getLink s l).lanesOk &&& ~~~ r.lanes ≠ 0 → (getLink s l).laneFails = [] →
    (getLink s l).attempts < 2 → (getLink s l).reqWidth < 3 →
    ∃ u, exec (.trainingStateComplete l r) s = .next u ∧ lnkState u l = 1 ∧ (getLink u l).lanesOk = (getLink s l).lanesOk ∧
      (getLink u l).attempts = (getLink s l).attempts + 1 ∧ u.mem = s.mem ∧
      (∀ i, i < 4 → (getLink s l).lanesOk.getLsbD i = true → r.lanes.getLsbD i = false → tget (fun _ => 0) (getLink u l).laneFails i = 1)) ∧
  (∀ (x : Link) (lanes : BitVec 4) i, i < 4 → lanes.getLsbD i = false → tget (fun _ => 0) x.laneFails i = 2 →
    (failLanes x lanes).lanesOk.getLsbD i = false) ∧
  (∀ (l : LinkId) r s, lnkState s l = 4 → ∃ u, exec (.trainingStateComplete l r) s = .next u ∧ lnkState u l = 5 ∧
    rd u (rLNK_HOP l) fLNK_HOP_RTT = ownRtt (getLink s l) % 2 ^ 16 ∧
    rd u (rLNK_HOP l) fLNK_HOP_HOP = (ownRtt (getLink s l) + 1) / 2 % 2 ^ 16 ∧ u.mem = s.mem) ∧
  (∀ (l : LinkId) r s, lnkState s l = 5 → s.cmds = [] → ∃ u, exec (.trainingStateComplete l r) s = .next u ∧ lnkState u l = 6 ∧
    (getLink u l).txSeq = 0 ∧ (getLink u l).rxNext = 0 ∧ (getLink u l).rxCum = 0 ∧ (getLink u l).rxAcc = [] ∧
    credits (getLink u l) = 256 ∧ u.mem = s.mem) ∧
  -- a state past its limit starts training again; after three attempts in which no lane failed the link narrows
  (∀ (l : LinkId) (lanes : BitVec 4) s, 1 ≤ lnkState s l → lnkState s l ≤ 5 →
    (getLink s l).stateAt + trainLimit (lnkState s l) ≤ s.now → (getLink s l).lanesOk = 15 → lanes = 15 → (getLink s l).laneFails = [] →
    (getLink s l).reqWidth < 2 →
    ∃ u, exec (.trainingStateLimit l lanes) s = .next u ∧ lnkState u l = 1 ∧ u.mem = s.mem ∧
      (getLink u l).attempts = (if 3 ≤ (getLink s l).attempts + 1 then 0 else (getLink s l).attempts + 1) ∧
      (getLink u l).reqWidth = (if 3 ≤ (getLink s l).attempts + 1 then (getLink s l).reqWidth + 1 else (getLink s l).reqWidth))

/-! ### Open traffic (chapter 7) -/

/-- A packet cut into beads and put together again is the packet: header, target word and payload (R175 to R177). Bead k carries
the packet from byte 312 k on, and the last one says so. -/
def Obligations.PacketsSurviveTheirBeads : Prop :=
  (∀ p : NiPkt, p.ok → pktOfBeads p.beads = p) ∧
  (∀ p : NiPkt, p.ok → p.beads.length = (16 + (if opResp p.op then 0 else 8) + 8 * p.dataLen + 311) / 312) ∧
  (∀ (p : NiPkt) k b, p.ok → p.beads[k]? = some b → fOffset b = 312 * k ∧ fAbort b = false ∧ (fLast b = true ↔ k + 1 = p.beads.length))

/-- The requester's side (R173, R174, R178, R179, R184, R186): REQUEST_ISSUE, RESPONSE_ARRIVAL, REQUEST_TIMEOUT, RETRY_RESEND,
RANK_CACHE_MISS and ROUTE_CACHE_MISS. -/
def Obligations.RequestsLeaveAndComplete : Prop :=
  -- a request to another module takes the next sequence of its rank and an outstanding entry, spends a token a bead, and carries
  -- the words of its local buffer unless it is a GET
  (∀ (c : CtxId) s d rest ws nb, tget (fun _ => []) s.reqq c = d :: rest → (getCtx s c).stopped = false → s.recPhase = 0 →
    s.outst.length < 8192 → ordMet s c d.word = true → descOk d.word = true → (dOp d.word = 1 ∨ NoFlaws s) → dMc d.word = false →
    rankCached s c (dDest d.word % 65536) = some ws → ws.length = 5 → getField ws 0 rkState = 1 →
    (getField ws 2 rkIssued + 2 ^ 32 - getField ws 2 rkDone) % 2 ^ 32 < 4096 → getField ws 0 rkGid ≠ ownGid s →
    nb = (24 + (if dOp d.word = 1 then 0 else 8 * dLen d.word) + 311) / 312 → nb ≤ getField ws 3 rkTokens →
    ∃ u o ws', exec (.requestIssue c) s = .next u ∧ u.outst = s.outst ++ [o] ∧ o.ctx = c ∧ o.rank = dDest d.word % 65536 ∧
      o.pkt.op = dOp d.word ∧ o.pkt.seq = getField ws 1 rkOutSeq ∧ o.pkt.dest = getField ws 0 rkGid ∧
      o.pkt.birth = s.now / 2 ^ 16 % 2 ^ 16 ∧ o.sent = s.now ∧
      o.pkt.data = (if dOp d.word = 1 then [] else (List.range (dLen d.word)).map fun i =>
        BitVec.ofNat 64 (memRead s (sramAddr (dTile d.word) (dU d.word) + 8 * i) 8)) ∧
      (tget (fun _ => []) u.reqq c).length = rest.length ∧
      rankCached u c (dDest d.word % 65536) = some ws' ∧ getField ws' 1 rkOutSeq = (getField ws 1 rkOutSeq + 1) % 2 ^ 24 ∧
      getField ws' 2 rkIssued = (getField ws 2 rkIssued + 1) % 2 ^ 32 ∧ getField ws' 3 rkTokens = getField ws 3 rkTokens - nb ∧
      rd u (rOPN_CTX_CNT c) fOPN_CTX_CNT_ISSUED = (rd s (rOPN_CTX_CNT c) fOPN_CTX_CNT_ISSUED + 1) % 2 ^ 32 ∧ u.mem = s.mem) ∧
  -- one to this module takes the local path, without tokens; outside the context's bounds it completes in error
  (∀ (c : CtxId) s d rest ws, tget (fun _ => []) s.reqq c = d :: rest → (getCtx s c).stopped = false → s.recPhase = 0 →
    s.outst.length < 8192 → ordMet s c d.word = true → dOp d.word = 1 → dMc d.word = false →
    rankCached s c (dDest d.word % 65536) = some ws → ws.length = 5 → getField ws 0 rkState = 1 →
    (getField ws 2 rkIssued + 2 ^ 32 - getField ws 2 rkDone) % 2 ^ 32 < 4096 → getField ws 0 rkGid = ownGid s →
    (tgtStatus s c (reqPkt s c d.word (ownGid s) (getField ws 1 rkOutSeq)).1 = 0 →
      ∃ u o i, exec (.requestIssue c) s = .next u ∧ u.outst = s.outst ++ [o] ∧ u.inb = s.inb ++ [i] ∧ i.pkt = o.pkt ∧ i.local_ = some o.key ∧
        i.needs = reqNeeds o.pkt ∧ u.niOut = s.niOut ∧ u.mem = s.mem) ∧
    (tgtStatus s c (reqPkt s c d.word (ownGid s) (getField ws 1 rkOutSeq)).1 ≠ 0 → purging (getCtx s c) = false →
      ∃ u, exec (.requestIssue c) s = .next u ∧ u.inb = s.inb ∧ (getCtx u c).plan = .faulted ∧ u.mem = s.mem)) ∧
  -- a multicast PUT waits for its group's route with an outstanding entry of its own
  (∀ (c : CtxId) s d rest, tget (fun _ => []) s.reqq c = d :: rest → (getCtx s c).stopped = false → s.recPhase = 0 →
    s.outst.length < 8192 → ordMet s c d.word = true → dOp d.word = 2 → dMc d.word = true → NoFlaws s → s.routeC = [] →
    tget (fun _ => false) s.retired (activeV s) = false →
    ∃ u o n, exec (.requestIssue c) s = .next u ∧ u.outst = s.outst ++ [o] ∧ o.pkt.mc = true ∧ o.pkt.dest = dDest d.word ∧
      u.niOut = s.niOut ++ [n] ∧ n.pkt = o.pkt ∧ n.req = some o.key ∧ u.mem = s.mem) ∧
  -- a stopped context issues nothing, and neither does the module in a device recovery
  (∀ (c : CtxId) s, (getCtx s c).stopped = true ∨ s.recPhase ≠ 0 → exec (.requestIssue c) s = .next s) ∧
  -- an invalid rank completes with NO_RANK and sends no packet
  (∀ (c : CtxId) s d rest ws, tget (fun _ => []) s.reqq c = d :: rest → (getCtx s c).stopped = false → s.recPhase = 0 →
    s.outst.length < 8192 → ordMet s c d.word = true → dOp d.word = 1 → dMc d.word = false →
    rankCached s c (dDest d.word % 65536) = some ws → getField ws 0 rkState ≠ 1 → purging (getCtx s c) = false →
    ∃ u, exec (.requestIssue c) s = .next u ∧ (getCtx u c).plan = .faulted ∧ u.niOut = s.niOut ∧ u.links = s.links ∧
      (tget (fun _ => []) u.reqq c).length = rest.length) ∧
  -- OK with data: the data is on its way to the buffer; OK without: the entry is freed and the increment enters the network
  (∀ (l : LinkId) s p c o, ResponseAt s l p c → p.gen = (getCtx s c).gen → matchOut s c p = some o →
    (p.ce = false ∨ (rankCached s c o.rank).isSome = true) →
    (p.status = 0 → p.data ≠ [] → ∃ u, exec (.responseArrival l) s = .next u ∧ u.outst = s.outst ∧ u.mem = s.mem ∧
      u.respW = s.respW ++ [{ key := o.key, loc := false, at_ := s.now, addr := sramAddr (dTile o.desc.word) (dU o.desc.word), data := p.data
                              needs := accessesOf (sramAddr (dTile o.desc.word) (dU o.desc.word)) (8 * p.data.length) true }] ∧
      -- an echo is counted in its Rank entry
      (∀ ws, p.ce = true → rankCached s c o.rank = some ws → ws.length = 5 → s.echoed.contains (65536 * c.val + o.rank) = true →
        ∃ v, rankCached u c o.rank = some v ∧ getField v 4 rkEcho = min (getField ws 4 rkEcho + 1) 0xFFFF)) ∧
    (p.status = 0 → p.data = [] → ∀ r, ctrRefOf (dSc o.desc.word) (dTarget o.desc.word) (dTile o.desc.word) = some r →
      ∃ u, exec (.responseArrival l) s = .next u ∧ u.outst = s.outst.filter (fun e => decide (e.key ≠ o.key)) ∧
        u.syncNet = s.syncNet ++ [{ due := s.now + 1 + 8, ctr := r, op := .inc (dAmount o.desc.word) }] ∧
        rd u (rOPN_CTX_CNT o.ctx) fOPN_CTX_CNT_DONE = (rd s (rOPN_CTX_CNT o.ctx) fOPN_CTX_CNT_DONE + 1) % 2 ^ 32) ∧
    -- RETRY: sent again 2,048 ticks later
    (p.status = 1 → ∃ u, exec (.responseArrival l) s = .next u ∧ u.outst = s.outst.map fun e =>
      if e.key = o.key then { e with resend := some (s.now + 2048) } else e) ∧
    -- an error status faults its context, and no counter moves
    (2 ≤ p.status → purging (getCtx s o.ctx) = false → ∃ u, exec (.responseArrival l) s = .next u ∧
      u.outst = s.outst.filter (fun e => decide (e.key ≠ o.key)) ∧ (getCtx u o.ctx).plan = .faulted ∧ u.syncNet = s.syncNet)) ∧
  -- an old generation, and a response nothing waits for
  (∀ (l : LinkId) s p c, ResponseAt s l p c → p.gen ≠ (getCtx s c).gen → ∃ u, exec (.responseArrival l) s = .next u ∧
    rd u rOPN_DROP2 fOPN_DROP2_STALE_GEN = min (rd s rOPN_DROP2 fOPN_DROP2_STALE_GEN + 1) (2 ^ 32 - 1) ∧
    u = { s with regs := u.regs, links := u.links }) ∧
  (∀ (l : LinkId) s p c, ResponseAt s l p c → p.gen = (getCtx s c).gen → matchOut s c p = none → ∃ u, exec (.responseArrival l) s = .next u ∧
    rd u rOPN_DROP3 fOPN_DROP3_ORPHAN = min (rd s rOPN_DROP3 fOPN_DROP3_ORPHAN + 1) (2 ^ 32 - 1) ∧
    u = { s with regs := u.regs, links := u.links }) ∧
  -- a request without a response completes with TIMEOUT 1,200,000 ticks after its injection
  (∀ s o, o ∈ s.outst → o.sent + 1200000 ≤ s.now → (∀ r, r ∈ s.respW → r.key ≠ o.key) →
    ∃ u, exec .requestTimeout s = .next u ∧ (∀ e, e ∈ u.outst → e.key ≠ o.key) ∧
      (purging (getCtx s o.ctx) = false → (getCtx u o.ctx).plan = .faulted) ∧ u.syncNet = s.syncNet) ∧
  (∀ s, (∀ o, o ∈ s.outst → s.now < o.sent + 1200000) → exec .requestTimeout s = .next s) ∧
  -- the resent request keeps its sequence and birth, and spends its tokens
  (∀ s o ws, s.outst.find? (mayResend s) = some o → o.pkt.mc = false → expired s o.pkt.birth = false →
    tget (fun _ => false) s.retired (activeV s) = false → s.routeC = [] → rankCached s o.ctx o.rank = some ws → ws.length = 5 →
    ∃ u n v, exec .retryResend s = .next u ∧ u = { s with outst := u.outst, niOut := u.niOut, rankC := u.rankC } ∧
      u.outst = s.outst.map (fun e => if e.key = o.key then { e with resend := none } else e) ∧
      u.niOut = s.niOut ++ [n] ∧ n.pkt.seq = o.pkt.seq ∧ n.pkt.birth = o.pkt.birth ∧ n.pkt.data = o.pkt.data ∧ n.req = some o.key ∧
      rankCached u o.ctx o.rank = some v ∧ getField v 3 rkTokens = getField ws 3 rkTokens - beadsOf o.pkt.bytes) ∧
  (∀ s, s.outst.find? (mayResend s) = none → exec .retryResend s = .next s) ∧
  -- a miss reads the entry in a free period of its channel
  (∀ (c : CtxId) (r : BitVec 16) s, rankCached s c r.toNat = none → chanFree s (chanOf (rankAddr c r.toNat)) = true → s.rankC.length < 4096 →
    NoFlaws s → (∀ w, w ∈ s.rankQ → ¬ (w.ctx = c ∧ w.rank = r.toNat)) → ∃ u, exec (.rankCacheMiss c r) s = .next u ∧ rankCached u c r.toNat =
        some ((List.range 5).map fun i => BitVec.ofNat 64 (memRead s (rankAddr c r.toNat + 8 * i) 8)) ∧ u.mem = s.mem ∧ u.rankQ = s.rankQ ∧
      rd u rOPN_CACHE fOPN_CACHE_RANK_MISS = min (rd s rOPN_CACHE fOPN_CACHE_RANK_MISS + 1) (2 ^ 32 - 1)) ∧
  -- what waited for the entry goes on with it
  (∀ (c : CtxId) (r : BitVec 16) s, rankCached s c r.toNat = none → chanFree s (chanOf (rankAddr c r.toNat)) = true → s.rankC.length < 4096 →
    NoFlaws s → s.rankQ = [{ ctx := c, rank := r.toNat, work := .note .done }] →
    ∃ u v, exec (.rankCacheMiss c r) s = .next u ∧ u.rankQ = [] ∧ rankCached u c r.toNat = some v ∧
      getField v 2 rkDone = (memRead s (rankAddr c r.toNat + 16) 8 % 2 ^ 32 + 1) % 2 ^ 32) ∧
  (∀ (c : CtxId) (r : BitVec 16) s, (rankCached s c r.toNat).isSome = true ∨ chanFree s (chanOf (rankAddr c r.toNat)) = false →
    exec (.rankCacheMiss c r) s = .next s) ∧
  (∀ v (id : BitVec 20) s, routeCached s (verOf v) id.toNat = none → s.recPhase = 0 → rd s rOPN_RT_BASE fOPN_RT_BASE_BASE = tableAddr 0 →
    chanFree s (chanOf (tableAddr (0x800000 * verOf v + 8 * id.toNat))) = true → s.routeC.length < 65536 → s.niOut = [] → NoFlaws s →
    ∃ u, exec (.routeCacheMiss v id) s = .next u ∧
      routeCached u (verOf v) id.toNat = some (BitVec.ofNat 64 (memRead s (tableAddr (0x800000 * verOf v + 8 * id.toNat)) 8)) ∧ u.mem = s.mem ∧
      rd u rOPN_CACHE fOPN_CACHE_RT_MISS = min (rd s rOPN_CACHE fOPN_CACHE_RT_MISS + 1) (2 ^ 32 - 1))

/-- At each hop and at the destination (R176, R180 to R185, R188 to R191): PACKET_HEAD_ROUTE, REQUEST_ARRIVAL, REQUEST_EXECUTE,
OPEN_PACKET_LIFETIME_EXPIRY, RATE_WINDOW and CONGESTION_WINDOW. -/
def Obligations.PacketsAreRoutedAndServed : Prop :=
  -- a packet for another module is routed once per hop, or discarded whole and counted
  (∀ (l : LinkId) s p w, frontPkt s l = some (p, w) → (getLink s l).route = none → opKnown p.op = true → p.mc = false → p.dest ≠ ownGid s →
    (∀ o, routeOf s p = .go [o] false → l ≠ o → ∃ u, exec (.packetHeadRoute l) s = .next u ∧
      (getLink u l).route = some { outs := [o], mc := false, nb := beadsOf p.bytes, loc := false } ∧
      (∃ j, (getLink u o).txq = (getLink s o).txq ++ [j] ∧ j.src = some l ∧ j.nb = beadsOf p.bytes) ∧
      u = { s with links := u.links, regs := u.regs }) ∧
    (∀ off f, routeOf s p = .drop off f → ∃ u, exec (.packetHeadRoute l) s = .next u ∧
      (getLink u l).obuf = (getLink s l).obuf.drop (frontBeads s l).1.length ∧ (getLink u l).route = none ∧
      u = { s with links := u.links, regs := u.regs }) ∧
    (routeOf s p = .wait → exec (.packetHeadRoute l) s = .next s)) ∧
  -- a multicast packet leaves a copy on every link of its tree
  (∀ (l : LinkId) s p w outs loc, frontPkt s l = some (p, w) → (getLink s l).route = none → opKnown p.op = true → p.mc = true →
    routeOf s p = .go outs loc → outs ≠ [] → outs.Nodup → l ∉ outs → (∀ o, o ∈ outs → portOf s o < 8 ∧ openLink s o = true) →
    ∃ u, exec (.packetHeadRoute l) s = .next u ∧ (getLink u l).route = some { outs := outs, mc := true, nb := beadsOf p.bytes, loc := loc } ∧
      (∀ o, o ∈ outs → ∃ j, (getLink u o).txq = (getLink s o).txq ++ [j] ∧ j.src = some l ∧ j.mc = true) ∧
      u = { s with links := u.links, regs := u.regs }) ∧
  -- what routing answers: an expired packet, a retired version, no entry, and the flow's fixed choice of port and link
  (∀ s p, (expired s p.birth = true → routeOf s p = .drop rOPN_DROP0 fOPN_DROP0_EXPIRED) ∧
    (expired s p.birth = false → tget (fun _ => false) s.retired (verOf p.ep) = true → routeOf s p = .drop rOPN_DROP1 fOPN_DROP1_OLD_EPOCH) ∧
    (∀ e l, expired s p.birth = false → tget (fun _ => false) s.retired (verOf p.ep) = false → p.mc = false →
      routeCached s (verOf p.ep) p.dest = some e → e.getLsbD 63 = true → e.getLsbD 62 = false → candPorts s e ≠ [] →
      (rd s rOPN_BAL fOPN_BAL_ENABLE = 0 ∨ p.dm = true) →
      (portLinks s ((candPorts s e).getD (flowHash p % (candPorts s e).length) 0))[flowHash p / 256 %
        (portLinks s ((candPorts s e).getD (flowHash p % (candPorts s e).length) 0)).length]? = some l →
      routeOf s p = .go [l] false)) ∧
  -- a request in its window and bounds is accepted, with the accesses it needs; INB_HIGH follows a sequence ahead
  (∀ (l : LinkId) s p (c : CtxId) ws, RequestAt s l p → jobCtx s p.job = some c → rankCached s c (p.srank % 65536) = some ws → ws.length = 5 →
    (p.seq + 2 ^ 24 - getField ws 1 rkInbHigh) % 2 ^ 24 ≤ 4095 → p.seq < 2 ^ 24 → tgtStatus s c p = 0 → storeRoom s p = true →
    ∃ u v, exec (.requestArrival l) s = .next u ∧ u = { s with links := u.links, regs := u.regs, inb := u.inb, rankC := u.rankC } ∧
      u.inb = s.inb ++ [{ pkt := p, ctx := some c, at_ := s.now, local_ := none, needs := reqNeeds p }] ∧
      rankCached u c (p.srank % 65536) = some v ∧ getField v 1 rkInbHigh = p.seq) ∧
  -- one behind it, but within 4,095, leaves INB_HIGH as it is
  (∀ (l : LinkId) s p (c : CtxId) ws, RequestAt s l p → jobCtx s p.job = some c → rankCached s c (p.srank % 65536) = some ws →
    4095 < (p.seq + 2 ^ 24 - getField ws 1 rkInbHigh) % 2 ^ 24 → (getField ws 1 rkInbHigh + 2 ^ 24 - p.seq) % 2 ^ 24 ≤ 4095 →
    tgtStatus s c p = 0 → storeRoom s p = true →
    ∃ u, exec (.requestArrival l) s = .next u ∧ u = { s with links := u.links, regs := u.regs, inb := u.inb } ∧
      u.inb = s.inb ++ [{ pkt := p, ctx := some c, at_ := s.now, local_ := none, needs := reqNeeds p }]) ∧
  -- one whose rank's entry is not in the cache waits for it
  (∀ (l : LinkId) s p (c : CtxId), RequestAt s l p → jobCtx s p.job = some c → rankCached s c (p.srank % 65536) = none →
    ∃ u, exec (.requestArrival l) s = .next u ∧ u = { s with links := u.links, regs := u.regs, rankQ := u.rankQ } ∧
      u.rankQ = s.rankQ ++ [{ ctx := c, rank := p.srank % 65536, work := .req p }]) ∧
  -- the status of a target: 6 outside data space, 2 outside the context's bounds
  (∀ s (c : CtxId) p, tgtStatus s c p = (if bits p.tgt 43 41 ≠ 0 ∨ inDataSpace (bits p.tgt 40 0) (tgtBytes p) = false then 6
    else if inBounds s c (bits p.tgt 40 0) (tgtBytes p) then 0 else 2)) ∧
  -- no context holds its job, it leaves its context's bounds, or the store is full: an error response, and nothing is stored
  (∀ (l : LinkId) s p (c : CtxId) ws, RequestAt s l p → p.job ≠ 0 → jobCtx s p.job = some c → rankCached s c (p.srank % 65536) = some ws →
    getField ws 1 rkInbHigh = p.seq → s.routeC = [] → tget (fun _ => false) s.retired (activeV s) = false →
    (tgtStatus s c p ≠ 0 → ∃ u n, exec (.requestArrival l) s = .next u ∧ u.inb = s.inb ∧ u.mem = s.mem ∧ u.niOut = s.niOut ++ [n] ∧
      n.pkt.op = 0x20 ∧ n.pkt.status = tgtStatus s c p ∧ n.pkt.seq = p.seq ∧ n.pkt.birth = p.birth ∧ n.pkt.ce = p.cm ∧
      n.pkt.dest = getField ws 0 rkGid) ∧
    (tgtStatus s c p = 0 → storeRoom s p = false → retryUse s < 64 → ∃ u n, exec (.requestArrival l) s = .next u ∧ u.inb = s.inb ∧
      u.mem = s.mem ∧ u.niOut = s.niOut ++ [n] ∧ n.pkt.op = 0x20 ∧ n.pkt.status = 1 ∧ n.retry = true ∧ n.pkt.seq = p.seq ∧
      n.pkt.dest = getField ws 0 rkGid)) ∧
  (∀ (l : LinkId) s p, RequestAt s l p → jobCtx s p.job = none → p.job ≠ 0 → s.routeC = [] →
    tget (fun _ => false) s.retired (activeV s) = false →
    ∃ u n, exec (.requestArrival l) s = .next u ∧ u.inb = s.inb ∧ u.mem = s.mem ∧ u.niOut = s.niOut ++ [n] ∧ n.pkt.status = 3 ∧
      n.pkt.seq = p.seq) ∧
  -- a sequence more than 4,095 from INB_HIGH is discarded
  (∀ (l : LinkId) s p (c : CtxId) ws, RequestAt s l p → jobCtx s p.job = some c → rankCached s c (p.srank % 65536) = some ws →
    4095 < (p.seq + 2 ^ 24 - getField ws 1 rkInbHigh) % 2 ^ 24 → 4095 < (getField ws 1 rkInbHigh + 2 ^ 24 - p.seq) % 2 ^ 24 →
    ∃ u, exec (.requestArrival l) s = .next u ∧ u.inb = s.inb ∧ u.niOut = s.niOut ∧
      rd u rOPN_DROP2 fOPN_DROP2_SEQ_WINDOW = min (rd s rOPN_DROP2 fOPN_DROP2_SEQ_WINDOW + 1) (2 ^ 32 - 1)) ∧
  -- execution: a PUT writes its payload, a GET returns memory, an atomic acts on each unit in turn
  (∀ s i is, s.inb = i :: is → i.needs = [] → i.local_ = none → expired s i.pkt.birth = false → i.pkt.ok → i.pkt.mc = false → NoFlaws s →
    i.pkt.job ≠ 0 → (∀ c : CtxId, i.ctx = some c → (rankCached s c (i.pkt.srank % 65536)).isSome = true) →
    s.routeC = [] → tget (fun _ => false) s.retired (activeV s) = false → 1 ≤ i.pkt.len →
    (i.pkt.op = 2 → ∃ u n, exec .requestExecute s = .next u ∧ u.inb = is ∧ u.niOut = s.niOut ++ [n] ∧ n.pkt.status = 0 ∧ n.pkt.data = [] ∧
      (∀ k, k < i.pkt.len → memRead u (bits i.pkt.tgt 40 0 + 8 * k) 8 = (i.pkt.data.getD k 0).toNat) ∧
      (∀ a, a < bits i.pkt.tgt 40 0 ∨ bits i.pkt.tgt 40 0 + 8 * i.pkt.len ≤ a → memByte u a = memByte s a)) ∧
    (i.pkt.op = 1 → ∃ u n, exec .requestExecute s = .next u ∧ u.inb = is ∧ u.niOut = s.niOut ++ [n] ∧ n.pkt.status = 0 ∧ u.mem = s.mem ∧
      n.pkt.data = (List.range i.pkt.len).map fun k => BitVec.ofNat 64 (memRead s (bits i.pkt.tgt 40 0 + 8 * k) 8)) ∧
    ((i.pkt.op = 8 ∨ i.pkt.op = 9 ∨ (i.pkt.op = 0xA ∧ i.pkt.dm = false) ∨ (0xB ≤ i.pkt.op ∧ i.pkt.op ≤ 0xE)) →
      ∃ u n, exec .requestExecute s = .next u ∧ u.inb = is ∧ u.niOut = s.niOut ++ [n] ∧ n.pkt.status = 0 ∧
      (∀ k, k < i.pkt.len → memRead u (bits i.pkt.tgt 40 0 + 8 * k) 8 =
        (atomicUnit i.pkt.op (BitVec.ofNat 64 (memRead s (bits i.pkt.tgt 40 0 + 8 * k) 8)) (i.pkt.data.getD k 0)).toNat) ∧
      (i.pkt.len = 1 → n.pkt.data = [BitVec.ofNat 64 (memRead s (bits i.pkt.tgt 40 0) 8)]) ∧
      (∀ a, a < bits i.pkt.tgt 40 0 ∨ bits i.pkt.tgt 40 0 + 8 * i.pkt.len ≤ a → memByte u a = memByte s a)) ∧
    (i.pkt.op = 0xF → ∃ u n, exec .requestExecute s = .next u ∧ u.inb = is ∧ u.niOut = s.niOut ++ [n] ∧
      n.pkt.data = [BitVec.ofNat 64 (memRead s (bits i.pkt.tgt 40 0) 8)] ∧
      memRead u (bits i.pkt.tgt 40 0) 8 = (if memRead s (bits i.pkt.tgt 40 0) 8 = (i.pkt.data.getD 0 0).toNat then (i.pkt.data.getD 1 0).toNat
        else memRead s (bits i.pkt.tgt 40 0) 8)) ∧
    -- an AFADD32 in Alloy form adds every lane, or none where a lane does not fit its exponent or its sum
    (i.pkt.op = 0xA → i.pkt.dm = true → ∀ old, old = (List.range (2 * i.pkt.len)).map (fun k => BitVec.ofNat 64 (memRead s (bits i.pkt.tgt 40 0 + 8 * k) 8)) →
      (∀ ws, alloyAdd (BitVec.ofNat 16 (bits i.pkt.tgt 63 48)).toInt old i.pkt.data = some ws → ∃ u n, exec .requestExecute s = .next u ∧
        u.inb = is ∧ u.niOut = s.niOut ++ [n] ∧ n.pkt.status = 0 ∧
        ∀ k, k < 2 * i.pkt.len → memRead u (bits i.pkt.tgt 40 0 + 8 * k) 8 = (ws.getD k 0).toNat) ∧
      (alloyAdd (BitVec.ofNat 16 (bits i.pkt.tgt 63 48)).toInt old i.pkt.data = none → ∃ u n, exec .requestExecute s = .next u ∧
        u.inb = is ∧ u.niOut = s.niOut ++ [n] ∧ n.pkt.status = 4 ∧ u.mem = s.mem))) ∧
  -- a request waits for one accepted before it that uses a unit of its
  (∀ s i j, s.inb = [i, j] → i.needs ≠ [] → j.needs = [] → i.pkt.op ≠ 0x30 → j.pkt.op ≠ 0x30 → shareUnit j.pkt i.pkt = true →
    exec .requestExecute s = .next s) ∧
  -- a request older than its lifetime is discarded unexecuted; a host read not served within it completes with Completer Abort
  (∀ s i, s.inb = [i] → i.local_ = none → expired s i.pkt.birth = true → s.respW = [] → s.hostAcc = [] → s.rankQ = [] →
    ∃ u, exec .openPacketLifetimeExpiry s = .next u ∧ u = { s with inb := [], regs := u.regs } ∧
      rd u rOPN_DROP0 fOPN_DROP0_EXPIRED = min (rd s rOPN_DROP0 fOPN_DROP0_EXPIRED + 1) (2 ^ 32 - 1)) ∧
  (∀ s a fn tag, s.hostAcc = [a] → a.who = .barRead fn tag → a.at_ + 1200000 ≤ s.now → s.inb = [] → s.respW = [] → s.rankQ = [] →
    ∃ u, exec .openPacketLifetimeExpiry s = .next u ∧ u = { s with hostAcc := [], regs := u.regs, outs := .completion fn tag 2 0 :: s.outs }) ∧
  (∀ s r, s.respW = [r] → r.at_ + 1200000 ≤ s.now → s.inb = [] → s.hostAcc = [] → s.rankQ = [] →
    ∃ u, exec .openPacketLifetimeExpiry s = .next u ∧ u.respW = [] ∧ u.mem = s.mem ∧
      ∀ o, s.outst = [o] → o.key = r.key → o.rank < 65536 → purging (getCtx s o.ctx) = false →
        (rankCached s o.ctx o.rank).isSome = true → (getCtx u o.ctx).plan = .faulted ∧ u.outst = []) ∧
  -- the token bucket of a cached rank, once per window of 1,024 ticks
  (∀ s (c : CtxId) r ws, s.rateWin < s.now / 1024 → r < 65536 → rankCached s c r = some ws → ws.length = 5 → getField ws 0 rkState = 1 →
    s.echoed.contains (65536 * c.val + r) = false → getField ws 3 rkTokens ≤ max (getField ws 3 rkRate) 14 →
    ∃ u v, exec .rateWindow s = .next u ∧ u.rateWin = s.now / 1024 ∧ u.echoed = [] ∧ rankCached u c r = some v ∧
      getField v 3 rkTokens = min (getField ws 3 rkTokens + getField ws 3 rkRate) (max (getField ws 3 rkRate) 14) ∧
      (getField ws 3 rkCalm + 1 < rd s rOPN_CC_CTL fOPN_CC_CTL_INC_PERIOD →
        getField v 3 rkCalm = (getField ws 3 rkCalm + 1) ∧ getField v 3 rkRate = getField ws 3 rkRate) ∧
      (rd s rOPN_CC_CTL fOPN_CC_CTL_INC_PERIOD ≤ getField ws 3 rkCalm + 1 → getField v 3 rkCalm = 0 ∧
        getField v 3 rkRate = min 1024 (getField ws 3 rkRate + rd s rOPN_CC_CTL fOPN_CC_CTL_INC_STEP))) ∧
  -- the congestion map's entry is cleared as its window begins, and PEAK starts from the beads queued then
  (∀ s, s.congWin < s.now / 76800 → ∃ u, exec .congestionWindow s = .next u ∧ u = { s with regs := u.regs, congWin := s.now / 76800 } ∧
    (∀ p, p < 8 → rd u (rOPN_CMAP (s.now / 76800 % 256) p) fOPN_CMAP_BEADS = 0 ∧ rd u (rOPN_CMAP (s.now / 76800 % 256) p) fOPN_CMAP_MARKS = 0 ∧
      rd u (rOPN_CMAP (s.now / 76800 % 256) p) fOPN_CMAP_PEAK = min (portBeads s p) (2 ^ 16 - 1)) ∧
    (∀ o, (∀ p, p < 8 → o ≠ rOPN_CMAP (s.now / 76800 % 256) p) → regGet u o = regGet s o))

/-! ### Clock zones and time (chapters 8 and 9) -/

/-- A zone changes step by stopping, and its delivered cycles are held against its floor (R198, R203, R205, R206, R208 to R210):
TEMPER_DECISION, ZONE_VOLTAGE_GOOD, ZONE_STOP, ZONE_DIVIDER_SWITCH, ZONE_RESTART, DROOP_STRETCH, ZONE_WINDOW_CHECK, FORCED_SHED
and ROOT_PLL_LOCK_LOSS. -/
def Obligations.ZonesStepWithinTheirFloors : Prop :=
  -- no choice is faster than the cap or slower than the floor, and none is a step that failed calibration
  (∀ s (z : ZoneId) k, temperChoice s z = some k → stepOk s z k = true ∧ k < 5 ∧
    (zoneStep s z < k → k ≤ floorStep s z) ∧ (k < zoneStep s z → capStep s z ≤ k) ∧ k ≠ zoneStep s z) ∧
  -- the rows of the table, for a zone within its cap and floor: hot or often stretched, one step slower; cool, quiet and under the
  -- power limit, one step faster; otherwise hold
  (∀ s (z : ZoneId), zoneStep s z ≤ floorStep s z → capStep s z ≤ zoneStep s z →
    ((16 * rd s rCLK_TEMPER fCLK_TEMPER_T_HI : Int) ≤ (getZone s z).temp ∨ rd s rCLK_TEMPER fCLK_TEMPER_DROOP_HI ≤ stretchN (getZone s z) s.now →
      temperChoice s z = (slowerOk s z (zoneStep s z)).filter fun k => decide (k ≤ floorStep s z)) ∧
    ((getZone s z).temp < (16 * rd s rCLK_TEMPER fCLK_TEMPER_T_HI : Int) → stretchN (getZone s z) s.now < rd s rCLK_TEMPER fCLK_TEMPER_DROOP_HI →
      powerUnder s = true → supplyShed s = false →
      ((getZone s z).temp ≤ (16 * rd s rCLK_TEMPER fCLK_TEMPER_T_LO : Int) → 4 * stretchN (getZone s z) s.now < rd s rCLK_TEMPER fCLK_TEMPER_DROOP_HI →
        temperChoice s z = (fasterOk s z (zoneStep s z)).filter fun k => decide (capStep s z ≤ k)) ∧
      ((16 * rd s rCLK_TEMPER fCLK_TEMPER_T_LO : Int) < (getZone s z).temp ∨ rd s rCLK_TEMPER fCLK_TEMPER_DROOP_HI ≤ 4 * stretchN (getZone s z) s.now →
        temperChoice s z = none))) ∧
  -- a choice that every window allows starts: a faster step waits for its voltage, a slower one stops at the next boundary
  (∀ (z : ZoneId) s k, (getZone s z).decided = 0 ∨ ((getZone s z).decided - 1) / 64 < s.now / 64 → (getZone s z).change = none →
    zoneDeep s z = false → (getZone s z).lastChange = 0 ∨ (getZone s z).lastChange + 4096 ≤ s.now + 1 →
    supplyShed s = false ∨ floorStep s z ≤ zoneStep s z → temperChoice s z = some k →
    (changePasses s z k = true → ∃ u, exec (.temperDecision z) s = .next u ∧ u = { s with zones := u.zones } ∧ (getZone u z).target = k ∧
      (getZone u z).decided = s.now + 1 ∧ (∀ y : ZoneId, y ≠ z → getZone u y = getZone s y) ∧
      (zoneStep s z < k → (getZone u z).change = some .toStop ∧ (getZone u z).volt = (getZone s z).volt) ∧
      (k < zoneStep s z → (getZone u z).volt = voltOf s z k ∧ ∃ t, (getZone u z).change = some (.voltage t) ∧ t ≤ s.now + 26400)) ∧
    (changePasses s z k = false → exec (.temperDecision z) s = .next (setZone s z { getZone s z with decided := s.now + 1 }))) ∧
  -- while a supply shed lasts, a zone faster than its floor goes to it (R351)
  (∀ (z : ZoneId) s, (getZone s z).decided = 0 ∨ ((getZone s z).decided - 1) / 64 < s.now / 64 → (getZone s z).change = none →
    zoneDeep s z = false → (getZone s z).lastChange = 0 ∨ (getZone s z).lastChange + 4096 ≤ s.now + 1 →
    supplyShed s = true → zoneStep s z < floorStep s z → ∃ u, exec (.temperDecision z) s = .next u ∧ u = { s with zones := u.zones } ∧
      (getZone u z).target = floorStep s z ∧ (getZone u z).change = some .toStop) ∧
  -- with no choice, in a change or within 4,096 ticks of the last one the zone holds; a decision comes every 64 ticks
  (∀ (z : ZoneId) s, (getZone s z).decided = 0 ∨ ((getZone s z).decided - 1) / 64 < s.now / 64 →
    (getZone s z).change ≠ none ∨ zoneDeep s z = true ∨ ((getZone s z).lastChange ≠ 0 ∧ s.now + 1 < (getZone s z).lastChange + 4096) ∨
      ((supplyShed s = false ∨ floorStep s z ≤ zoneStep s z) ∧ temperChoice s z = none) →
    exec (.temperDecision z) s = .next (setZone s z { getZone s z with decided := s.now + 1 })) ∧
  (∀ (z : ZoneId) s, (getZone s z).decided ≠ 0 → s.now / 64 ≤ ((getZone s z).decided - 1) / 64 → exec (.temperDecision z) s = .next s) ∧
  -- voltage good, stop at a multiple of 4, switch 16 ticks in, restart 32 ticks in
  (∀ (z : ZoneId) s, (∀ t, (getZone s z).change = some (.voltage t) →
      exec (.zoneVoltageGood z) s = .next (setZone s z { getZone s z with change := some .toStop })) ∧
    ((∀ t, (getZone s z).change ≠ some (.voltage t)) → exec (.zoneVoltageGood z) s = .next s)) ∧
  -- at the stop the zone's tiles run the cc of an edge on the tick itself, and its later edges of the tick are withdrawn
  (∀ (z : ZoneId) s s1, (getZone s z).change = some .toStop → s.now % 4 = 0 → zoneStopped s z = false →
    s1 = runZone (setEdges s z (if (getZone s z).edge0 then 1 else 0)) z →
    ∃ u, exec (.zoneStop z) s = .next u ∧ zoneStopped u z = true ∧ (getZone u z).change = some (.stopped s.now) ∧
      (getZone u z).lastChange = s.now + 1 ∧ zoneStep u z = zoneStep s1 z ∧ u = { s1 with zones := u.zones, regs := u.regs }) ∧
  (∀ (z : ZoneId) s n, zoneIdle s z = false →
    regGet (setEdges s z n) (rCLK_ZONE_CC z) = regGet s (rCLK_ZONE_CC z) + BitVec.ofNat 64 n - BitVec.ofNat 64 (getZone s z).n0 ∧
    (getZone (setEdges s z n) z).edges = (getZone s z).edges + n - (getZone s z).n0 ∧ (getZone (setEdges s z n) z).n0 = n ∧
    setEdges s z n = { s with zones := (setEdges s z n).zones, regs := (setEdges s z n).regs }) ∧
  (∀ (z : ZoneId) s, (getZone s z).change ≠ some .toStop ∨ s.now % 4 ≠ 0 ∨ zoneStopped s z = true → exec (.zoneStop z) s = .next s) ∧
  (∀ (z : ZoneId) s t0, (getZone s z).change = some (.stopped t0) →
    (t0 + 16 ≤ s.now → (getZone s z).target < 5 → ∃ u, exec (.zoneDividerSwitch z) s = .next u ∧ zoneStep u z = (getZone s z).target ∧
      (getZone u z).change = some (.switched t0) ∧ zoneStopped u z = zoneStopped s z ∧ u = { s with zones := u.zones, regs := u.regs }) ∧
    (s.now < t0 + 16 → exec (.zoneDividerSwitch z) s = .next s)) ∧
  (∀ (z : ZoneId) s t0, (getZone s z).change = some (.switched t0) →
    (t0 + 32 ≤ s.now → (getZone s z).shed = false → ∃ u, exec (.zoneRestart z) s = .next u ∧ zoneStopped u z = false ∧
      (getZone u z).change = none ∧ zoneStep u z = zoneStep s z ∧ (getZone u z).volt = voltOf s z (getZone s z).target ∧
      (getZone u z).edge0 = true ∧ (getZone u z).n0 = (edgesIn (getZone s z).target 0 0 0 false).n ∧
      u = { s with zones := u.zones, regs := u.regs }) ∧
    -- a shed that met the stop follows at once
    (t0 + 32 ≤ s.now → (getZone s z).shed = true → zoneDeep s z = false → zoneStep s z < floorStep s z →
      ∃ u, exec (.zoneRestart z) s = .next u ∧ zoneStopped u z = false ∧ (getZone u z).change = some .toStop ∧
        (getZone u z).target = floorStep s z ∧ (getZone u z).shed = false) ∧
    (s.now < t0 + 32 → exec (.zoneRestart z) s = .next s)) ∧
  -- a stretch lengthens a period of the tick once and counts it; when every period of the tick is, no further one is
  (∀ (z : ZoneId) s, zoneStopped s z = false → zoneIdle s z = false →
    ((getZone s z).stretchNow = false → ∃ u, exec (.droopStretch z) s = .next u ∧ (getZone u z).strN = (getZone s z).strN + 1 ∧
      (getZone u z).phase = (edgesIn (zoneStep s z) ((getZone s z).strN + 1) (getZone s z).ph0 (getZone s z).pat0 (getZone s z).str0).ph ∧
      (getZone u z).n0 = min (edgesIn (zoneStep s z) ((getZone s z).strN + 1) (getZone s z).ph0 (getZone s z).pat0 (getZone s z).str0).n (getZone s z).n0 ∧
      (getZone u z).stretchNow = (edgesIn (zoneStep s z) ((getZone s z).strN + 1) (getZone s z).ph0 (getZone s z).pat0 (getZone s z).str0).str ∧
      rd u (rCLK_ZONE_STRETCH z) fCLK_ZONE_STRETCH_COUNT = min (rd s (rCLK_ZONE_STRETCH z) fCLK_ZONE_STRETCH_COUNT + 1) (2 ^ 32 - 1) ∧
      s.now ∈ (getZone u z).stretches ∧ u = { s with zones := u.zones, regs := u.regs }) ∧
    ((getZone s z).stretchNow = true → exec (.droopStretch z) s = .next s)) ∧
  (∀ (z : ZoneId) s, zoneStopped s z = true ∨ zoneIdle s z = true → exec (.droopStretch z) s = .next s) ∧
  -- one stretch more delays the next edge after the tick, or the last one in it, and every later one by 2 rp
  (∀ st pat ph k, st < 5 → pat < patLen st → ph < 9 → k < 3 → ∀ cur, (edgesIn st k ph pat cur).str = false →
    ((edgesIn st (k + 1) ph pat cur).n = (edgesIn st k ph pat cur).n ∧ (edgesIn st (k + 1) ph pat cur).ph = (edgesIn st k ph pat cur).ph + 2 ∧
      (edgesIn st (k + 1) ph pat cur).pat = (edgesIn st k ph pat cur).pat) ∨
    ((edgesIn st (k + 1) ph pat cur).n + 1 = (edgesIn st k ph pat cur).n ∧
      (edgesIn st (k + 1) ph pat cur).ph + periodOf st (edgesIn st (k + 1) ph pat cur).pat = (edgesIn st k ph pat cur).ph + 2 ∧
      ((edgesIn st (k + 1) ph pat cur).pat + 1) % patLen st = (edgesIn st k ph pat cur).pat)) ∧
  -- the window check: disarmed without a running plan, silent before the first window, and exact after it
  (∀ (z : ZoneId) s, zoneCtxs s z isRunning = [] → ∃ u, exec (.zoneWindowCheck z) s = .next u ∧ (getZone u z).armedAt = none ∧
    zoneArmed u z = false ∧ u = { s with zones := u.zones }) ∧
  (∀ (z : ZoneId) s l, zoneCtxs s z isRunning ≠ [] → (getZone s z).armedAt = some l →
    (s.now < l + 4095 → exec (.zoneWindowCheck z) s = .next s) ∧
    (l + 4095 ≤ s.now → zoneReq s z ≤ delivered (getZone s z) → ∃ u, exec (.zoneWindowCheck z) s = .next u ∧ u = { s with regs := u.regs } ∧
      rd u (rCLK_ZONE_WIN z) fCLK_ZONE_WIN_LOW = min (rd s (rCLK_ZONE_WIN z) fCLK_ZONE_WIN_LOW) (delivered (getZone s z))) ∧
    (l + 4095 ≤ s.now → delivered (getZone s z) < zoneReq s z → ∃ u, exec (.zoneWindowCheck z) s = .next u ∧
      (∀ c : CtxId, c ∈ zoneCtxs s z isRunning → purging (getCtx s c) = false → (getCtx u c).plan = .faulted) ∧
      (∀ c : CtxId, c ∉ zoneCtxs s z isRunning → getCtx u c = getCtx s c))) ∧
  -- a forced shed takes every named zone straight to its floor, whatever change it waits for; one that has stopped, or sleeps,
  -- follows later; the others are left alone
  (∀ (zs : BitVec 16) s (z : ZoneId),
    (zs.getLsbD z = true → (∀ t, (getZone s z).change ≠ some (.stopped t)) → (∀ t, (getZone s z).change ≠ some (.switched t)) →
      zoneDeep s z = false → floorStep s z ≠ zoneStep s z → (getZone s z).change = none ∨ (getZone s z).target ≠ floorStep s z →
      ∃ u, exec (.forcedShed zs) s = .next u ∧ (getZone u z).target = floorStep s z ∧ u = { s with zones := u.zones } ∧
        (zoneStep s z < floorStep s z → (getZone u z).change = some .toStop) ∧
        (floorStep s z < zoneStep s z → (getZone u z).volt = voltOf s z (floorStep s z) ∧ ∃ t, (getZone u z).change = some (.voltage t))) ∧
    (zs.getLsbD z = true → (∃ t, (getZone s z).change = some (.stopped t) ∨ (getZone s z).change = some (.switched t)) →
      ∃ u, exec (.forcedShed zs) s = .next u ∧ getZone u z = { getZone s z with shed := true }) ∧
    (zs.getLsbD z = false → ∃ u, exec (.forcedShed zs) s = .next u ∧ getZone u z = getZone s z)) ∧
  -- the reference or the lock is lost
  (∀ r p s, r = true ∨ p = true → ∃ u, exec (.rootPllLockLoss r p) s = .next u ∧ rd u rCLK_ROOT fCLK_ROOT_LOSS = 1 ∧
    (r = true → rd u rCLK_ROOT fCLK_ROOT_REF_OK = 0) ∧ (p = true → rd u rCLK_ROOT fCLK_ROOT_LOCK = 0) ∧
    u = { s with regs := u.regs, flagAt := u.flagAt })

/-- The count, the servo, the pulse and the tree (R214, R218 to R222, R224, R225, R232): LCLK_EDGE, EPOCH_PULSE,
EPOCH_PULSE_MISSING, SYNC_BEAD, SYNC_SEND, SERVO_UPDATE, HOLDOVER, SYNC_LOST and TAKEOVER. -/
def Obligations.TimeFollowsTheTree : Prop :=
  -- every LCLK edge, once the zones' tiles have run the ccs they owe, adds RATE to the count and its fraction
  (∀ s, ∃ u, exec .lclkEdge s = .next u ∧ u.lclk = (runOwed s).lclk + 1 ∧
    u.now * 2 ^ 32 + u.tim.frac = (runOwed s).now * 2 ^ 32 + (runOwed s).tim.frac + rd (runOwed s) rTIM_RATE fTIM_RATE_RATE ∧
    u.tim.frac < 2 ^ 32 ∧ ((∀ z : ZoneId, (getZone s z).edges = 0) → runOwed s = s)) ∧
  -- on a count edge time of day gains its increment, or takes a value that waits for this bead boundary, and an announced rate
  -- takes effect; on a held edge none of them moves
  (∀ s s0, s0 = runOwed s → ∃ u, exec .lclkEdge s = .next u ∧
    (2 ^ 32 ≤ s0.tim.frac + rd s0 rTIM_RATE fTIM_RATE_RATE → (regGet s0 rTIM_TOD_SEC).toNat < 2 ^ 62 →
      rd s0 rTIM_TOD_NS fTIM_TOD_NS_NS < 10 ^ 9 →
      (s0.tim.todSet = none → todTotal u = todTotal s0 + todInc s0) ∧
      (∀ a b c, s0.tim.todSet = some (a, b, c) → s0.tim.todLoad = false → s0.tim.incSet = none → a.toNat < 2 ^ 62 → b.toNat < 10 ^ 9 →
        (u.now % 4 = 0 → todTotal u = (((a.toNat * 10 ^ 9 + b.toNat) * 2 ^ 32 + c.toNat : Nat) : Int) ∧ u.tim.todSet = none) ∧
        (u.now % 4 ≠ 0 → todTotal u = todTotal s0 + todInc s0 ∧ u.tim.todSet = s0.tim.todSet))) ∧
    (2 ^ 32 ≤ s0.tim.frac + rd s0 rTIM_RATE fTIM_RATE_RATE → s0.tim.rateAt = u.now → u.now ≠ 0 →
      rd u rTIM_RATE fTIM_RATE_RATE = clampRate s0.tim.nextRate) ∧
    (s0.tim.frac + rd s0 rTIM_RATE fTIM_RATE_RATE < 2 ^ 32 → u.now = s0.now ∧ todTotal u = todTotal s0 ∧
      rd u rTIM_RATE fTIM_RATE_RATE = rd s0 rTIM_RATE fTIM_RATE_RATE)) ∧
  -- the first pulse starts the pattern; a later one captures the count, and at the wrong phase raises TIME 0x003 against held plans
  (∀ k s, (s.tim.pat0 = none → exec (.epochPulse k) s =
      .next { s with tim := { s.tim with pulseAt := s.lclk, misses := 0, pat0 := some (rootEdge s k.toNat) } }) ∧
    (s.tim.pat0 = some (rootEdge s k.toNat) → ∃ u, exec (.epochPulse k) s = .next u ∧ regGet u rTIM_EPOCH_CAP = BitVec.ofNat 64 s.now ∧
      u = { s with regs := u.regs, tim := { s.tim with pulseAt := s.lclk, misses := 0 } } ∧
      ∀ o, o ≠ rTIM_EPOCH_CAP → regGet u o = regGet s o) ∧
    (∀ r, s.tim.pat0 = some r → r ≠ rootEdge s k.toNat → ∃ u, exec (.epochPulse k) s = .next u ∧
      regGet u rTIM_EPOCH_CAP = BitVec.ofNat 64 s.now ∧ u.tim.pat0 = some (if planHeld s then r else rootEdge s k.toNat) ∧
      rd u rTIM_EPOCH_ERR fTIM_EPOCH_ERR_OFF_PHASE = min (rd s rTIM_EPOCH_ERR fTIM_EPOCH_ERR_OFF_PHASE + 1) (2 ^ 32 - 1) ∧
      ∀ c : CtxId, holdsPlan (getCtx s c) = true → purging (getCtx s c) = false → (getCtx u c).plan = .faulted)) ∧
  -- two periods without a pulse, and every further one, count a miss and raise TIME 0x003
  (∀ s, (s.lclk < s.tim.pulseAt + 48000 * (s.tim.misses + 2) → exec .epochPulseMissing s = .next s) ∧
    (s.tim.pulseAt + 48000 * (s.tim.misses + 2) ≤ s.lclk → ∃ u, exec .epochPulseMissing s = .next u ∧ u.tim.misses = s.tim.misses + 1 ∧
      rd u rTIM_EPOCH_ERR fTIM_EPOCH_ERR_MISSED = min (rd s rTIM_EPOCH_ERR fTIM_EPOCH_ERR_MISSED + 1) (2 ^ 32 - 1) ∧
      ∀ c : CtxId, holdsPlan (getCtx s c) = true → purging (getCtx s c) = false → (getCtx u c).plan = .faulted)) ∧
  -- a SYNC bead of any link: an original's stamps are kept for the echo, and a time-valid one with a higher epoch brings its master
  (∀ (l : LinkId) b h p fx rc rf s, rxDecode b = .ok h p fx → InOrder s l h → hClass h = 4 → hRpl h = false →
    (byteField p 36 1).testBit 4 = false → ∃ u, exec (.syncBead l b.h b.toBeadBody rc rf) s = .next u ∧
      tget (fun _ => none) u.tim.echo l = some (byteField p 0 8, byteField p 8 4, rc.toNat, rf.toNat) ∧
      u.tim.epochMax = max s.tim.epochMax (byteField p 68 4) ∧ u.now = s.now ∧ u.ctxs = s.ctxs ∧ u.mem = s.mem ∧
      ((byteField p 36 1).testBit 1 = true → rd s rTIM_STATUS fTIM_STATUS_MASTER_EPOCH < byteField p 68 4 →
        rd u rTIM_STATUS fTIM_STATUS_MASTER_EPOCH = byteField p 68 4 ∧ rd u rTIM_STATUS fTIM_STATUS_MASTER_GID = byteField p 64 4 % 2 ^ 20) ∧
      ((byteField p 36 1).testBit 1 = false ∨ byteField p 68 4 ≤ rd s rTIM_STATUS fTIM_STATUS_MASTER_EPOCH →
        regGet u rTIM_STATUS = regGet s rTIM_STATUS)) ∧
  -- an exchange that does not count is counted in BAD_SYNC and moves nothing
  (∀ (l : LinkId) b h p fx th2 d2 rc rf s, rxDecode b = .ok h p fx → InOrder s l h → hClass h = 4 → (byteField p 36 1).testBit 4 = true →
    exchange ((byteField p 0 8 * 2 ^ 32 + byteField p 8 4 : Nat) : Int) ((rc.toNat * 2 ^ 32 + rf.toNat : Nat) : Int)
      ((byteField p 24 8 * 2 ^ 32 + byteField p 32 4 : Nat) : Int) ((byteField p 16 8 * 2 ^ 32 + byteField p 12 4 : Nat) : Int) = (th2, d2) →
    (syncValid s l h p d2 = false → ∃ u, exec (.syncBead l b.h b.toBeadBody rc rf) s = .next u ∧ u.now = s.now ∧ u.tim.thetas = s.tim.thetas ∧ u.ctxs = s.ctxs ∧
      rd u rTIM_SYNC_ERR fTIM_SYNC_ERR_BAD_SYNC = min (rd s rTIM_SYNC_ERR fTIM_SYNC_ERR_BAD_SYNC + 1) (2 ^ fwid fTIM_SYNC_ERR_BAD_SYNC - 1)) ∧
    -- a valid one on a link that is not the UPSTREAM link of a LEAD or MEMBER gives the neighbour's offset
    (syncValid s l h p d2 = true → ¬ (follows s = true ∧ upstream s = l) → ∃ u, exec (.syncBead l b.h b.toBeadBody rc rf) s = .next u ∧ u.now = s.now ∧
      rd u (rTIM_NBR_OFF l) fTIM_NBR_OFF_VALID = 1 ∧ rd u (rTIM_NBR_OFF l) fTIM_NBR_OFF_OFFSET = (Int.fdiv th2 (2 ^ 27) % 2 ^ 32).toNat ∧
      u.ctxs = s.ctxs ∧ u.tim.thetas = s.tim.thetas) ∧
    -- a LEAD keeps it for its next update; in ACQUIRE with no plan held it jumps by more than a tick; the fourth offset over the
    -- limit in LOCKED raises TIME 0x002
    (syncValid s l h p d2 = true → timRole s = 2 → upstream s = l →
      (¬ (timState s = 1 ∧ planHeld s = false ∧ 2 * 2 ^ 32 < th2.natAbs) → ∃ u, exec (.syncBead l b.h b.toBeadBody rc rf) s = .next u ∧ u.now = s.now ∧
        u.tim.frac = s.tim.frac ∧ u.tim.thetas = th2 :: s.tim.thetas ∧ u.tim.lastValid = s.now ∧
        rd u rTIM_OFFSET fTIM_OFFSET_OFFSET = (Int.fdiv th2 (2 ^ 27) % 2 ^ 32).toNat ∧
        (timState s = 2 → rd s rTIM_LIMIT fTIM_LIMIT_OFF_LIMIT * 2 ^ 27 < th2.natAbs → s.tim.badOff = 3 →
          ∀ c : CtxId, holdsPlan (getCtx s c) = true → purging (getCtx s c) = false → (getCtx u c).plan = .faulted) ∧
        (timState s ≠ 2 ∨ (th2.natAbs : Int) ≤ rd s rTIM_LIMIT fTIM_LIMIT_OFF_LIMIT * 2 ^ 27 → u.tim.badOff = 0 ∧ u.ctxs = s.ctxs)) ∧
      (timState s = 1 → planHeld s = false → 2 * 2 ^ 32 < th2.natAbs → ∃ u, exec (.syncBead l b.h b.toBeadBody rc rf) s = .next u ∧
        u.now * 2 ^ 32 + u.tim.frac = (((s.now * 2 ^ 32 + s.tim.frac : Nat) : Int) - Int.fdiv th2 2).toNat ∧ u.tim.thetas = [] ∧
        rd u rTIM_SYNC_ERR fTIM_SYNC_ERR_JUMPS = min (rd s rTIM_SYNC_ERR fTIM_SYNC_ERR_JUMPS + 1) (2 ^ fwid fTIM_SYNC_ERR_JUMPS - 1))) ∧
    -- a MEMBER joins at its first, and again at an offset over 1/4 tick, by its upstream's accumulator and rate; where a plan is
    -- held that offset raises TIME 0x003 and the count stays
    (syncValid s l h p d2 = true → timRole s = 3 → upstream s = l → s.tim.frac < 2 ^ 32 →
      (planHeld s = false → s.tim.joined = false ∨ 2 ^ 31 < th2.natAbs → ∃ u, exec (.syncBead l b.h b.toBeadBody rc rf) s = .next u ∧ u.tim.joined = true ∧
        u.now * 2 ^ 32 + u.tim.frac = (upNow s p th2).1 ∧ rd u rTIM_RATE fTIM_RATE_RATE = (upNow s p th2).2) ∧
      (planHeld s = true → ∃ u, exec (.syncBead l b.h b.toBeadBody rc rf) s = .next u ∧ u.now = s.now ∧ u.tim.frac = s.tim.frac ∧
        rd u rTIM_RATE fTIM_RATE_RATE = rd s rTIM_RATE fTIM_RATE_RATE ∧
        (2 ^ 31 < th2.natAbs → ∀ c : CtxId, holdsPlan (getCtx s c) = true → purging (getCtx s c) = false → (getCtx u c).plan = .faulted)))) ∧
  -- one SYNC bead an interval: 4,096 ticks on the UPSTREAM link, 65,536 on a link whose neighbour has sent none
  (∀ (l : LinkId) s, (lnkState s l = 6 → (getLink s l).syncAt / syncEvery s l < s.now / syncEvery s l →
      exec (.syncSend l) s = .next (setLink s l { getLink s l with syncAt := s.now, special := (getLink s l).special ++ [(4, 0)] })) ∧
    (lnkState s l ≠ 6 ∨ s.now / syncEvery s l ≤ (getLink s l).syncAt / syncEvery s l → exec (.syncSend l) s = .next s) ∧
    (follows s = true → upstream s = l → syncEvery s l = 4096) ∧
    (follows s = false ∨ upstream s ≠ l → tget (fun _ => (0, 0)) s.tim.syncIn l = (0, 0) → syncEvery s l = 65536)) ∧
  -- four updates within 1/16 tick lock; one beyond OFF_LIMIT unlocks
  (∀ s, follows s = true → s.now % 65536 = 0 → s.tim.updAt < s.now → s.tim.thetas ≠ [] →
    (timState s ≠ 2 → s.tim.good = 3 → (s.tim.thetas.foldl (· + ·) 0).natAbs ≤ 2 ^ 29 * s.tim.thetas.length →
      ∃ u, exec .servoUpdate s = .next u ∧ timState u = 2 ∧ u.tim.thetas = [] ∧ u.now = s.now ∧ u.ctxs = s.ctxs) ∧
    (timState s = 2 → rd s rTIM_LIMIT fTIM_LIMIT_OFF_LIMIT * 2 ^ 27 * s.tim.thetas.length < (s.tim.thetas.foldl (· + ·) 0).natAbs →
      ∃ u, exec .servoUpdate s = .next u ∧ timState u = 1 ∧ u.tim.thetas = [] ∧ u.now = s.now)) ∧
  -- a LEAD's next rate, one interval later: the frequency term and the phase pull, to the last unit of 2^-32 (log 26)
  (∀ s, timRole s = 2 → s.now % 65536 = 0 → s.tim.updAt < s.now →
    (timState s ≠ 3 → s.tim.thetas ≠ [] → ∃ u e, exec .servoUpdate s = .next u ∧ e < 2 ∧ u.tim.rateAt = s.now + 65536 ∧
      u.tim.nextRate = clampRate (freqTerm s (s.tim.thetas.foldl (· + ·) 0) s.tim.thetas.length +
        phasePull (s.tim.thetas.foldl (· + ·) 0) s.tim.thetas.length + (e : Nat)).toNat ∧
      regGet u rTIM_RATE = regGet s rTIM_RATE ∧ u.now = s.now) ∧
    -- HOLDOVER holds the frequency term, with no phase pull
    (timState s = 3 → ∃ u, exec .servoUpdate s = .next u ∧ u.tim.rateAt = s.now + 65536 ∧ u.tim.nextRate = clampRate s.tim.freq ∧ u.now = s.now)) ∧
  (∀ s, follows s = false ∨ s.now % 65536 ≠ 0 ∨ s.now ≤ s.tim.updAt → exec .servoUpdate s = .next s) ∧
  (∀ sum n, -85899 ≤ phasePull sum n ∧ phasePull sum n ≤ 85899) ∧
  -- HOLDOVER after 16,384 ticks without an exchange; 1,200,000 ticks of it lose the time
  (∀ s, timState s = 2 → follows s = true → s.tim.lastValid + 16384 ≤ s.now →
    ∃ u, exec .holdover s = .next u ∧ timState u = 3 ∧ u.tim.holdSince = s.now ∧ u.ctxs = s.ctxs ∧ u.now = s.now) ∧
  (∀ s, timState s ≠ 2 ∨ s.now < s.tim.lastValid + 16384 → exec .holdover s = .next s) ∧
  (∀ s, timState s = 3 → s.tim.holdSince + 1200000 ≤ s.now → ∃ u, exec .syncLost s = .next u ∧ timState u = 1 ∧ u.now = s.now ∧
    ∀ c : CtxId, holdsPlan (getCtx s c) = true → purging (getCtx s c) = false → (getCtx u c).plan = .faulted) ∧
  (∀ s, timState s ≠ 3 ∨ s.now < s.tim.holdSince + 1200000 → exec .syncLost s = .next s) ∧
  -- the standby takes over: count and rate stay, the epoch advances past the highest seen
  (∀ s, rd s rTIM_ROLE fTIM_ROLE_STANDBY = 1 → follows s = true → s.tim.seqAt + 2400000 ≤ s.now → lnkState s (upstream s) = 6 →
    s.tim.seqAt < s.tim.lastValid → ∃ u, exec .takeover s = .next u ∧ timRole u = 1 ∧ timState u = 4 ∧ u.now = s.now ∧
      u.tim.frac = s.tim.frac ∧ rd u rTIM_RATE fTIM_RATE_RATE = rd s rTIM_RATE fTIM_RATE_RATE ∧
      rd u rTIM_MASTER_RATE fTIM_MASTER_RATE_RATE = rd s rTIM_RATE fTIM_RATE_RATE ∧ rd u rTIM_ROLE fTIM_ROLE_STANDBY = 0 ∧
      u.tim.epochMax = max s.tim.epochMax (rd s rTIM_STATUS fTIM_STATUS_MASTER_EPOCH) + 1 ∧
      rd u rTIM_STATUS fTIM_STATUS_MASTER_GID = ownGid s)

/-! ### Launch and steps (chapters 9 and 10) -/

/-- LAUNCH and STEP_BOUNDARY (R230, R234, R240, R250, R264, R206, R211). -/
def Obligations.PlansLaunchAndStep : Prop :=
  -- at its count an armed parison runs: step counter 0, step 0 at L, its tiles issue and its engines wait, its zones' checks arm
  (∀ (c : CtxId) s p, (getCtx s c).image = some p → (getCtx s c).plan = .armed → (getCtx s c).launchAt ≤ s.now →
    (p.multi = false ∨ timState s = 2 ∨ timState s = 3 ∨ timState s = 4) → slowZones s (getCtx s c) = [] → (getCtx s c).lateArm = false →
    ∃ u, exec (.launch c) s = .next u ∧
      getCtx u c = { getCtx s c with plan := .running, ran := true, stepCtr := 0, stepStart := (getCtx s c).launchAt } ∧
      (∀ d : CtxId, d ≠ c → getCtx u d = getCtx s d) ∧
      (∀ t : TileId, p.tiles.getLsbD t = true → (getTile u t).st = .issuing ∧ (getTile u t).steps = 0 ∧ (getTile u t).draw = 0) ∧
      (∀ t : TileId, p.tiles.getLsbD t = false → getTile u t = getTile s t) ∧
      (∀ g : EngId, p.engines.getLsbD g = true → (getEng u g).st = .waitStart ∧ (getEng u g).upNext = 0) ∧
      (∀ ep ch : Nat, ep < 1024 → ch < 512 → wordIdx u c ep ch = 0) ∧
      (∀ z : ZoneId, inZone (getCtx s c) z = true →
        (getZone u z).armedAt = (if zoneArmed s z then (getZone s z).armedAt else some (getCtx s c).launchAt) ∧ zoneArmed u z = true) ∧
      u.mem = s.mem) ∧
  -- a job of several ranks without time does not start, and every held plan faults (R232)
  (∀ (c : CtxId) s p, (getCtx s c).image = some p → (getCtx s c).plan = .armed → (getCtx s c).launchAt ≤ s.now → p.multi = true →
    timState s < 2 → (getCtx s c).lateArm = false →
    ∃ u, exec (.launch c) s = .next u ∧ (∀ d : CtxId, (getCtx u d).ran = (getCtx s d).ran) ∧ u.tiles = s.tiles ∧
      u.engines = s.engines ∧ u.mem = s.mem ∧
      (∀ d : CtxId, holdsPlan (getCtx s d) = true → purging (getCtx s d) = false → (getCtx u d).plan = .faulted) ∧
      (∀ d : CtxId, holdsPlan (getCtx s d) = false → getCtx u d = getCtx s d)) ∧
  -- a zone below the parison's floor faults the parison, which does not start
  (∀ (c : CtxId) s p z zs, (getCtx s c).image = some p → (getCtx s c).plan = .armed → (getCtx s c).launchAt ≤ s.now →
    (p.multi = false ∨ timState s = 2 ∨ timState s = 3 ∨ timState s = 4) →
    slowZones s (getCtx s c) = z :: zs → (getCtx s c).lateArm = false → purging (getCtx s c) = false →
    ∃ u, exec (.launch c) s = .next u ∧ (getCtx u c).plan = .faulted ∧ (getCtx u c).ran = (getCtx s c).ran ∧
      (∀ d : CtxId, d ≠ c → getCtx u d = getCtx s d) ∧ u.tiles = s.tiles ∧ u.engines = s.engines ∧ u.mem = s.mem) ∧
  -- an immediate abort that came too late to disarm stops the plan at its launch
  (∀ (c : CtxId) s p, (getCtx s c).image = some p → (getCtx s c).plan = .armed → (getCtx s c).launchAt ≤ s.now →
    (getCtx s c).lateArm = true → ∃ u, exec (.launch c) s = .next u ∧ (getCtx u c).plan = .faulted ∧ (getCtx u c).lateArm = false ∧
      ((getCtx s c).faultTick = none → (getCtx u c).faultTick = some (getCtx s c).launchAt) ∧ u.mem = s.mem) ∧
  -- before its count, or with no armed plan, nothing starts
  (∀ (c : CtxId) s, s.now < (getCtx s c).launchAt ∨ (getCtx s c).plan ≠ .armed ∨ (getCtx s c).image = none → exec (.launch c) s = .next s) ∧
  -- a step that is not the last ends: the counter advances, the next step starts at its end, channels and lists begin anew
  (∀ (c : CtxId) s, runsOn (getCtx s c) (stepEnd s c) = true → stepEnd s c ≤ s.now → lastStep (getCtx s c) (stepNum s c) = false →
    stepNum s c + 1 < 2 ^ 48 → (∀ t : TileId, (planTiles (getCtx s c)).getLsbD t = true → leftChans (getTile s t) = []) →
    ∃ u, exec (.stepBoundary c) s = .next u ∧
      getCtx u c = { getCtx s c with stepCtr := (getCtx s c).stepCtr + 1, stepStart := stepEnd s c } ∧
      (∀ d : CtxId, d ≠ c → getCtx u d = getCtx s d) ∧ u.tiles = s.tiles ∧ u.mem = s.mem ∧
      (∀ ep ch : Nat, ep < 1024 → ch < 512 → wordIdx u c ep ch = 0) ∧
      (∀ g : EngId, (∃ p, (getCtx s c).image = some p ∧ p.engines.getLsbD g = true) →
        (getEng u g).upNext = 0 ∧ ((getEng s g).active = false → (getEng u g).st = .waitStart))) ∧
  -- the step number would pass 48 bits: EXEC 0x01B
  (∀ (c : CtxId) s, (getCtx s c).plan = .running → purging (getCtx s c) = false → stepEnd s c ≤ s.now →
    lastStep (getCtx s c) (stepNum s c) = false → 2 ^ 48 ≤ stepNum s c + 1 →
    ∃ u, exec (.stepBoundary c) s = .next u ∧ (getCtx u c).plan = .faulted ∧ (getCtx u c).stepCtr = (getCtx s c).stepCtr ∧ u.tiles = s.tiles) ∧
  -- the last step of a running plan ends it; a replayed suspect's one step leaves it cleared, a parison at the next step
  (∀ (c : CtxId) s, (getCtx s c).plan = .running → stepEnd s c ≤ s.now → lastStep (getCtx s c) (stepNum s c) = true →
    (∀ t : TileId, (planTiles (getCtx s c)).getLsbD t = true → leftChans (getTile s t) = []) →
    ((getCtx s c).st ≠ .replay → ∃ u, exec (.stepBoundary c) s = .next u ∧ (getCtx u c).plan = .complete ∧ (getCtx u c).endStep = none ∧
      u.mem = s.mem ∧ (∀ t : TileId, (planTiles (getCtx s c)).getLsbD t = true → (getTile u t).st = .idle) ∧
      (∀ d : CtxId, d ≠ c → getCtx u d = getCtx s d)) ∧
    ((getCtx s c).st = .replay → s.hang.queue ≠ [] → ∃ u, exec (.stepBoundary c) s = .next u ∧ (getCtx u c).plan = .parison ∧
      (getCtx u c).ran = false ∧ resumeStep u c = (stepNum s c + 1) % 2 ^ 48 ∧ c ∈ u.hang.cleared ∧ u.hang.cur ≠ some c ∧ u.mem = s.mem)) ∧
  -- a word left in an outbox at the end of a step raises EXEC 0x013
  (∀ (c : CtxId) s (t : TileId) ch, runsOn (getCtx s c) (stepEnd s c) = true → stepEnd s c ≤ s.now →
    (planTiles (getCtx s c)).getLsbD t = true → ch ∈ leftChans (getTile s t) → purging (getCtx s c) = false →
    ∃ u, exec (.stepBoundary c) s = .next u ∧ (getCtx u c).plan = .faulted ∧ u.tiles = s.tiles) ∧
  -- before the end of its step, or once its units have stopped, nothing happens
  (∀ (c : CtxId) s, runsOn (getCtx s c) (stepEnd s c) = false ∨ s.now < stepEnd s c → exec (.stepBoundary c) s = .next s) ∧
  -- steps follow the image's lengths in turn, from the resume step on
  (∀ (p : Plan) rs k, p.lens ≠ [] → stepOffset p rs (k + 1) = stepOffset p rs k + (stepLenOf p (rs + k)).1)

/-! ### Twin mode (chapter 11) -/

/-- Twin windows, packets and items (R270 to R272): TWIN_WINDOW_CLOSE, TWIN_PACKET_SEND, TWIN_PACKET_RECEIVE and TWIN_ITEM_TIMEOUT. -/
def Obligations.TwinsCompareWhatTheyWrite : Prop :=
  -- without twin mode nothing happens
  (∀ s, twinCtx s = none → (∀ k, exec (.twinWindowClose k) s = .next s) ∧ exec .twinPacketSend s = .next s ∧
    (∀ p, exec (.twinPacketReceive p) s = .next s) ∧ exec .twinItemTimeout s = .next s) ∧
  -- a tile window closes 256 cc after its last index was issued, or once the tile's zone has seen the boundary of its step, unless
  -- the context faulted before
  (∀ (t : TileId) (c : CtxId) s k first last cc, twinCtx s = some c → (getTile s t).own = some c →
    (getTile s t).wpos.find? (fun e => decide ((getTile s t).wclosed ≤ e.1)) = some (k, first, last, cc) →
    (cc = 0 ∨ (getTile s t).cc < cc + 256 → stepPassed s t (k / 2 ^ 22) = false → exec (.twinWindowClose (.tile t)) s = .next s) ∧
    (∀ f p, (getCtx s c).faultTick = some f → (getCtx s c).image = some p →
      f < (if stepPassed s t (k / 2 ^ 22) then (getCtx s c).launchAt + stepOffset p (resumeStep s c) (k / 2 ^ 22 + 1) + XI else s.now) →
      exec (.twinWindowClose (.tile t)) s = .next s) ∧
    (∀ w, (cc ≠ 0 ∧ cc + 256 ≤ (getTile s t).cc) ∨ stepPassed s t (k / 2 ^ 22) = true → (getCtx s c).faultTick = none →
      w = { item := { kind := 1, unit := BitVec.ofNat 8 t, window := BitVec.ofNat 22 k, sig := tget (fun _ => 0) (getTile s t).sigs k
                      step := BitVec.ofNat 32 (resumeStep s c + k / 2 ^ 22) }, at_ := s.now, first := first, last := last - 1 } →
      -- its item waits for a packet, and for its match unless the store is full
      ((∀ q ∈ s.twin.part, sameItem q.item w.item = false) → ∃ u, exec (.twinWindowClose (.tile t)) s = .next u ∧
        u.twin = { s.twin with queue := s.twin.queue ++ [w], own := if s.twin.own.length < 4096 then s.twin.own ++ [w] else s.twin.own } ∧
        (getTile u t).wclosed = k + 1 ∧ (∀ v : TileId, v ≠ t → getTile u v = getTile s v) ∧ u = { s with tiles := u.tiles, twin := u.twin }) ∧
      -- or meets the partner's
      (∀ q, s.twin.part.find? (fun q => sameItem q.item w.item) = some q → ∃ u, exec (.twinWindowClose (.tile t)) s = .next u ∧
        u.twin.queue = s.twin.queue ++ [w] ∧ (∀ x, x ∈ u.twin.part ↔ x ∈ s.twin.part ∧ sameItem x.item w.item = false) ∧
        (w.item.sig = q.item.sig → u.ctxs = s.ctxs ∧
          rd u rDET_TWIN_CNT fDET_TWIN_CNT_COMPARED = min (rd s rDET_TWIN_CNT fDET_TWIN_CNT_COMPARED + 1) (2 ^ 32 - 1)) ∧
        (w.item.sig ≠ q.item.sig → s.twin.diff = false → purging (getCtx s c) = false → (getCtx u c).plan = .faulted ∧ u.twin.diff = true)))) ∧
  -- a link window closes 16 ticks after its last slot, unless the context faulted before
  (∀ (l : LinkId) (c : CtxId) s e ends, twinCtx s = some c → linkWindow s c l = some (e, ends) →
    (s.now < e + 16 → exec (.twinWindowClose (.link l)) s = .next s) ∧
    (∀ f, (getCtx s c).faultTick = some f → f < e + 16 → exec (.twinWindowClose (.link l)) s = .next s) ∧
    (∀ k j w, e + 16 ≤ s.now → (∀ f, (getCtx s c).faultTick = some f → e + 16 ≤ f) → tget (fun _ => (0, 0)) s.twin.next l = (k, j) →
      w = { item := { kind := 2, unit := BitVec.ofNat 8 l, window := BitVec.ofNat 22 j, sig := tget (fun _ => 0) s.twin.sigs (linkKey l k j)
                      step := BitVec.ofNat 32 (resumeStep s c + k) }, at_ := s.now, first := 0, last := 0 } →
      (∀ q ∈ s.twin.part, sameItem q.item w.item = false) →
      ∃ u, exec (.twinWindowClose (.link l)) s = .next u ∧ u.twin.queue = s.twin.queue ++ [w] ∧
      u.twin.own = (if s.twin.own.length < 4096 then s.twin.own ++ [w] else s.twin.own) ∧
      tget (fun _ => (0, 0)) u.twin.next l = (if ends then (k + 1, 0) else (k, j + 1)) ∧ u = { s with twin := u.twin })) ∧
  -- a packet of up to 128 items leaves on both twin links when 128 wait, or 256 ticks after the oldest began to
  (∀ (c : CtxId) s, twinCtx s = some c → s.twin.queue ≠ [] → s.twin.queue.length < 128 → (∀ w ∈ s.twin.queue, s.now < w.at_ + 256) →
    exec .twinPacketSend s = .next s) ∧
  (∀ (c : CtxId) (la lb : LinkId) s w q, twinCtx s = some c → s.twin.queue = w :: q → 128 ≤ s.twin.queue.length ∨ w.at_ + 256 ≤ s.now →
    rd s rDET_TWIN_CTL fDET_TWIN_CTL_LINKA = la.val → rd s rDET_TWIN_CTL fDET_TWIN_CTL_LINKB = lb.val → la ≠ lb →
    openLink s la = true → openLink s lb = true → portOf s la < 8 → portOf s lb < 8 →
    ∃ u p, exec .twinPacketSend s = .next u ∧ p = twinPkt s c ((s.twin.queue.take 128).map (·.item)) false ∧ p.op = 0x30 ∧
      p.dest = rd s rDET_TWIN_CTL fDET_TWIN_CTL_PARTNER ∧ p.data.length = 2 + 2 * min s.twin.queue.length 128 ∧
      (∀ l : LinkId, l = la ∨ l = lb →
        (getLink u l).txq = (getLink s l).txq ++ [niJob { pkt := p, ready := s.now + 8, retry := false, req := none }]) ∧
      (∀ l : LinkId, l ≠ la → l ≠ lb → getLink u l = getLink s l) ∧
      u.twin = { s.twin with queue := s.twin.queue.drop 128, pnum := s.twin.pnum + 1 } ∧
      u = { s with links := u.links, twin := u.twin, regs := u.regs }) ∧
  -- after a fault, and once no item waits, one packet with STOP and no items
  (∀ (c : CtxId) (la lb : LinkId) s, twinCtx s = some c → s.twin.queue = [] → s.twin.stop = false → (getCtx s c).plan = .faulted →
    (getCtx s c).purge = none →
    rd s rDET_TWIN_CTL fDET_TWIN_CTL_LINKA = la.val → rd s rDET_TWIN_CTL fDET_TWIN_CTL_LINKB = lb.val → la ≠ lb →
    openLink s la = true → openLink s lb = true → portOf s la < 8 → portOf s lb < 8 →
    ∃ u p, exec .twinPacketSend s = .next u ∧ p = twinPkt s c [] true ∧ p.data.length = 2 ∧ (p.data.getD 0 0).getLsbD 24 = true ∧
      (∀ l : LinkId, l = la ∨ l = lb →
        (getLink u l).txq = (getLink s l).txq ++ [niJob { pkt := p, ready := s.now + 8, retry := false, req := none }]) ∧
      u.twin.stop = true ∧ exec .twinPacketSend u = .next u) ∧
  (∀ (c : CtxId) s, twinCtx s = some c → s.twin.queue = [] → s.twin.stop = true ∨ (getCtx s c).plan ≠ .faulted →
    exec .twinPacketSend s = .next s) ∧
  -- a wrong MAGIC or a reserved KIND is counted and discarded; so is a packet number already received
  (∀ (c : CtxId) p s, twinCtx s = some c → p.magic ≠ 0x5457 ∨ (∃ i ∈ p.items, i.kind ≠ 1 ∧ i.kind ≠ 2) →
    ∃ u, exec (.twinPacketReceive p) s = .next u ∧ u = { s with regs := u.regs } ∧
      rd u rDET_TWIN_DROP fDET_TWIN_DROP_BAD_PKT = min (rd s rDET_TWIN_DROP fDET_TWIN_DROP_BAD_PKT + 1) (2 ^ 32 - 1)) ∧
  (∀ (c : CtxId) p s, twinCtx s = some c → p.magic = 0x5457 → (∀ i ∈ p.items, i.kind = 1 ∨ i.kind = 2) → p.pnum.toNat ∈ s.twin.seen →
    ∃ u, exec (.twinPacketReceive p) s = .next u ∧ u = { s with regs := u.regs } ∧
      rd u rDET_TWIN_CNT fDET_TWIN_CNT_PKT_DUP = min (rd s rDET_TWIN_CNT fDET_TWIN_CNT_PKT_DUP + 1) (2 ^ 32 - 1)) ∧
  -- the items of a packet are taken one after another
  (∀ (c : CtxId) p s, twinCtx s = some c → p.magic = 0x5457 → (∀ i ∈ p.items, i.kind = 1 ∨ i.kind = 2) → p.pnum.toNat ∉ s.twin.seen →
    p.stop = false → (∀ d, digest8 (getCtx s c) = some d → d = p.digest) → exec (.twinPacketReceive p) s =
      .next (p.items.foldl (fun s i => partItem s c i) { s with twin := { s.twin with seen := p.pnum.toNat :: s.twin.seen } })) ∧
  -- a partner item waits for its match; equal signatures discard both and count; the first unequal ones stop the context and name
  -- the window
  (∀ (c : CtxId) p i s, twinCtx s = some c → p.magic = 0x5457 → p.items = [i] → i.kind = 1 ∨ i.kind = 2 → p.pnum.toNat ∉ s.twin.seen →
    p.stop = false → (∀ d, digest8 (getCtx s c) = some d → d = p.digest) →
    ((∀ o ∈ s.twin.own, sameItem o.item i = false) → s.twin.part.length < 4096 → ∃ u, exec (.twinPacketReceive p) s = .next u ∧
      u.twin = { s.twin with part := s.twin.part ++ [{ item := i, at_ := s.now, first := 0, last := 0 }], seen := p.pnum.toNat :: s.twin.seen } ∧
      u = { s with twin := u.twin }) ∧
    ((∀ o ∈ s.twin.own, sameItem o.item i = false) → s.twin.part.length = 4096 → purging (getCtx s c) = false →
      rd s rDET_TWIN_DIV fDET_TWIN_DIV_CAUSE = 0 → ∃ u, exec (.twinPacketReceive p) s = .next u ∧
      (getCtx u c).plan = .faulted ∧ rd u rDET_TWIN_DIV fDET_TWIN_DIV_CAUSE = 5 ∧
      rd u rDET_TWIN_DROP fDET_TWIN_DROP_PART_FULL = min (rd s rDET_TWIN_DROP fDET_TWIN_DROP_PART_FULL + 1) (2 ^ 32 - 1)) ∧
    (∀ o, s.twin.own.find? (fun w => sameItem w.item i) = some o →
      (o.item.sig = i.sig → ∃ u, exec (.twinPacketReceive p) s = .next u ∧
        rd u rDET_TWIN_CNT fDET_TWIN_CNT_COMPARED = min (rd s rDET_TWIN_CNT fDET_TWIN_CNT_COMPARED + 1) (2 ^ 32 - 1) ∧
        (∀ w, w ∈ u.twin.own ↔ w ∈ s.twin.own ∧ sameItem w.item i = false) ∧ u = { s with regs := u.regs, twin := u.twin }) ∧
      (o.item.sig ≠ i.sig → s.twin.diff = true → ∃ u, exec (.twinPacketReceive p) s = .next u ∧ u = { s with twin := u.twin }) ∧
      (o.item.sig ≠ i.sig → s.twin.diff = false → purging (getCtx s c) = false → (getCtx s c).faultTick = none →
        ∃ u, exec (.twinPacketReceive p) s = .next u ∧ (getCtx u c).plan = .faulted ∧ (getCtx u c).faultTick = some s.now ∧
        u.twin.diff = true ∧ (∀ d : CtxId, d ≠ c → getCtx u d = getCtx s d) ∧ u.mem = s.mem ∧
        (rd s rDET_TWIN_DIV fDET_TWIN_DIV_CAUSE = 0 →
          rd u rDET_TWIN_DIV fDET_TWIN_DIV_CAUSE = i.kind.toNat ∧ rd u rDET_TWIN_DIV fDET_TWIN_DIV_KIND = i.kind.toNat ∧
          rd u rDET_TWIN_DIV fDET_TWIN_DIV_UNIT = i.unit.toNat ∧ rd u rDET_TWIN_DIV fDET_TWIN_DIV_WINDOW = i.window.toNat ∧
          rd u rDET_TWIN_DIV_POS fDET_TWIN_DIV_POS_FIRST = o.first % 2 ^ 32 ∧ rd u rDET_TWIN_DIV_POS fDET_TWIN_DIV_POS_LAST = o.last % 2 ^ 32) ∧
        (rd s rDET_TWIN_DIV fDET_TWIN_DIV_CAUSE ≠ 0 → regGet u rDET_TWIN_DIV = regGet s rDET_TWIN_DIV)))) ∧
  -- another image digest, and a partner that has stopped; a STOP for a plan that does not run is discarded
  (∀ (c : CtxId) p s, twinCtx s = some c → p.magic = 0x5457 → p.pnum.toNat ∉ s.twin.seen →
    ((∀ i ∈ p.items, i.kind = 1 ∨ i.kind = 2) → (∃ d, digest8 (getCtx s c) = some d ∧ d ≠ p.digest) → purging (getCtx s c) = false →
      rd s rDET_TWIN_DIV fDET_TWIN_DIV_CAUSE = 0 → ∃ u, exec (.twinPacketReceive p) s = .next u ∧
      (getCtx u c).plan = .faulted ∧ rd u rDET_TWIN_DIV fDET_TWIN_DIV_CAUSE = 3 ∧ u.mem = s.mem) ∧
    (p.items = [] → (∀ d, digest8 (getCtx s c) = some d → d = p.digest) → p.stop = true →
      (isRunning (getCtx s c) = true → purging (getCtx s c) = false → rd s rDET_TWIN_DIV fDET_TWIN_DIV_CAUSE = 0 →
        ∃ u, exec (.twinPacketReceive p) s = .next u ∧ (getCtx u c).plan = .faulted ∧ rd u rDET_TWIN_DIV fDET_TWIN_DIV_CAUSE = 6 ∧ u.mem = s.mem) ∧
      (isRunning (getCtx s c) = false → ∃ u, exec (.twinPacketReceive p) s = .next u ∧ u = { s with twin := u.twin }))) ∧
  -- an item of either store that has waited 65,536 ticks
  (∀ (c : CtxId) s, twinCtx s = some c → (∀ w ∈ s.twin.own ++ s.twin.part, s.now < w.at_ + 65536) → exec .twinItemTimeout s = .next s) ∧
  (∀ (c : CtxId) s, twinCtx s = some c → (∃ w ∈ s.twin.own ++ s.twin.part, w.at_ + 65536 ≤ s.now) →
    purging (getCtx s c) = false → ∃ u, exec .twinItemTimeout s = .next u ∧ (getCtx u c).plan = .faulted ∧
      (∀ w, w ∈ u.twin.own ↔ w ∈ s.twin.own ∧ s.now < w.at_ + 65536) ∧ (∀ w, w ∈ u.twin.part ↔ w ∈ s.twin.part ∧ s.now < w.at_ + 65536) ∧
      (rd s rDET_TWIN_DIV fDET_TWIN_DIV_CAUSE = 0 → rd u rDET_TWIN_DIV fDET_TWIN_DIV_CAUSE = 4) ∧ u.mem = s.mem ∧ u.tiles = s.tiles)

/-! ### Faults, reset, hang detection and recovery (chapter 12) -/

/-- What follows a fault (R280 to R285): FAULT_STOP, FAULT_RECORD_LOG, FAULT_SPILL and LINK_RECORD_CLOSE. -/
def Obligations.FaultsStopAndAreLogged : Prop :=
  -- the stop reaches the context's units 8 ticks after the fault, and no sooner
  (∀ (c : CtxId) s f, (getCtx s c).faultTick = some f → (getCtx s c).stopped = false →
    (s.now < f + 8 → exec (.faultStop c) s = .next s) ∧
    (f + 8 ≤ s.now → ¬((getCtx s c).st = .replay ∧ s.hang.cur = some c) → ∃ u, exec (.faultStop c) s = .next u ∧
      getCtx u c = { getCtx s c with stopped := true } ∧ (∀ d : CtxId, d ≠ c → getCtx u d = getCtx s d) ∧ u = { s with ctxs := u.ctxs }) ∧
    -- a suspect whose replay faults is guilty and stays faulted
    (f + 8 ≤ s.now → (getCtx s c).st = .replay → s.hang.cur = some c → s.hang.queue ≠ [] → s.hang.queue.contains c = false →
      ∃ u, exec (.faultStop c) s = .next u ∧
      (getCtx u c).st = .opened ∧ (getCtx u c).stopped = true ∧ (getCtx u c).plan = (getCtx s c).plan ∧ u.hang.cur = none)) ∧
  -- a stopped context's units start nothing: no request, no bundle of a tile
  (∀ (c : CtxId) s, (getCtx s c).stopped = true →
    exec (.requestIssue c) s = .next s ∧ ∀ f, (getCtx s c).plan = .faulted → runsOn (getCtx s c) f = false) ∧
  -- the collector reads every whole record its channels show, and takes the first in the order of fault tick, engine and unit
  (∀ s ws (k : Nat), k < 17 → headRecord s (4 + k) = some ws → ws ∈ (gather s).gathered) ∧
  (∀ s, (∀ k : Nat, k < 17 → headRecord s (4 + k) = none) → gather s = s) ∧
  (∀ rs b, firstRec rs = some b → b ∈ rs ∧ ∀ r ∈ rs, recBefore r b = false) ∧
  -- a record against no context gets the next place of the ring and the next SEQ
  (∀ s g ws, g = gather s → firstRec g.gathered = some ws → wCtx (ws.getD 0 0) = none → g.faultHeld = [] → ws.length = 8 →
    ∃ u, exec .faultRecordLog s = .next u ∧ u.recNext = g.recNext + 1 ∧ u.gathered = g.gathered.erase ws ∧
      rd u rGAF_FLOG_CTL fGAF_FLOG_CTL_WR = (rd g rGAF_FLOG_CTL fGAF_FLOG_CTL_WR + 1) % 2 ^ 32 ∧
      (wCode (ws.getD 0 0) ≠ 0x4001 →
        ∀ j : Nat, j < 4 → regGet u (rGAF_FLOG (rd g rGAF_FLOG_CTL fGAF_FLOG_CTL_WR % 256) j) = ws.getD j 0) ∧
      (wCode (ws.getD 0 0) = 0x4001 → u.recOpen = g.recOpen ++
        [(rd g rGAF_FLOG_CTL fGAF_FLOG_CTL_WR % 256, wUnit (ws.getD 0 0), (ws.getD 1 0).toNat)]) ∧
      regGet u (rGAF_FLOG (rd g rGAF_FLOG_CTL fGAF_FLOG_CTL_WR % 256) 7) = BitVec.ofNat 64 (g.recNext.toNat * 2 ^ 32) ∧
      u.ctxs = g.ctxs ∧ u.mem = g.mem ∧ u.tiles = g.tiles) ∧
  -- the first record of a stop is logged and sends the fault vector; up to seven more with new codes are logged; a repeated code,
  -- or a ninth, only counts in MORE; one outside the stop is logged
  (∀ s g ws (c : CtxId), g = gather s → firstRec g.gathered = some ws → wCtx (ws.getD 0 0) = some c → g.faultHeld = [] → ws.length = 8 →
    (inStop (getCtx g c) (ws.getD 0 0) = true → (getCtx g c).codes = [] → ∃ u, exec .faultRecordLog s = .next u ∧ u.recNext = g.recNext + 1 ∧
      (getCtx u c).codes = [BitVec.ofNat 16 (wCode (ws.getD 0 0))] ∧ (getCtx u c).first = BitVec.ofNat 16 (wCode (ws.getD 0 0)) ∧
      (getCtx u c).firstSeq = g.recNext.toNat ∧ (getCtx u c).more = (getCtx g c).more ∧
      OutMsg.vector (if (getCtx g c).vfOwn then c.val + 1 else 0) (getCtx g c).vector ∈ u.outs) ∧
    (inStop (getCtx g c) (ws.getD 0 0) = true → (getCtx g c).codes ≠ [] → (getCtx g c).codes.length < 8 →
      BitVec.ofNat 16 (wCode (ws.getD 0 0)) ∉ (getCtx g c).codes → ∃ u, exec .faultRecordLog s = .next u ∧ u.recNext = g.recNext + 1 ∧
      getCtx u c = { getCtx g c with codes := (getCtx g c).codes ++ [BitVec.ofNat 16 (wCode (ws.getD 0 0))] }) ∧
    (inStop (getCtx g c) (ws.getD 0 0) = true → ((getCtx g c).codes.length = 8 ∨ BitVec.ofNat 16 (wCode (ws.getD 0 0)) ∈ (getCtx g c).codes) →
      ∃ u, exec .faultRecordLog s = .next u ∧
      getCtx u c = { getCtx g c with more := min ((getCtx g c).more + 1) (2 ^ 32 - 1) } ∧ u.recNext = g.recNext ∧
      rd u rGAF_FLOG_CTL fGAF_FLOG_CTL_WR = rd g rGAF_FLOG_CTL fGAF_FLOG_CTL_WR) ∧
    (inStop (getCtx g c) (ws.getD 0 0) = false → ∃ u, exec .faultRecordLog s = .next u ∧ u.recNext = g.recNext + 1 ∧ u.ctxs = g.ctxs)) ∧
  -- with no whole record waiting nothing is logged, and a record its unit holds goes on once its channel has room
  (∀ s, (∀ k : Nat, k < 17 → headRecord s (4 + k) = none) → s.gathered = [] →
    (s.faultHeld = [] → exec .faultRecordLog s = .next s) ∧
    (∀ h, s.faultHeld = [h] → 8 ≤ caneFree (faultChan h.item.engine h.item.unit) s.now (getCane s (faultChan h.item.engine h.item.unit)) →
      exec .faultRecordLog s = .next (faultPush { s with faultHeld := [] } h.item)) ∧
    (∀ h, s.faultHeld = [h] → caneFree (faultChan h.item.engine h.item.unit) s.now (getCane s (faultChan h.item.engine h.item.unit)) < 8 →
      exec .faultRecordLog s = .next s)) ∧
  -- the words of a record
  (∀ r : FaultRec, r.unit < 2 ^ 16 → r.engine < 16 → r.step < 2 ^ 48 → r.count < 2 ^ 64 →
    wCode ((recWords r).getD 0 0) = r.code.toNat ∧ wStop ((recWords r).getD 0 0) = r.stop ∧ wCtx ((recWords r).getD 0 0) = r.ctx ∧
    wEngine ((recWords r).getD 0 0) = r.engine ∧ wUnit ((recWords r).getD 0 0) = r.unit ∧
    fget ⟨42, 35⟩ ((recWords r).getD 0 0) = r.gen.toNat ∧ fget ⟨23, 16⟩ ((recWords r).getD 0 0) = r.peer.toNat ∧
    ((recWords r).getD 1 0).toNat = r.count ∧ ((recWords r).getD 2 0).toNat = r.step) ∧
  -- the oldest record of the ring not yet spilled is copied to its place of the spill ring
  (∀ s n k, gafferDown s = false → n = rd s rGAF_FLOG_CTL fGAF_FLOG_CTL_WR → n ≠ s.spill → s.spill < 2 ^ 32 →
    k = (n + 2 ^ 32 - min ((n + 2 ^ 32 - s.spill) % 2 ^ 32) 256) % 2 ^ 32 →
    ((n + 2 ^ 32 - s.spill) % 2 ^ 32 ≤ 256 → k = s.spill) ∧
    ∃ u, exec .faultSpill s = .next u ∧ u.spill = (k + 1) % 2 ^ 32 ∧
      (∀ j : Nat, j < 8 → memRead u (0xE000000000 + 0x5000000 + 64 * (k % 2 ^ 22) + 8 * j) 8 = (regGet s (rGAF_FLOG (k % 256) j)).toNat) ∧
      (∀ a, a < spillAddr k ∨ spillAddr k + 64 ≤ a → memByte u a = memByte s a) ∧
      u = { s with mem := u.mem, flaw := u.flaw, poison := u.poison, spill := u.spill }) ∧
  (∀ s, gafferDown s = true ∨ rd s rGAF_FLOG_CTL fGAF_FLOG_CTL_WR = s.spill → exec .faultSpill s = .next s) ∧
  -- a LINK 0x001 record closes 1,200 ticks after its fault
  (∀ i s, ∃ u, exec (.linkRecordClose i) s = .next u ∧ u = { s with recOpen := u.recOpen } ∧
    ∀ r, r ∈ u.recOpen ↔ r ∈ s.recOpen ∧ ¬(r.1 = i.toNat ∧ r.2.2 + 1200 ≤ s.now))

/-- Reset and close of a context (R277, R286 to R288, R297): CTX_RESET, CTX_CLOSE, PURGE_ACK, PURGE_DEADLINE,
GEN_GUARD_EXPIRY and CLOSE_WIPE_COMPLETE. -/
def Obligations.ContextsResetAndClose : Prop :=
  -- the command stops the context and starts the purge of all eight engines
  (∀ src p s h, pcode p = 0x12 → CmdTurn s src p h → (getCtx s (pctx p)).st = .opened ∨ (getCtx s (pctx p)).st = .replay →
    ∃ u, exec (.ctxReset src p) s = .next u ∧ (getCtx u (pctx p)).st = .resetting ∧ (getCtx u (pctx p)).toClose = false ∧
      (getCtx u (pctx p)).purge = some { began := s.now, pending := 255 } ∧ (∀ k ∈ u.cmds, isCmd src p k = true → k.started = true)) ∧
  (∀ src p s h, pcode p = 0x11 → CmdTurn s src p h → (getCtx s (pctx p)).st = .opened ∨ (getCtx s (pctx p)).st = .replay →
    ∃ u, exec (.ctxClose src p) s = .next u ∧ (getCtx u (pctx p)).st = .resetting ∧ (getCtx u (pctx p)).toClose = true ∧
      (getCtx u (pctx p)).purge = some { began := s.now, pending := 255 } ∧ (∀ k ∈ u.cmds, isCmd src p k = true → k.started = true)) ∧
  (∀ src p s h, pcode p = 0x12 → CmdTurn s src p h → (getCtx s (pctx p)).st = .opened →
    ∃ u, exec (.ctxReset src p) s = .next u ∧
      (getCtx u (pctx p)).plan = (if holdsPlan (getCtx s (pctx p)) then .faulted else (getCtx s (pctx p)).plan) ∧
      (getCtx u (pctx p)).faultTick = some ((getCtx s (pctx p)).faultTick.getD s.now) ∧
      (getCtx u (pctx p)).gen = (getCtx s (pctx p)).gen ∧ (∀ d : CtxId, d ≠ pctx p → getCtx u d = getCtx s d) ∧ u.mem = s.mem) ∧
  -- one that is already resetting or closing is not touched
  (∀ src p s h, CmdTurn s src p h → (getCtx s (pctx p)).st = .resetting ∨ (getCtx s (pctx p)).st = .closing →
    (pcode p = 0x12 → exec (.ctxReset src p) s = .next s) ∧ (pcode p = 0x11 → exec (.ctxClose src p) s = .next s)) ∧
  -- each engine's purge, while others are pending
  (∀ (c : CtxId) (e : PurgeEngine) s q, (getCtx s c).purge = some q → q.pending.getLsbD e = true → s.now < q.began + 120000 →
    q.pending &&& ~~~ (1#8 <<< e.val) ≠ 0 →
    ∃ u, exec (.purgeAck c e) s = .next u ∧ (getCtx u c).purge = some { q with pending := q.pending &&& ~~~ (1#8 <<< e.val) } ∧
      (getCtx u c).st = (getCtx s c).st ∧ (getCtx u c).gen = (getCtx s c).gen ∧
      (e = 0 → ∀ t : TileId, (getCtx s c).tiles.getLsbD t = true → (getTile u t).st = .idle ∧ (getTile u t).outbox = [] ∧
        (getTile u t).xout = [] ∧ (getTile u t).inbox = [] ∧ (getTile u t).xin = [] ∧ (getTile u t).q = (getTile s t).q ∧ (getTile u t).v = (getTile s t).v ∧ (getTile u t).ad = (getTile s t).ad) ∧
      (e = 0 → ∀ t : TileId, (getCtx s c).tiles.getLsbD t = false → getTile u t = getTile s t) ∧
      (e = 0 → ∀ i ∈ u.inb, ¬(i.ctx = some c ∧ tileNeeds i = true)) ∧
      (e = 1 → (∀ t : TileId, (getCtx s c).tiles.getLsbD t = true → (getTile u t).punty = []) ∧
        (∀ n v, (n, v) ∈ u.chip → ¬((getCtx s c).ctrBase ≤ n ∧ n < (getCtx s c).ctrBase + (getCtx s c).ctrLen)) ∧
        ∀ i ∈ u.syncNet, ctrOf (getCtx s c) i.ctr = false) ∧
      (e = 2 → (∀ f ∈ u.flight, f.ctx ≠ c) ∧ ∀ d ∈ u.deliv, d.ctx ≠ c) ∧
      (e = 3 → ∀ g : EngId, (getCtx s c).engines.getLsbD g = true → (getEng u g).list = [] ∧ (getEng u g).staging = [] ∧
        (getEng u g).active = false ∧ (getEng u g).own = (getEng s g).own ∧ (getEng u g).blocks = (getEng s g).blocks) ∧
      (e = 4 → (∀ r ∈ u.rel, r.ctx ≠ c) ∧ (∀ l : LinkId, ∀ b ∈ (getLink u l).lehr, (ownMask s c l).getLsbD (b.1 % 64) = false) ∧
        (∀ f ∈ u.foldB, f.ctx ≠ c) ∧ (∀ p, (getCtx s c).image = some p → (getCtx u c).image = some (noSlots p)) ∧
        ∀ l : LinkId, ownMask u c l = ownMask s c l) ∧
      (e = 5 → (∀ o ∈ u.outst, o.ctx ≠ c) ∧ (∀ r ∈ u.reqq, r.1 ≠ c.val)) ∧
      (e = 6 → (∀ i ∈ u.inb, ¬(i.ctx = some c ∧ chanNeeds i = true)) ∧
        ∀ a ∈ u.hostAcc, ∀ src p k, a.who = .piece src p k → pctx p = c → ∀ n ∈ a.needs, n.isSram = true) ∧
      (e = 7 → twinOn s c = true → u.twin = TwinSt.zero)) ∧
  -- the last acknowledgement ends the reset, once the next generation is free: GEN advances and the plan is NONE
  (∀ (c : CtxId) (e : PurgeEngine) s q, (getCtx s c).purge = some q → q.pending = 1#8 <<< e.val → s.now < q.began + 120000 →
    genFree (getCtx s c) s.now = true →
    ∃ u, exec (.purgeAck c e) s = .next u ∧ (getCtx u c).gen = (getCtx s c).gen + 1 ∧ (getCtx u c).plan = .none ∧ (getCtx u c).image = none ∧
      (getCtx u c).purge = none ∧ (getCtx u c).codes = [] ∧ (getCtx u c).more = 0 ∧ (getCtx u c).stepCtr = 0 ∧
      (getCtx u c).st = (if (getCtx s c).toClose then .closing else if (getCtx s c).replay.isSome then .replay else .opened) ∧
      (getCtx u c).wiping = (getCtx s c).toClose ∧ (getCtx u c).faultTick = none ∧ (getCtx u c).stopped = false ∧
      ∀ a ∈ u.hostAcc, ∀ src p k, a.who = .piece src p k → pctx p ≠ c) ∧
  -- one that was not asked for, or comes after the deadline, does nothing
  (∀ (c : CtxId) (e : PurgeEngine) s, (∀ q, (getCtx s c).purge = some q → q.pending.getLsbD e = false ∨ q.began + 120000 ≤ s.now) →
    exec (.purgeAck c e) s = .next s) ∧
  -- a generation left less than 1,200,000 ticks ago delays it
  (∀ (c : CtxId) s q, (getCtx s c).purge = some q → q.pending = 0 →
    (genFree (getCtx s c) s.now = false → exec (.genGuardExpiry c) s = .next s) ∧
    (genFree (getCtx s c) s.now = true → ∃ u, exec (.genGuardExpiry c) s = .next u ∧ (getCtx u c).gen = (getCtx s c).gen + 1 ∧
      (getCtx u c).plan = .none ∧ (getCtx u c).purge = none ∧ u.mem = s.mem ∧ u.tiles = s.tiles)) ∧
  -- an engine that has not acknowledged by 120,000 ticks brings device recovery
  (∀ (c : CtxId) s q, (getCtx s c).purge = some q → q.pending ≠ 0 →
    (s.now < q.began + 120000 → exec (.purgeDeadline c) s = .next s) ∧
    (q.began + 120000 ≤ s.now → s.recPhase = 0 → dead s = false → s.pwr.quenched = false →
      ∃ u, exec (.purgeDeadline c) s = .next u ∧ RecoveryBegan s u)) ∧
  (∀ (c : CtxId) s, (getCtx s c).purge = none → exec (.genGuardExpiry c) s = .next s ∧ exec (.purgeDeadline c) s = .next s) ∧
  (∀ (c : CtxId) s, (getCtx s c).wiping = false → exec (.closeWipeComplete c) s = .next s) ∧
  -- the wipe clears every byte the context held, and everything it held is released
  (∀ (c : CtxId) s, (getCtx s c).wiping = true → ∃ u, exec (.closeWipeComplete c) s = .next u ∧
    (∀ t : TileId, (getCtx s c).tiles.getLsbD t = true → Zeroed u (sramAddr t 0) 0x2000000) ∧
    (∀ r a b, r < 8 → rgnOf s c r = some (a, b) → Zeroed u a (b - a)) ∧ Zeroed u (rankAddr c 0) 0x400000 ∧ Zeroed u (stagingAddr c) 0x100000000 ∧
    (getCtx u c).st = .closed ∧ (getCtx u c).gen = (getCtx s c).gen ∧ (getCtx u c).tiles = 0 ∧ (getCtx u c).engines = 0 ∧
    (∀ t : TileId, (getCtx s c).tiles.getLsbD t = true → (getTile u t).own = none) ∧
    (∀ g : EngId, (getCtx s c).engines.getLsbD g = true → (getEng u g).own = none) ∧
    (∀ l : LinkId, ownMask u c l = 0) ∧ (∀ r, r < 8 → rgnOf u c r = none) ∧ (∀ d : CtxId, d ≠ c → getCtx u d = getCtx s d))

/-- The wait-cycle detector and device recovery (R289 to R297): HANG_SAMPLE, HANG_REPLAY, WATCHDOG_EXPIRY, DEVICE_RECOVERY,
ENGINE_RESET_TIMEOUT, RECOVERY_PHASE_COMPLETE and RECOVERY_FAILED. -/
def Obligations.TheModuleDetectsHangsAndRecovers : Prop :=
  -- a sample every 4,096 ticks while ENABLE is set
  (∀ s, rd s rGAF_HANG_CTL fGAF_HANG_CTL_ENABLE = 0 ∨ s.now % 4096 ≠ 0 → exec .hangSample s = .next s) ∧
  (∀ s, gafferDown s = false → rd s rGAF_HANG_CTL fGAF_HANG_CTL_ENABLE = 1 → s.now % 4096 = 0 → s.hang.at_ ≠ s.now + 1 →
    (cyclesOf (stuck s (waiting s)) = [] → ∃ u, exec .hangSample s = .next u ∧ u = { s with hang := u.hang } ∧ u.hang.cycles = [] ∧
      u.hang.at_ = s.now + 1 ∧ u.hang.marks.length = (waiting s).length) ∧
    -- the first three samples of a path only count; the fourth in a row fires, and its open suspects are reset
    (∀ cyc k, cyclesOf (stuck s (waiting s)) = [cyc] → s.hang.cycles = [(cyc, k)] → s.hang.at_ + 4096 = s.now + 1 →
      (k < 3 → ∃ u, exec .hangSample s = .next u ∧ u = { s with hang := u.hang } ∧ u.hang.cycles = [(cyc, k + 1)]) ∧
      (k = 3 → s.hang.cur = none → ∃ u, exec .hangSample s = .next u ∧
        rd u rGAF_HANG_STATUS fGAF_HANG_STATUS_FIRES = min (rd s rGAF_HANG_STATUS fGAF_HANG_STATUS_FIRES + 1) (2 ^ 32 - 1) ∧
        u.hang.cycles = [] ∧ (∀ c ∈ suspects s cyc, (getCtx s c).st = .opened → (getCtx u c).st = .resetting) ∧
        -- a suspect of several modules tells the job's others; one whose step is replayable waits for its replay
        (∀ c ∈ suspects s cyc, ∀ p, (getCtx s c).st = .opened → (getCtx s c).image = some p →
          (p.multi = true → OutMsg.jobEvent (getCtx s c).job.toNat ∈ u.outs) ∧
          (p.multi = false → mayReplay s c = true → c ∈ u.hang.queue ∧ tget (fun _ => 0) u.hang.steps c = stepNum s c)) ∧
        (∀ c : CtxId, c ∉ suspects s cyc → getCtx u c = getCtx s c) ∧ u.mem = s.mem))) ∧
  -- a context that is being reset or closed is no suspect
  (∀ s cyc (c : CtxId), c ∈ suspects s cyc → (getCtx s c).st = .opened ∨ (getCtx s c).st = .replay) ∧
  -- a suspect is loaded again alone and armed for the one step it was in, at a multiple of 256 at least 240,000 ticks on
  (∀ (c : CtxId) s, gafferDown s = false → s.hang.cur = none → (∀ d ∈ s.hang.queue, (getCtx s d).st = .replay) →
    allCtx.find? (fun d : CtxId => s.hang.queue.contains d) = some c →
    (reload { s with hang := { s.hang with queue := s.hang.queue.erase c, cur := some c } } c (tget (fun _ => 0) s.hang.steps c)).2 = true →
    ∃ u, exec (.hangReplay c) s = .next u ∧ (getCtx u c).plan = .armed ∧ (getCtx u c).launchAt % 256 = 0 ∧
      s.now + 240000 ≤ (getCtx u c).launchAt ∧ (getCtx u c).launchAt < s.now + 240256 ∧
      (getCtx u c).endStep = some (tget (fun _ => 0) s.hang.steps c) ∧ resumeStep u c = tget (fun _ => 0) s.hang.steps c % 2 ^ 48) ∧
  -- one whose image is refused again is guilty and stays faulted
  (∀ (c : CtxId) s, gafferDown s = false → s.hang.cur = none → (∀ d ∈ s.hang.queue, (getCtx s d).st = .replay) →
    allCtx.find? (fun d : CtxId => s.hang.queue.contains d) = some c →
    (reload { s with hang := { s.hang with queue := s.hang.queue.erase c, cur := some c } } c (tget (fun _ => 0) s.hang.steps c)).2 = false →
    s.hang.queue.erase c ≠ [] → c ∉ s.hang.queue.erase c →
    ∃ u, exec (.hangReplay c) s = .next u ∧ (getCtx u c).st = .opened ∧ u.hang.cur = none ∧ u.hang.queue = s.hang.queue.erase c ∧
      (BitVec.ofNat 8 (rd u rGAF_HANG_STATUS fGAF_HANG_STATUS_GUILTY)).getLsbD c = true) ∧
  (∀ (c : CtxId) s, gafferDown s = true ∨ s.hang.cur ≠ none ∨ (∃ d ∈ s.hang.queue, (getCtx s d).st ≠ .replay) ∨
    allCtx.find? (fun d : CtxId => s.hang.queue.contains d) ≠ some c → exec (.hangReplay c) s = .next s) ∧
  -- the triggers of device recovery
  (∀ s, watched s = true → dead s = false → s.recPhase = 0 →
    (∃ u, exec .watchdogExpiry s = .next u ∧ RecoveryBegan s u) ∧ (∃ u, exec .engineResetTimeout s = .next u ∧ RecoveryBegan s u) ∧
    ∀ k : BitVec 4, 1 ≤ k.toNat → k.toNat ≤ 4 → ∃ u, exec (.deviceRecovery k) s = .next u ∧ RecoveryBegan s u) ∧
  (∀ s, watched s = false → exec .watchdogExpiry s = .next s ∧ exec .engineResetTimeout s = .next s ∧ ∀ k, exec (.deviceRecovery k) s = .next s) ∧
  -- a trigger during a recovery, a late phase or a lost domain makes the module dead; the plans of forwarding-only contexts stay
  (∀ s, watched s = true → dead s = false → s.recPhase ≠ 0 → ∃ u, exec .watchdogExpiry s = .next u ∧ dead u = true ∧ u.recPhase = 0 ∧
    u.ctxs = s.ctxs ∧ u.mem = s.mem ∧ ∀ l : LinkId, lnkState s l = 6 → (getLink u l).ctrlq = (getLink s l).ctrlq ++ [BitVec.ofNat 64 (0x05 * 2 ^ 56 + 3)]) ∧
  (∀ s, s.recPhase ≠ 0 → (recLate s = true → ∃ u, exec .recoveryFailed s = .next u ∧ dead u = true ∧ u.recPhase = 0 ∧ u.ctxs = s.ctxs ∧ u.mem = s.mem) ∧
    (recLate s = false → exec .recoveryFailed s = .next s)) ∧
  (∀ r s, s.recPhase = 0 ∨ dead s = true → exec (.recoveryPhaseComplete r) s = .next s) ∧
  (∀ r s, dead s = false → s.recPhase ≠ 0 → recLate s = true ∨ recBroken s r = true →
    ∃ u, exec (.recoveryPhaseComplete r) s = .next u ∧ dead u = true ∧ u.ctxs = s.ctxs ∧ u.mem = s.mem) ∧
  -- otherwise the phases follow one another; the domains lose what they hold, and the wipe clears SRAM and context space
  (∀ r s, dead s = false → recLate s = false → recBroken s r = false →
    (s.recPhase = 1 ∨ s.recPhase = 4 ∨ s.recPhase = 5 ∨ s.recPhase = 7 → ∃ u, exec (.recoveryPhaseComplete r) s = .next u ∧
      u.recPhase = s.recPhase + 1 ∧ rd u rGAF_RECOVERY fGAF_RECOVERY_PHASE = s.recPhase + 1 ∧ u.recStep = s.now ∧ u.ctxs = s.ctxs ∧ u.mem = s.mem) ∧
    (s.recPhase = 2 → ∃ u, exec (.recoveryPhaseComplete r) s = .next u ∧ u.recPhase = 3 ∧ u.tiles = [] ∧ u.engines = [] ∧ u.outst = [] ∧
      u.ctxs = s.ctxs ∧ u.links = s.links ∧ u.mem = s.mem ∧ u.now = s.now) ∧
    (s.recPhase = 3 → fwReject s (flashImg s) true = none → ∃ u, exec (.recoveryPhaseComplete r) s = .next u ∧ u.recPhase = 4 ∧
      u.ctxs = s.ctxs ∧ u.links = s.links ∧ u.mem = s.mem ∧ u.flash = s.flash) ∧
    -- a firmware image that is refused leaves recovery by host
    (∀ d, s.recPhase = 3 → fwReject s (flashImg s) true = some d → ∃ u, exec (.recoveryPhaseComplete r) s = .next u ∧ u.recPhase = 0 ∧
      bootMode u = 3 ∧ u.mem = s.mem) ∧
    -- the channels take their stored training results, or new ones where they are trained in full
    (s.recPhase = 5 → ∃ u, exec (.recoveryPhaseComplete r) s = .next u ∧ u.lpTrain = u.trainStore ∧
      ∀ c : Nat, c < 128 → r.chanFull.getLsbD c = false → tget (fun _ => 0) u.trainStore c = tget (fun _ => 0) s.trainStore c) ∧
    (s.recPhase = 6 → ∃ u, exec (.recoveryPhaseComplete r) s = .next u ∧ u.recPhase = 7 ∧ Zeroed u 0 0xE000000000 ∧
      Zeroed u (sramAddr 0 0) 0x200000000 ∧ Zeroed u (tableAddr 0x2000000) 0x2000000 ∧ (∀ c : CtxId, Zeroed u (stagingAddr c) 0x100000000)) ∧
    -- at the end the contexts in recovery are CLOSED with GEN advanced, and the others have run on
    (∀ (c : CtxId) x, s.recPhase = 8 → s.recov = [(c, x)] → ∃ u, exec (.recoveryPhaseComplete r) s = .next u ∧ u.recPhase = 0 ∧ u.recov = [] ∧
      (getCtx u c).st = .closed ∧ (getCtx u c).gen = x.gen + 1 ∧ (∀ d : CtxId, d ≠ c → getCtx u d = getCtx s d) ∧ u.mem = s.mem ∧
      ∀ l : LinkId, lnkState s l = 6 → (getLink u l).ctrlq = (getLink s l).ctrlq ++ [BitVec.ofNat 64 (0x05 * 2 ^ 56 + 2)]))

/-! ### The host interface (chapter 13) -/

/-- How packets reach the module, are checked, wait their turn and are answered (R302, R309, R311 to R318, R324): WINDOW_WRITE,
PACKET_TAKE, NOP and FENCE, and what every command of a window has in common. -/
def Obligations.PacketsAreTakenCheckedAndAnswered : Prop :=
  -- a write into a valid packet is discarded and counted
  (∀ (c : CtxId) src off wide data s, src = .pf c ∨ src = .vf c → winValid s c = true →
    (off.toNat / 64 + 16384 - winTake s c) % 16384 < winUnits s c → ∃ u, exec (.windowWrite src off wide data) s = .next u ∧ u.winMem = s.winMem ∧
      rd u (rHST_WIN_ERR c) fHST_WIN_ERR_OVERWRITE = min (rd s (rHST_WIN_ERR c) fHST_WIN_ERR_OVERWRITE + 1) (2 ^ 32 - 1) ∧ u.cmds = s.cmds) ∧
  -- one into a free unit lands, whole or in its half of the word, and nowhere else
  (∀ (c : CtxId) src (off : BitVec 20) wide data s high hi, src = .pf c ∨ src = .vf c →
    winValid s c = false ∨ winUnits s c ≤ (off.toNat / 64 + 16384 - winTake s c) % 16384 →
    high = (wide || decide (4 ≤ off.toNat % 8)) → hi = fget (if wide then ⟨63, 32⟩ else ⟨31, 0⟩) data →
    ¬(off.toNat / 8 % 8 = 3 ∧ high = true ∧ off.toNat / 64 = winTake s c ∧ hi ≠ 0 ∧ hi ≠ winExpect s c) →
    ∃ u, exec (.windowWrite src off wide data) s = .next u ∧
      fget ⟨63, 32⟩ (winWord u c (off.toNat / 64) (off.toNat / 8 % 8)) =
        (if high then hi else fget ⟨63, 32⟩ (winWord s c (off.toNat / 64) (off.toNat / 8 % 8))) ∧
      fget ⟨31, 0⟩ (winWord u c (off.toNat / 64) (off.toNat / 8 % 8)) =
        (if wide || !high then fget ⟨31, 0⟩ data else fget ⟨31, 0⟩ (winWord s c (off.toNat / 64) (off.toNat / 8 % 8))) ∧
      (∀ (d : CtxId) v k, v < 16384 → k < 8 → ¬(d = c ∧ v = off.toNat / 64 ∧ k = off.toNat / 8 % 8) → winWord u d v k = winWord s d v k) ∧
      u = { s with winMem := u.winMem, winVf := u.winVf }) ∧
  -- the expected sequence at TAKE makes the packet valid; another nonzero one is counted and ignored
  (∀ (c : CtxId) src (off : BitVec 20) data s, src = .pf c ∨ src = .vf c → winValid s c = false → off.toNat / 64 = winTake s c →
    off.toNat / 8 % 8 = 3 →
    (fget ⟨63, 32⟩ data = winExpect s c → ∃ u, exec (.windowWrite src off true data) s = .next u ∧ winValid u c = true ∧ u.cmds = s.cmds) ∧
    (fget ⟨63, 32⟩ data ≠ winExpect s c → fget ⟨63, 32⟩ data ≠ 0 → ∃ u, exec (.windowWrite src off true data) s = .next u ∧ winValid u c = false ∧
      rd u (rHST_WIN_ERR c) fHST_WIN_ERR_BAD_SEQ = min (rd s (rHST_WIN_ERR c) fHST_WIN_ERR_BAD_SEQ + 1) (2 ^ 32 - 1))) ∧
  -- a valid packet is taken: TAKE and EXPECT move on, and its command joins those of the window
  (∀ (w : WinId) (c : CtxId) s, w.val = c.val → winValid s c = true → served s (winSrc s c) = true → tget (fun _ => false) s.ideBad 15 = false →
    (s.cmds.filter fun k => winOf k.src = c.val).length < 64 → takeCheck s (winSrc s c) (winPacket s c) = none →
    ∃ u, exec (.packetTake w) s = .next u ∧ winTake u c = (winTake s c + winUnits s c) % 16384 ∧ winExpect u c = nextSeq (winExpect s c) ∧
      (∃ f, u.cmds = s.cmds ++ [{ src := winSrc s c, who := 0, pkt := winPacket s c, taken := s.now, free := f, started := false, info := 0 }] ∧
        (s.cmds = [] → f = true)) ∧ u = { s with regs := u.regs, cmds := u.cmds }) ∧
  -- one that fails a check is answered at once
  (∀ (w : WinId) (c : CtxId) s st, w.val = c.val → winValid s c = true → served s (winSrc s c) = true → tget (fun _ => false) s.ideBad 15 = false →
    (s.cmds.filter fun k => winOf k.src = c.val).length < 64 → takeCheck s (winSrc s c) (winPacket s c) = some st →
    ∃ u v, exec (.packetTake w) s = .next u ∧ u = sendReply v (winSrc s c) 0 (winPacket s c) s.now st 0 [] ∧
      winTake u c = (winTake s c + winUnits s c) % 16384 ∧ winExpect u c = nextSeq (winExpect s c) ∧ u.cmds = s.cmds ∧ v = { s with regs := v.regs }) ∧
  (∀ (w : WinId) (c : CtxId) s, w.val = c.val → winValid s c = false ∨ 64 ≤ (s.cmds.filter fun k => winOf k.src = c.val).length ∨
      tget (fun _ => false) s.ideBad 15 = true ∨ served s (winSrc s c) = false → exec (.packetTake w) s = .next s) ∧
  (∀ n, nextSeq n = if n = 0xFFFFFFFF then 1 else n + 1) ∧
  -- every command: one that fails a check at take ends with its status; one that passes joins its window; one that is no command of
  -- its window's, or whose turn has not come, changes nothing; one on a closed context is refused with STATE
  (∀ e ∈ hostCmds, ∀ src p s, pcode p = e.2.1 → e.2.2 p = true →
    (served s src = true → s.cmds.any (isCmd src p) = false → (s.cmds.filter fun k => winOf k.src = winOf src).length < 64 →
      (∀ st, takeCheck s src p = some st → exec (e.1 src p) s = .next (sendReply s src 0 p s.now st 0 [])) ∧
      (takeCheck s src p = none → exec (e.1 src p) s = exec (e.1 src p) (addCmd s src 0 p))) ∧
    (served s src = false → exec (e.1 src p) s = .next s) ∧
    (∀ h, served s src = true → s.cmds.find? (isCmd src p) = some h → h.started = false → mayStart s (cmdsBefore s src p) h = false →
      exec (e.1 src p) s = .next s) ∧
    (∀ h, served s src = true → s.cmds.find? (isCmd src p) = some h → h.started = false → mayStart s (cmdsBefore s src p) h = true →
      ctxOps.contains (pcode p) = true → (getCtx s (pctx p)).st = .closed → exec (e.1 src p) s = .next (refuse s h stState))) ∧
  (∀ e ∈ hostCmds, ∀ src p s, pcode p ≠ e.2.1 → exec (e.1 src p) s = .next s) ∧
  -- the checks at take, in their order
  (∀ s src p (c : CtxId), src = .pf c ∨ src = .vf c →
    (p.length.toNat = 0 ∨ 64 < p.length.toNat ∨ p.context.toNat ≠ c.val → takeCheck s src p = some stBadParam) ∧
    (1 ≤ p.length.toNat → p.length.toNat ≤ 64 → p.context.toNat = c.val →
      (layout (pcode p) = none → takeCheck s src p = some stBadOpcode) ∧
      (layout (pcode p) ≠ none → bootMode s = 3 → pcode p ∉ romOps → takeCheck s src p = some stState) ∧
      (layout (pcode p) ≠ none → bootMode s ≠ 3 →
        (allowed s src p = false → takeCheck s src p = some stDenied) ∧
        (allowed s src p = true → ctxBusy (getCtx s (pctx p)) = true → pcode p ∉ [0x11, 0x12, 0x23, 0x80] → takeCheck s src p = some stBusy) ∧
        (allowed s src p = true → ctxBusy (getCtx s (pctx p)) = false →
          (pcode p ∈ genOps → p.gen ≠ (getCtx s (pctx p)).gen → takeCheck s src p = some stBadGen) ∧
          (pcode p ∉ genOps ∨ p.gen = (getCtx s (pctx p)).gen →
            (fieldsOk src p = false → takeCheck s src p = some stBadParam) ∧
            (fieldsOk src p = true → timeRange p = true → takeCheck s src p = some 0x41) ∧
            (fieldsOk src p = true → timeRange p = false → takeCheck s src p = none)))))) ∧
  -- who may issue what: a VF its context's commands alone, a PF alias of a VF-owned context resets and reads
  (∀ s p (c : CtxId), ((getCtx s c).vfOwn = false → allowed s (.pf c) p = true ∧ (allowed s (.vf c) p = true ↔ pcode p ∈ [0x01, 0xA0, 0xA1])) ∧
    ((getCtx s c).vfOwn = true → (allowed s (.pf c) p = true ↔ pcode p ∈ aliasOps) ∧
      (allowed s (.vf c) p = true ↔ pcode p ∈ vfOps ∧ (pcode p = 0x60 → pf p 0 63 60 = 3)))) ∧
  -- order: one control command of a window at a time, ORDER waits for all, a fence holds later ones, a reset waits for resets only
  (∀ s before h k, k ∈ before → winOf k.src = winOf h.src → isReset h = false →
    (isCopy h = false → isCopy k = false → mayStart s before h = false) ∧ (h.pkt.flags.getLsbD 14 = true → mayStart s before h = false) ∧
    (pcode k.pkt = 0x40 → mayStart s before h = false) ∧
    -- a copy waits for earlier copies to start, for one of eight places, and for those it overlaps
    (isCopy h = true → isCopy k = true → k.started = false ∨ copyClash s h k = true → mayStart s before h = false) ∧
    (isCopy h = true → 8 ≤ ((before.filter fun k => winOf k.src = winOf h.src).filter isCopy).length → mayStart s before h = false)) ∧
  (∀ s before h, isReset h = true → (∀ k ∈ before, isReset k = true → pctx k.pkt ≠ pctx h.pkt) → mayStart s before h = true) ∧
  -- the reply: where it stands, what it says, and its vector
  (∀ s h st r, h.src ≠ .sideband → h.pkt.reply.toNat / 32 ≠ 0 →
    let a := h.pkt.reply.toNat / 32 * 32
    let u := finish s h st r []
    (∀ k ∈ u.cmds, isCmd h.src h.pkt k = false) ∧ (∀ k, k ∈ s.cmds → isCmd h.src h.pkt k = false → k ∈ u.cmds) ∧
    hostRead u a 2 = st % 2 ^ 16 ∧ hostRead u (a + 2) 2 = pcode h.pkt ∧ hostRead u (a + 4) 1 = h.pkt.context.toNat ∧
    hostRead u (a + 5) 1 = (getCtx s (pctx h.pkt)).gen.toNat ∧ hostRead u (a + 8) 4 = h.pkt.seq.toNat ∧ hostRead u (a + 12) 4 = h.pkt.tag.toNat ∧
    hostRead u (a + 16) 8 = h.taken % 2 ^ 64 ∧ hostRead u (a + 24) 8 = r % 2 ^ 64 ∧
    (∀ b, b < a ∨ a + 32 ≤ b → hostRead u b 1 = hostRead s b 1) ∧
    (h.pkt.flags.getLsbD 15 = true → OutMsg.vector (fnOf h.src) (h.pkt.flags.toNat % 1024) ∈ u.outs) ∧
    u = { s with cmds := u.cmds, regs := u.regs, hostMem := u.hostMem, outs := u.outs }) ∧
  (∀ s h bs r, h.src ≠ .sideband → pf h.pkt 1 31 0 < bs.length → finishData s h bs r = refuse s h stBufShort) ∧
  -- NOP answers at once; FENCE waits for the earlier commands of its window and for the step it names
  (∀ src p s h, pcode p = 0x01 → CmdTurn s src p h → exec (.nopCommand src p) s = .next (done s h 0)) ∧
  (∀ src p s h, pcode p = 0x40 → CmdTurn s src p h →
    ((∀ k ∈ cmdsBefore s src p, winOf k.src ≠ winOf src) → (pf p 0 63 63 = 0 ∨ (getCtx s (pctx p)).plan ≠ .running ∨ pf p 0 47 0 ≤ stepNum s (pctx p)) →
      ∃ u, exec (.fence src p) s = .next u ∧ (∀ k ∈ u.cmds, isCmd src p k = false) ∧ u.ctxs = s.ctxs ∧ u.mem = s.mem) ∧
    ((∃ k ∈ cmdsBefore s src p, winOf k.src = winOf src ∧ pcode k.pkt ≠ 0x40) ∨
        (pf p 0 63 63 = 1 ∧ (getCtx s (pctx p)).plan = .running ∧ stepNum s (pctx p) < pf p 0 47 0) →
      ∃ u, exec (.fence src p) s = .next u ∧ Waits u src p ∧ u.ctxs = s.ctxs ∧ u.mem = s.mem))


/-- Contexts, plans and host copies (R229, R231, R245, R265, R275, R320 to R323): CTX_OPEN, PLAN_LOAD, PLAN_ARM, PLAN_ABORT in both
forms, PLAN_STATUS, COPY_IN, COPY_OUT, FILL and WIPE. -/
def Obligations.ContextAndPlanCommandsAct : Prop :=
  -- CTX_OPEN gives a closed context everything its packet names
  (∀ src p s h b, pcode p = 0x10 → CmdTurn s src p h → (∀ l : LinkId, fluxMask s l (pw p (14 + l)) = false) → (getCtx s (pctx p)).st = .closed →
    rd s rGAF_LOCATION fGAF_LOCATION_GID_VALID = 1 → s.boot.lcAt = none → openClash s p = false → freeCounters s (pf p 0 12 0) = some b →
    ∃ v, exec (.ctxOpen src p) s = .next (done v h (b + 2 ^ 16 * (getCtx s (pctx p)).gen.toNat)) ∧
      (getCtx v (pctx p)).st = .opened ∧ (getCtx v (pctx p)).plan = .none ∧ (getCtx v (pctx p)).gen = (getCtx s (pctx p)).gen ∧
      (getCtx v (pctx p)).tiles = openTiles p ∧ (getCtx v (pctx p)).engines = openEngines p ∧ (getCtx v (pctx p)).ctrBase = b ∧
      (getCtx v (pctx p)).job.toNat = pf p 0 59 48 ∧ (getCtx v (pctx p)).rank.toNat = pf p 0 47 32 ∧ (getCtx v (pctx p)).vector = pf p 1 63 54 ∧
      (∀ t : TileId, (openTiles p).getLsbD t = true → (getTile v t).own = some (pctx p)) ∧
      (∀ g : EngId, (openEngines p).getLsbD g = true → (getEng v g).own = some (pctx p)) ∧ (∀ l : LinkId, ownMask v (pctx p) l = pw p (14 + l)) ∧
      (∀ r a e, r < 8 → openRegion p r = some (a, e) → rgnOf v (pctx p) r = some (2 ^ 21 * a, 2 ^ 21 * (e + 1))) ∧
      (∀ d : CtxId, d ≠ pctx p → getCtx v d = getCtx s d) ∧ v.mem = s.mem ∧ v.now = s.now) ∧
  (∀ src p s h, pcode p = 0x10 → CmdTurn s src p h → (∀ l : LinkId, fluxMask s l (pw p (14 + l)) = false) →
    ((getCtx s (pctx p)).st ≠ .closed → exec (.ctxOpen src p) s = .next (refuse s h stState)) ∧
    ((getCtx s (pctx p)).st = .closed → rd s rGAF_LOCATION fGAF_LOCATION_GID_VALID = 1 → s.boot.lcAt = none → openClash s p = true →
      exec (.ctxOpen src p) s = .next (refuse s h stNoResource)) ∧
    (rd s rGAF_LOCATION fGAF_LOCATION_GID_VALID = 0 → exec (.ctxOpen src p) s = .next (refuse s h stState)) ∧
    ((getCtx s (pctx p)).st = .closed → rd s rGAF_LOCATION fGAF_LOCATION_GID_VALID = 1 →
      (s.boot.lcAt.isSome = true → exec (.ctxOpen src p) s = .next (refuse s h stBusy)) ∧
      (s.boot.lcAt = none → freeCounters s (pf p 0 12 0) = none → exec (.ctxOpen src p) s = .next (refuse s h stNoResource)))) ∧
  (∀ src p s h (l : LinkId), pcode p = 0x10 → CmdTurn s src p h → fluxMask s l (pw p (14 + l)) = true →
    exec (.ctxOpen src p) s = .next (refuse s h stBadParam)) ∧
  (∀ s n b (c : CtxId), freeCounters s n = some b → n ≠ 0 → (getCtx s c).st ≠ .closed → (getCtx s c).ctrLen ≠ 0 →
    b + n ≤ 4096 ∧ (b + n ≤ (getCtx s c).ctrBase ∨ (getCtx s c).ctrBase + (getCtx s c).ctrLen ≤ b)) ∧
  -- PLAN_LOAD installs an image that passes its checks; one that does not leaves NONE, and waits for its record
  (∀ src p s h, pcode p = 0x20 → CmdTurn s src p h → (getCtx s (pctx p)).plan = .none ∨ (getCtx s (pctx p)).plan = .complete →
    ((ldOf s (pctx p) p.payload).refused = none → ∃ v, exec (.planLoad src p) s = .next (done v h (memRead s (stagingAddr (pctx p) + 256) 8)) ∧
      (getCtx v (pctx p)).plan = .parison ∧ (getCtx v (pctx p)).image.isSome = true ∧ (getCtx v (pctx p)).faultTick = none ∧
      (getCtx v (pctx p)).stepCtr = 0 ∧ (getCtx v (pctx p)).gen = (getCtx s (pctx p)).gen ∧ resumeStep v (pctx p) = 0 ∧
      (∀ d : CtxId, d ≠ pctx p → getCtx v d = getCtx s d)) ∧
    (∀ e, (ldOf s (pctx p) p.payload).refused = some e → ∃ u, exec (.planLoad src p) s = .next u ∧ (getCtx u (pctx p)).plan = .none ∧
      (getCtx u (pctx p)).image = none ∧ resumeStep u (pctx p) = 0 ∧ Waits u src p ∧ u.tiles = s.tiles ∧ u.engines = s.engines ∧ u.mem = s.mem)) ∧
  (∀ src p s h, pcode p = 0x20 → CmdTurn s src p h → (getCtx s (pctx p)).plan ≠ .none → (getCtx s (pctx p)).plan ≠ .complete →
    exec (.planLoad src p) s = .next (refuse s h stState)) ∧
  -- PLAN_ARM: its checks in order, and the armed parison; the count they start from is the take count where it waited for nothing
  (∀ src p s h i a, pcode p = 0x21 → CmdTurn s src p h → (getCtx s (pctx p)).image = some i → a = (if h.free then h.taken else s.now) →
    ((getCtx s (pctx p)).plan ≠ .parison → exec (.planArm src p) s = .next (finish s h 0x13 a [])) ∧
    ((getCtx s (pctx p)).plan = .parison →
      ((pw p 0).toNat < a + 240000 ∨ a + 12000000000 < (pw p 0).toNat → exec (.planArm src p) s = .next (finish s h 0x10 a [])) ∧
      (a + 240000 ≤ (pw p 0).toNat → (pw p 0).toNat ≤ a + 12000000000 →
        (i.beads ≠ [] → (pw p 0).toNat % 256 ≠ 0 → ∃ v, exec (.planArm src p) s = .next (finish v h 0x11 a []) ∧ (getCtx v (pctx p)).plan = .parison) ∧
        (i.beads = [] ∨ (pw p 0).toNat % 256 = 0 →
          (armTime s i = false → exec (.planArm src p) s = .next (finish s h 0x12 a [])) ∧
          (armTime s i = true → armResume i (resumeStep s (pctx p)) = false → ∃ v, exec (.planArm src p) s = .next (finish v h 0x14 a []) ∧
            (getCtx v (pctx p)).plan = .parison) ∧
          (armTime s i = true → armResume i (resumeStep s (pctx p)) = true → exec (.planArm src p) s =
            .next (done (setCtx s (pctx p) { getCtx s (pctx p) with plan := .armed, launchAt := (pw p 0).toNat, lateArm := false }) h a)))))) ∧
  (∀ src p s h, pcode p = 0x21 → CmdTurn s src p h → (getCtx s (pctx p)).image = none →
    exec (.planArm src p) s = .next (finish s h 0x13 (if h.free then h.taken else s.now) [])) ∧
  (∀ s i, armTime s i = true ↔ (timState s = 2 ∨ timState s = 3 ∨ timState s = 4) ∨ (timState s = 0 ∧ i.multi = false)) ∧
  -- PLAN_ABORT: disarms up to 1,200 ticks before launch; later it ends the plan with the step named, or at once
  (∀ src p s h i, pcode p = 0x22 → CmdTurn s src p h → (getCtx s (pctx p)).plan = .armed → (getCtx s (pctx p)).image = some i →
    h.taken + 1200 ≤ (getCtx s (pctx p)).launchAt →
    (pf p 0 63 63 = 0 → exec (.planAbort src p) s =
      .next (done (setCtx s (pctx p) { getCtx s (pctx p) with plan := .parison, launchAt := 0 }) h s.now)) ∧
    (pf p 0 63 63 = 1 → exec (.planAbortImmediate src p) s =
      .next (done (setCtx s (pctx p) { getCtx s (pctx p) with plan := .parison, launchAt := 0 }) h s.now))) ∧
  (∀ src p s h i, pcode p = 0x22 → pf p 0 63 63 = 0 → CmdTurn s src p h → (getCtx s (pctx p)).image = some i →
    (getCtx s (pctx p)).plan = .running ∨ ((getCtx s (pctx p)).plan = .armed ∧ (getCtx s (pctx p)).launchAt < h.taken + 1200) →
    (∀ b, abortEnd s (pctx p) i (pf p 0 47 0) = some b → h.taken + 1200 ≤ b → ∃ u, exec (.planAbort src p) s = .next u ∧
      getCtx u (pctx p) = { getCtx s (pctx p) with
        endStep := some (match (getCtx s (pctx p)).endStep with | some n => min n (pf p 0 47 0) | none => pf p 0 47 0) } ∧ Waits u src p ∧
      u = { s with ctxs := u.ctxs, cmds := u.cmds }) ∧
    (∀ b, abortEnd s (pctx p) i (pf p 0 47 0) = some b → b < h.taken + 1200 → exec (.planAbort src p) s = .next (refuse s h 0x15)) ∧
    (abortEnd s (pctx p) i (pf p 0 47 0) = none → exec (.planAbort src p) s = .next (refuse s h 0x15))) ∧
  (∀ s (c : CtxId) i e b, abortEnd s c i e = some b ↔
    resumeStep s c ≤ e ∧ b = (getCtx s c).launchAt + stepOffset i (resumeStep s c) (e - resumeStep s c + 1)) ∧
  (∀ src p s h, pcode p = 0x22 → pf p 0 63 63 = 1 → CmdTurn s src p h →
    ((getCtx s (pctx p)).plan = .running → ∃ v, exec (.planAbortImmediate src p) s = .next (done v h s.now) ∧ (getCtx v (pctx p)).plan = .faulted ∧
      ((getCtx s (pctx p)).faultTick = none → (getCtx v (pctx p)).faultTick = some h.taken) ∧
      (∀ d : CtxId, d ≠ pctx p → getCtx v d = getCtx s d) ∧ v.tiles = s.tiles ∧ v.mem = s.mem) ∧
    -- too late to disarm, it acts as the plan launches
    ((getCtx s (pctx p)).plan = .armed → (getCtx s (pctx p)).launchAt < h.taken + 1200 → ∃ u, exec (.planAbortImmediate src p) s = .next u ∧
      getCtx u (pctx p) = { getCtx s (pctx p) with lateArm := true } ∧ Waits u src p ∧ u = { s with ctxs := u.ctxs, cmds := u.cmds })) ∧
  (∀ src p s h, pcode p = 0x22 → CmdTurn s src p h → (getCtx s (pctx p)).plan ≠ .armed → (getCtx s (pctx p)).plan ≠ .running →
    (pf p 0 63 63 = 0 → exec (.planAbort src p) s = .next (refuse s h stState)) ∧
    (pf p 0 63 63 = 1 → exec (.planAbortImmediate src p) s = .next (refuse s h stState))) ∧
  -- PLAN_STATUS writes 280 bytes
  (∀ src p s h, pcode p = 0x23 → CmdTurn s src p h → ∃ d, exec (.planStatus src p) s = .next (finishData s h d 280) ∧ d.length = 280 ∧
    d.getD 0 0 = planCode (getCtx s (pctx p)).plan ∧ d.getD 1 0 = ctxCode (getCtx s (pctx p)).st ∧ d.getD 2 0 = (getCtx s (pctx p)).gen.toNat ∧
    leBytes ((d.drop 8).take 8) = stepNum s (pctx p) % 2 ^ 64 ∧ leBytes ((d.drop 40).take 8) = s.now % 2 ^ 64) ∧
  -- a copy whose range is in the context's bounds begins: its first piece, of up to 4 KiB, waits for idle cycles or free periods
  (∀ src p s h n, pcode p = 0x30 ∨ pcode p = 0x31 ∨ pcode p = 0x32 → CmdTurn s src p h → n = pf p 2 40 0 → n ≠ 0 →
    ∀ i, i = (if pcode p = 0x30 then Instr.copyIn src p else if pcode p = 0x31 then .copyOut src p else .fill src p) →
    (pcode p ≠ 0x30 ∨ pf p 1 63 63 = 0 →
      (inBounds s (pctx p) (pf p 1 40 0) n = false → exec i s = .next (refuse s h stBounds)) ∧
      (inBounds s (pctx p) (pf p 1 40 0) n = true → ∃ u, exec i s = .next u ∧ Waits u src p ∧ u = { s with cmds := u.cmds, hostAcc := u.hostAcc } ∧
        u.hostAcc = s.hostAcc ++ [{ who := .piece src p 0, addr := pf p 1 40 0, len := min 4096 n, at_ := s.now
                                    needs := accessesOf (pf p 1 40 0) (min 4096 n) (pcode p ≠ 0x31) }])) ∧
    -- COPY_IN to the plan staging area
    (pcode p = 0x30 → pf p 1 63 63 = 1 →
      ((getCtx s (pctx p)).plan ≠ .none → (getCtx s (pctx p)).plan ≠ .complete → exec i s = .next (refuse s h stState)) ∧
      ((getCtx s (pctx p)).plan = .none ∨ (getCtx s (pctx p)).plan = .complete →
        (2 ^ 32 < pf p 1 40 0 + n → exec i s = .next (refuse s h stBounds)) ∧
        (pf p 1 40 0 + n ≤ 2 ^ 32 → ∃ u, exec i s = .next u ∧ Waits u src p ∧ u = { s with cmds := u.cmds, hostAcc := u.hostAcc } ∧
          u.hostAcc = s.hostAcc ++ [{ who := .piece src p 0, addr := stagingAddr (pctx p) + pf p 1 40 0, len := min 4096 n, at_ := s.now
                                      needs := accessesOf (stagingAddr (pctx p) + pf p 1 40 0) (min 4096 n) true }])))) ∧
  -- a piece whose last access is served moves the bytes it names and no others; the next piece follows, or the copy ends
  (∀ i s a src p off h, LastServed s i a → PieceOf s a src p off h →
    (pcode p = 0x30 → ∃ v, exec i s = .next (fenceSettle (if off + a.len < pf p 2 40 0 then pushPiece v src p (off + a.len) else done v h 0)) ∧
      memRead v a.addr a.len = hostRead s ((pw p 0).toNat + off) a.len ∧
      (∀ b, b < a.addr ∨ a.addr + a.len ≤ b → memByte v b = memByte s b) ∧ v.hostAcc = [] ∧ v.hostMem = s.hostMem ∧ v.ctxs = s.ctxs) ∧
    (pcode p = 0x31 → NoFlaws s → 0 < a.len →
      ∃ v, exec i s = .next (fenceSettle (if off + a.len < pf p 2 40 0 then pushPiece v src p (off + a.len) else done v h 0)) ∧
      hostRead v ((pw p 0).toNat + off) a.len = memRead s a.addr a.len ∧ v.mem = s.mem ∧ v.hostAcc = [] ∧ v.ctxs = s.ctxs ∧
      ∀ b, b < (pw p 0).toNat + off ∨ (pw p 0).toNat + off + a.len ≤ b → hostRead v b 1 = hostRead s b 1) ∧
    -- a bad line ends COPY_OUT with the bytes before it moved, and its offset as the result
    (∀ b, pcode p = 0x31 → (scanLines s a.addr ((a.addr + a.len - 1) / 64 - a.addr / 64 + 1) (64 * (a.addr / 64))).1 = some b → b ≤ a.len →
      ∃ v, exec i s = .next (fenceSettle (finish v h stUncorrectable (off + b) [])) ∧ v.mem = s.mem ∧ v.hostAcc = [] ∧
        ∀ d, d < (pw p 0).toNat + off ∨ (pw p 0).toNat + off + b ≤ d → hostRead v d 1 = hostRead s d 1) ∧
    (pcode p = 0x32 → ∃ v, exec i s = .next (fenceSettle (if off + a.len < pf p 2 40 0 then pushPiece v src p (off + a.len) else done v h 0)) ∧
      Zeroed v a.addr a.len ∧ (∀ b, b < a.addr ∨ a.addr + a.len ≤ b → memByte v b = memByte s b) ∧ v.hostAcc = [] ∧ v.ctxs = s.ctxs)) ∧
  -- one that a reset of its context has ended goes no further
  (∀ i s a src p off h, LastServed s i a → a.who = .piece src p off → s.cmds.find? (isCmd src p) = some h → h.info ≠ 0 → pcode p = 0x32 →
    ∃ v, exec i s = .next (fenceSettle (refuse v h stAborted)) ∧ v.hostAcc = [] ∧ Zeroed v a.addr a.len) ∧
  -- WIPE: every region must be held, and then each is cleared
  (∀ src p s h, pcode p = 0x33 → CmdTurn s src p h →
    (getCtx s (pctx p)).plan = .none ∨ (getCtx s (pctx p)).plan = .complete ∨ (getCtx s (pctx p)).plan = .faulted →
    ((∀ r, r < 8 → (pf p 0 7 0).testBit r = true → (rgnOf s (pctx p) r).isSome = true) → ∃ v, exec (.wipe src p) s = .next (done v h 0) ∧
      (∀ r a e, r < 8 → (pf p 0 7 0).testBit r = true → rgnOf s (pctx p) r = some (a, e) → Zeroed v a (e - a)) ∧
      (pf p 0 8 8 = 1 → ∀ t : TileId, (getCtx s (pctx p)).tiles.getLsbD t = true → Zeroed v (sramAddr t 0) 0x2000000) ∧
      v.ctxs = s.ctxs ∧ v.tiles = s.tiles ∧ v.regs = s.regs) ∧
    (∀ r, r < 8 → (pf p 0 7 0).testBit r = true → rgnOf s (pctx p) r = none → exec (.wipe src p) s = .next (refuse s h stBadParam))) ∧
  (∀ src p s h, pcode p = 0x33 → CmdTurn s src p h →
    (getCtx s (pctx p)).plan ≠ .none → (getCtx s (pctx p)).plan ≠ .complete → (getCtx s (pctx p)).plan ≠ .faulted →
    exec (.wipe src p) s = .next (refuse s h stState))


/-- Tables, time and links (R144, R149, R164, R178, R187, R226, R325 to R327): TABLE_STAGE, TABLE_COMMIT, TABLE_RETIRE, TIME_SET,
TIME_ADJUST, TS_READ, LINK_CTL in its seven forms, LINK_STATUS and DISCOVER. -/
def Obligations.TableTimeAndLinkCommandsAct : Prop :=
  -- entries go where the table stands; the active or unretired version, and ranks of a plan that may run, are refused
  (∀ src p s h, pcode p = 0x60 → CmdTurn s src p h → pf p 0 63 60 = 1 → pf p 0 56 56 ≠ activeV s → retiredV s (pf p 0 56 56) = true →
    ∃ v, exec (.tableStage src p) s = .next (done v h (pf p 1 31 0)) ∧
      (∀ i, i < pf p 1 31 0 → memRead v (rd s rOPN_RT_BASE fOPN_RT_BASE_BASE + 0x800000 * pf p 0 56 56 + 8 * (pf p 0 19 0 + i)) 8 = (stageEntry s h i).toNat) ∧
      (∀ i, i < pf p 1 31 0 → ∀ e ∈ v.routeC, e.1 ≠ 2 ^ 20 * pf p 0 56 56 + (pf p 0 19 0 + i)) ∧ v.ctxs = s.ctxs ∧ v.regs = s.regs) ∧
  (∀ src p s h, pcode p = 0x60 → CmdTurn s src p h → pf p 0 63 60 = 2 → pf p 0 56 56 ≠ activeV s → retiredV s (pf p 0 56 56) = true →
    ∃ v, exec (.tableStage src p) s = .next (done v h (pf p 1 31 0)) ∧ v.ctxs = s.ctxs ∧ v.regs = s.regs ∧
      ∀ i, i < pf p 1 31 0 → memRead v (tableAddr (0x1000000 + 16 * (pf p 0 19 0 + i) + 8 * pf p 0 56 56)) 8 = (stageEntry s h i).toNat) ∧
  (∀ src p s h, pcode p = 0x60 → CmdTurn s src p h → pf p 0 63 60 = 3 → (getCtx s (pctx p)).st ≠ .closed → (getCtx s (pctx p)).plan ≠ .armed →
    (getCtx s (pctx p)).plan ≠ .running → ∃ v, exec (.tableStage src p) s = .next (done v h (pf p 1 31 0)) ∧ v.ctxs = s.ctxs ∧ v.regs = s.regs ∧
      ∀ i, i < pf p 1 31 0 → memRead v (rankAddr (pctx p) (pf p 0 19 0 + i)) 8 = (stageEntry s h i).toNat ∧
        (fget rkState (stageEntry s h i) = 1 → memRead v (rankAddr (pctx p) (pf p 0 19 0 + i) + 8) 16 = 0 ∧
          memRead v (rankAddr (pctx p) (pf p 0 19 0 + i) + 24) 8 = (fset rkRate 0 1024).toNat) ∧
        (∀ e ∈ v.rankC, e.1 ≠ 65536 * (pctx p).val + (pf p 0 19 0 + i))) ∧
  (∀ src p s h, pcode p = 0x60 → CmdTurn s src p h →
    (pf p 0 63 60 ≠ 3 → pf p 0 56 56 = activeV s ∨ retiredV s (pf p 0 56 56) = false → exec (.tableStage src p) s = .next (refuse s h 0x20)) ∧
    (pf p 0 63 60 = 3 → (getCtx s (pctx p)).st = .closed ∨ (getCtx s (pctx p)).plan = .armed ∨ (getCtx s (pctx p)).plan = .running → exec (.tableStage src p) s = .next (refuse s h stState))) ∧
  -- a commit waits for its bead boundary; retirement needs a drained and an old version
  (∀ src p s h, pcode p = 0x61 → CmdTurn s src p h →
    (pf p 0 0 0 = activeV s → exec (.tableCommit src p) s = .next (done s h (regGet s rOPN_FLIP).toNat)) ∧
    (pf p 0 0 0 ≠ activeV s → retiredV s (pf p 0 0 0) = false → exec (.tableCommit src p) s = .next (refuse s h 0x20)) ∧
    (pf p 0 0 0 ≠ activeV s → retiredV s (pf p 0 0 0) = true → ∃ u sn, exec (.tableCommit src p) s = .next u ∧ u.snaps.head? = some sn ∧
      sn.block = .opn ∧ sn.at_ = s.now ∧ fget fOPN_RT_CTL_ACTIVE (shadowGet u rOPN_RT_CTL) = pf p 0 0 0 ∧
      (pf p 1 40 0 ≠ 0 → fget fOPN_RT_BASE_BASE (shadowGet u rOPN_RT_BASE) = pf p 1 40 0) ∧
      (∃ w, (rOPN_RT_CTL, w) ∈ sn.words ∧ fget fOPN_RT_CTL_ACTIVE w = pf p 0 0 0) ∧
      (∃ w, (rOPN_RT_BASE, w) ∈ sn.words ∧ (pf p 1 40 0 ≠ 0 → fget fOPN_RT_BASE_BASE w = pf p 1 40 0)) ∧ Waits u src p ∧ u.regs = s.regs ∧ u.mem = s.mem)) ∧
  (∀ src p s h, pcode p = 0x62 → CmdTurn s src p h → retiredV s (1 - activeV s) = true → exec (.tableRetire src p) s = .next (done s h 0)) ∧
  (∀ src p s h, pcode p = 0x62 → CmdTurn s src p h → retiredV s (1 - activeV s) = false →
    ((∃ k, k < 9 ∧ epochCount s (decide (1 - activeV s = 1)) k ≠ 0) → exec (.tableRetire src p) s = .next (refuse s h 0x21)) ∧
    ((∀ k, k < 9 → epochCount s (decide (1 - activeV s = 1)) k = 0) →
      (s.now < (regGet s rOPN_FLIP).toNat + 1200000 → exec (.tableRetire src p) s = .next (refuse s h 0x22)) ∧
      ((regGet s rOPN_FLIP).toNat + 1200000 ≤ s.now → ∃ v, exec (.tableRetire src p) s = .next (done v h 0) ∧
        retiredV v (1 - activeV s) = true ∧ v = { s with retired := v.retired }))) ∧
  -- the time of day and its increment, from a module that is free or master
  (∀ src p s h, pcode p = 0x50 → CmdTurn s src p h →
    (2 ≤ timRole s → exec (.timeSet src p) s = .next (refuse s h 0x40)) ∧
    (timRole s < 2 → ∃ u, exec (.timeSet src p) s = .next u ∧ Waits u src p ∧ u = { s with tim := u.tim, cmds := u.cmds } ∧
      u.tim.todSet = some (pw p 0, BitVec.ofNat 32 (pf p 1 63 32), BitVec.ofNat 32 (pf p 1 31 0)) ∧ u.tim.todLoad = false ∧ u.tim.incSet = none)) ∧
  (∀ src p s h, pcode p = 0x51 → CmdTurn s src p h →
    (2 ≤ timRole s → exec (.timeAdjust src p) s = .next (refuse s h 0x40)) ∧
    (timRole s < 2 → pf p 2 1 1 = 1 → todTotal s + (pw p 1).toInt * 2 ^ 32 < 0 → exec (.timeAdjust src p) s = .next (refuse s h 0x41)) ∧
    (timRole s < 2 → pf p 2 1 1 = 0 ∨ 0 ≤ todTotal s + (pw p 1).toInt * 2 ^ 32 → ∃ u sn, exec (.timeAdjust src p) s = .next u ∧
      u.snaps.head? = some sn ∧ sn.block = .tim ∧ sn.at_ = s.now ∧
      (pf p 2 0 0 = 1 → shadowGet u rTIM_TOD_INC = pw p 0 ∧ (rTIM_TOD_INC, pw p 0) ∈ sn.words) ∧
      (pf p 2 1 1 = 1 → shadowGet u rTIM_TOD_STEP = pw p 1 ∧ (rTIM_TOD_STEP, pw p 1) ∈ sn.words) ∧ Waits u src p ∧ u.regs = s.regs)) ∧
  -- every stamp that can be seen is written, 48 bytes each
  (∀ src p s h, pcode p = 0x52 → CmdTurn s src p h → src = .sideband ∨ 48 * (drainStamps 16 s).1.length ≤ pf p 1 31 0 →
    ∃ v d, exec (.tsRead src p) s = .next (finishData v h d ((drainStamps 16 s).1.length + 256 * b2n (getCane s 0).ovr)) ∧
      d.length = 48 * (drainStamps 16 s).1.length ∧ (getCane v 0).ovr = false ∧ v = { s with canes := v.canes }) ∧
  -- LINK_CTL
  (∀ src p s h, pcode p = 0x70 → CmdTurn s src p h → pf p 0 4 0 < 24 →
    (pf p 0 11 8 = 1 → lnkState s (pf p 0 4 0) = 6 → (pw p 1).toNat % 4 < 3 → (getLink s (pf p 0 4 0)).ownReq = none →
      linkHeld s (pf p 0 4 0) = false ∨ (pw p 1).toNat / 8 % 2 = 1 → ∃ u, exec (.linkCtlRetrain src p) s = .next u ∧ Waits u src p ∧
        (isMaster s (pf p 0 4 0) = true → lnkState u (pf p 0 4 0) = 7) ∧
        (isMaster s (pf p 0 4 0) = false → (getLink u (pf p 0 4 0)).ownReq.isSome = true ∧ lnkState u (pf p 0 4 0) = 6)) ∧
    (pf p 0 11 8 = 1 → lnkState s (pf p 0 4 0) ≠ 6 → ∃ v, exec (.linkCtlRetrain src p) s = .next (refuse v h 0x31) ∧ v = { s with regs := v.regs }) ∧
    (pf p 0 11 8 = 1 → lnkState s (pf p 0 4 0) = 6 → (pw p 1).toNat % 4 < 3 → (getLink s (pf p 0 4 0)).ownReq.isSome = true →
      ∃ v, exec (.linkCtlRetrain src p) s = .next (refuse v h stBusy) ∧ v = { s with regs := v.regs }) ∧
    (pf p 0 11 8 = 1 → lnkState s (pf p 0 4 0) = 6 → (pw p 1).toNat % 4 < 3 → (getLink s (pf p 0 4 0)).ownReq = none →
      linkHeld s (pf p 0 4 0) = true → (pw p 1).toNat / 8 % 2 = 0 →
      ∃ v, exec (.linkCtlRetrain src p) s = .next (refuse v h 0x30) ∧ v = { s with regs := v.regs }) ∧
    (pf p 0 11 8 = 2 → ∃ v r, exec (.linkCtlEnable src p) s = .next (done v h r) ∧ rd v (rLNK_CTL (pf p 0 4 0)) fLNK_CTL_ENABLE = 1 ∧
      (lnkState s (pf p 0 4 0) ≠ 0 → lnkState v (pf p 0 4 0) = lnkState s (pf p 0 4 0)) ∧
      -- training begins with the active lane map, which must be a permutation
      (∀ m, lnkState s (pf p 0 4 0) = 0 → m = BitVec.ofNat 16 (rd s (rLNK_LANE_MAP (pf p 0 4 0)) fLNK_LANE_MAP_MAP) →
        (((List.range 4).map (physLane m)).Nodup → lnkState v (pf p 0 4 0) = 1 ∧ (getLink v (pf p 0 4 0)).laneMap = m) ∧
        (¬ ((List.range 4).map (physLane m)).Nodup → lnkState v (pf p 0 4 0) = 8 ∧
          rd v (rLNK_STATUS (pf p 0 4 0)) fLNK_STATUS_DOWN_CAUSE = 4))) ∧
    (pf p 0 11 8 = 3 → linkHeld s (pf p 0 4 0) = false ∨ pf p 1 3 3 = 1 → ∃ v r, exec (.linkCtlDisable src p) s = .next (done v h r) ∧
      rd v (rLNK_CTL (pf p 0 4 0)) fLNK_CTL_ENABLE = 0 ∧ lnkState v (pf p 0 4 0) = 0) ∧
    (pf p 0 11 8 = 3 → linkHeld s (pf p 0 4 0) = true → pf p 1 3 3 = 0 → exec (.linkCtlDisable src p) s = .next (refuse s h 0x30)) ∧
    (pf p 0 11 8 = 4 → ∃ v r, exec (.linkCtlFenceOn src p) s = .next (done v h r) ∧ rd v (rLNK_FENCE (pf p 0 4 0)) fLNK_FENCE_ENABLE = 1 ∧
      rd v (rLNK_FENCE (pf p 0 4 0)) fLNK_FENCE_TAG = pf p 1 11 0 ∧
      (getLink v (pf p 0 4 0)).ctrlq = (getLink s (pf p 0 4 0)).ctrlq ++ [BitVec.ofNat 64 (0x06 * 2 ^ 56 + 2 ^ 12 + pf p 1 11 0)]) ∧
    (pf p 0 11 8 = 5 → ∃ v r, exec (.linkCtlFenceOff src p) s = .next (done v h r) ∧ rd v (rLNK_FENCE (pf p 0 4 0)) fLNK_FENCE_ENABLE = 0 ∧
      rd v (rLNK_FENCE (pf p 0 4 0)) fLNK_FENCE_TAG = rd s (rLNK_FENCE (pf p 0 4 0)) fLNK_FENCE_TAG ∧
      (getLink v (pf p 0 4 0)).ctrlq = (getLink s (pf p 0 4 0)).ctrlq ++
        [BitVec.ofNat 64 (0x06 * 2 ^ 56 + rd s (rLNK_FENCE (pf p 0 4 0)) fLNK_FENCE_TAG)]) ∧
    (pf p 0 11 8 = 6 → ∃ v r, exec (.linkCtlAutoRetry src p) s = .next (done v h r) ∧ rd v (rLNK_CTL (pf p 0 4 0)) fLNK_CTL_AUTO_RETRY = pf p 1 0 0 ∧
      rd v (rLNK_CTL (pf p 0 4 0)) fLNK_CTL_ENABLE = rd s (rLNK_CTL (pf p 0 4 0)) fLNK_CTL_ENABLE ∧ v.links = s.links) ∧
    (pf p 0 11 8 = 7 → ∃ v r sn, exec (.linkCtlLaneMap src p) s = .next (done v h r) ∧ v.snaps.head? = some sn ∧ sn.block = .lnk (Fin.ofNat 24 (pf p 0 4 0)) ∧
      fget fLNK_LANE_MAP_MAP (shadowGet v (rLNK_LANE_MAP (pf p 0 4 0))) = pf p 1 15 0 ∧
      (∃ w, (rLNK_LANE_MAP (pf p 0 4 0), w) ∈ sn.words ∧ fget fLNK_LANE_MAP_MAP w = pf p 1 15 0) ∧ v.regs = s.regs ∧ v.links = s.links)) ∧
  -- records of links, 128 bytes each, and of the neighbours, 600 bytes
  (∀ src p s h, pcode p = 0x71 → CmdTurn s src p h → ∃ v d, exec (.linkStatus src p) s = .next (finishData v h d d.length) ∧
    d.length = 128 * ((List.range 24).filter fun l => (pf p 2 23 0).testBit l).length ∧ v.ctxs = s.ctxs ∧ v.mem = s.mem ∧
    ∀ l : LinkId, pf p 2 23 0 = 2 ^ l.val → leBytes (d.take 8) = (regValue s (rLNK_STATUS l)).1.toNat) ∧
  (∀ src p s h, pcode p = 0x72 → CmdTurn s src p h → ∃ v d, exec (.discover src p) s = .next (finishData v h d 600) ∧ d.length = 600 ∧
    d.take 24 = selfRecord s ∧ v.ctxs = s.ctxs ∧ v.mem = s.mem)


/-- Fault log, telemetry, identity, firmware, life cycle, twins and power (R269, R284, R328 to R330, R373, R374, R378, R380, R383,
R384): FAULT_READ, FAULT_CLEAR, TELEMETRY_READ, ATTEST, CERT_READ, FW_STAGE, FW_COMMIT, LIFECYCLE, LIFECYCLE_RECOVERY_START,
TWIN_SET and POWER_POLICY. -/
def Obligations.RecordIdentityAndPolicyCommandsAct : Prop :=
  -- the PF reads on from RD; an alias or a VF reads its own records and leaves RD
  (∀ src p s h a n k, pcode p = 0x80 → CmdTurn s src p h → src = .sideband ∨ (∃ c, src = .pf c) ∧ (getCtx s (pctx p)).vfOwn = false →
    n = (flogWr s + 2 ^ 32 - flogRd s) % 2 ^ 32 → a = (if 256 < n then (flogWr s + 2 ^ 32 - 256) % 2 ^ 32 else flogRd s) →
    k = min (min n 256) (pf p 2 8 0) →
    (src = .sideband ∨ 64 * k ≤ pf p 1 31 0 →
      ∃ v d, exec (.faultRead src p) s = .next (finishData v h d (k + rd s rGAF_FLOG_OVW fGAF_FLOG_OVW_OVW * 2 ^ 32)) ∧
      d.length = 64 * k ∧ flogRd v = (a + k) % 2 ^ 32 ∧ flogWr v = flogWr s ∧ v = { s with regs := v.regs } ∧
      ∀ i j : Nat, i < k → j < 8 → leBytes ((d.drop (64 * i + 8 * j)).take 8) = (regGet s (rGAF_FLOG ((a + i) % 2 ^ 32 % 256) j)).toNat) ∧
    (src ≠ .sideband → pf p 1 31 0 < 64 * k → exec (.faultRead src p) s = .next (refuse s h stBufShort))) ∧
  (∀ src p s h, pcode p = 0x80 → CmdTurn s src p h → (∃ c, src = .vf c) ∨ (∃ c, src = .pf c) ∧ (getCtx s (pctx p)).vfOwn = true →
    ∃ d, exec (.faultRead src p) s =
      .next (finishData s h d (((flogOf s (pctx p)).take (pf p 2 8 0)).length + rd s rGAF_FLOG_OVW fGAF_FLOG_OVW_OVW * 2 ^ 32)) ∧
    d.length = 64 * ((flogOf s (pctx p)).take (pf p 2 8 0)).length) ∧
  (∀ s (c : CtxId) r, r ∈ flogOf s c → wCtx (r.getD 0 0) = some c) ∧
  (∀ src p s h, pcode p = 0x81 → CmdTurn s src p h → ∃ v, exec (.faultClear src p) s = .next (done v h 0) ∧ flogRd v = flogWr v ∧
    flogWr v = flogWr s ∧ v = { s with regs := v.regs }) ∧
  -- the telemetry sets have the sizes of R329 and R364 and change nothing
  (∀ src p s h, pcode p = 0x90 → CmdTurn s src p h → ∃ d, exec (.telemetryRead src p) s = .next (finishData s h d d.length) ∧
    (pf p 2 3 0 = 1 → d.length = 16384) ∧ (pf p 2 3 0 = 2 → d.length = 192 ∧ leBytes (d.take 8) = s.now % 2 ^ 64) ∧
    (pf p 2 3 0 = 3 → d.length = 712 ∧ leBytes (d.take 8) = s.now % 2 ^ 64)) ∧
  -- the report carries the nonce and the state; SCRAPPED gives none
  (∀ src p s h, pcode p = 0xA0 → CmdTurn s src p h →
    (lcState s = 5 → ∃ v, exec (.attest src p) s = .next (refuse v h stState)) ∧
    (lcState s ≠ 5 → ∃ v d, exec (.attest src p) s = .next (finishData v h d d.length) ∧
      d.take 8 = [0x48, 0x41, 0x4C, 0x4C, 0x4D, 0x41, 0x52, 0x4B] ∧
      leBytes ((d.drop 16).take 32) = (pw p 2).toNat + 2 ^ 64 * (pw p 3).toNat + 2 ^ 128 * (pw p 4).toNat + 2 ^ 192 * (pw p 5).toNat ∧
      leBytes ((d.drop 48).take 8) = s.now % 2 ^ 64 ∧ d.getD 65 0 = lcState s ∧ d.drop (d.length - 64) = edSign (signSeed s) (d.take (d.length - 64)) ∧
      v.mem = s.mem ∧ v.ctxs = s.ctxs)) ∧
  (∀ src p s h, pcode p = 0xA1 → CmdTurn s src p h →
    (lcState s ≠ 5 → pf p 2 7 0 ≠ 3 ∨ bootMode s ≠ 3 → exec (.certRead src p) s =
      .next (finishData s h (certOf s (pf p 2 7 0)) (certOf s (pf p 2 7 0)).length)) ∧
    (lcState s = 5 ∨ (pf p 2 7 0 = 3 ∧ bootMode s = 3) → exec (.certRead src p) s = .next (refuse s h stState))) ∧
  -- an image in staging is kept only if it passes its checks
  (∀ src p s h, pcode p = 0xB0 → CmdTurn s src p h → bootMode s = 0 → ∃ v,
    (exec (.fwStage src p) s = .next (refuse v h 0x50) ∧ regGet v rSEC_FW_STAGED = 0 ∨
      ∃ r, exec (.fwStage src p) s = .next (done v h r) ∧ rd v rSEC_FW_STAGED fSEC_FW_STAGED_VALID = 1 ∧
        fwReject v { get := fun o k => memRead v (fwStage + o) k, len := (pw p 1).toNat } false = none) ∧
    memRead v fwStage (pw p 1).toNat = hostRead s (pw p 0).toNat (pw p 1).toNat ∧ v.flash = s.flash ∧ v.ctxs = s.ctxs) ∧
  (∀ src p s h, pcode p = 0xB0 → CmdTurn s src p h → bootMode s = 3 → ∃ v st r, exec (.fwStage src p) s = .next (finish v h st r []) ∧
    (st = stDone ∨ st = 0x50) ∧ flashRead v 0 (pw p 1).toNat = hostRead s (pw p 0).toNat (pw p 1).toNat ∧ v.mem = s.mem ∧ v.ctxs = s.ctxs) ∧
  -- the committed image reads back from flash, with its measurement in the commit block
  (∀ src p s h, pcode p = 0xB1 → CmdTurn s src p h →
    (rd s rSEC_FW_STAGED fSEC_FW_STAGED_VALID = 0 → ∃ v, exec (.fwCommit src p) s = .next (refuse v h stState) ∧ v.flash = s.flash) ∧
    (rd s rSEC_FW_STAGED fSEC_FW_STAGED_VALID = 1 → bootMode s = 0 → s.boot.stLen ≤ 0x10000000 → ∃ v,
      (exec (.fwCommit src p) s = .next (refuse v h 0x50) ∨
        exec (.fwCommit src p) s = .next (done v h 0) ∧ rd v rSEC_FW_STAGED fSEC_FW_STAGED_COMMITTED = 1 ∧
          flashRead v commitAt 64 = s.boot.stMeas % 2 ^ 512) ∧
      flashRead v 0 s.boot.stLen = memRead s fwStage s.boot.stLen ∧ v.mem = s.mem) ∧
    (rd s rSEC_FW_STAGED fSEC_FW_STAGED_VALID = 1 → bootMode s = 3 → ∃ v, exec (.fwCommit src p) s = .next (done v h 0) ∧
      v.boot.restart = some (s.now + 120000000) ∧ flashRead v commitAt 64 = s.boot.stMeas % 2 ^ 512)) ∧
  -- a life-cycle transition needs every context CLOSED and a good token; it burns the fuses and wipes, and recovery follows 100 ms on
  (∀ src p s h, pcode p = 0xC0 → CmdTurn s src p h →
    ((∃ c : CtxId, (getCtx s c).st ≠ .closed) → ∃ v, exec (.lifecycle src p) s = .next (refuse v h stState) ∧ v.fuse = s.fuse ∧ v.mem = s.mem) ∧
    ((∀ c : CtxId, (getCtx s c).st = .closed) → s.fuse.tcount < 128 →
      (∀ o, tokenBad (useCrypto s) (bytesLE 120 (hostRead s (pw p 1).toNat 120)) (pf p 0 3 0) = some o →
        ∃ v, exec (.lifecycle src p) s = .next (refuse v h 0x50) ∧ v.fuse = s.fuse ∧ v.mem = s.mem) ∧
      (tokenBad (useCrypto s) (bytesLE 120 (hostRead s (pw p 1).toNat 120)) (pf p 0 3 0) = none →
        ∃ v, exec (.lifecycle src p) s = .next (done v h 0) ∧ v.fuse = lcFuses s.fuse (pf p 0 3 0) ∧ v.mem = [] ∧ v.flaw = [] ∧
          lcState v = lcOf v.fuse ∧ v.boot.lcAt = some (s.now + 120000000)))) ∧
  (∀ f t, (lcFuses f t).tcount = f.tcount + 1) ∧
  (∀ f : FuseSt, (∀ n, n < 16 → lcAllowed (lcOf f) n = true → f.fieldAt ≤ f.tcount → lcOf (lcFuses f n) = n)) ∧
  (∀ s t, s.boot.lcAt = some t →
    (s.now < t → exec .lifecycleRecoveryStart s = .next s) ∧
    (t ≤ s.now → dead s = false → s.pwr.quenched = false → s.recPhase = 0 → ∃ u, exec .lifecycleRecoveryStart s = .next u ∧ RecoveryBegan s u ∧
      u.boot.lcAt = none)) ∧
  -- TWIN_SET turns twin mode on, off, or refuses with its reason
  (∀ src p s h, pcode p = 0xD0 → CmdTurn s src p h → (getCtx s (Fin.ofNat 8 (pf p 0 58 56))).st = .opened →
    (pf p 0 63 63 = 0 → ∃ v, exec (.twinSet src p) s = .next (done v h 0) ∧ rd v rDET_TWIN_CTL fDET_TWIN_CTL_ENABLE = 0 ∧ v.twin = TwinSt.zero) ∧
    (pf p 0 63 63 = 1 → ∀ r, twinRefused s p = some r → exec (.twinSet src p) s = .next (finish s h 0x60 r [])) ∧
    (pf p 0 63 63 = 1 → twinRefused s p = none → ∃ v, exec (.twinSet src p) s = .next (done v h 0) ∧ rd v rDET_TWIN_CTL fDET_TWIN_CTL_ENABLE = 1 ∧
      rd v rDET_TWIN_CTL fDET_TWIN_CTL_CTX = pf p 0 58 56 ∧ rd v rDET_TWIN_CTL fDET_TWIN_CTL_LINKA = pf p 1 4 0 ∧
      rd v rDET_TWIN_CTL fDET_TWIN_CTL_LINKB = pf p 1 12 8 ∧ rd v rDET_TWIN_CTL fDET_TWIN_CTL_PARTNER = pf p 0 19 0 ∧
      v = { s with regs := v.regs, twin := TwinSt.zero })) ∧
  (∀ src p s h, pcode p = 0xD0 → CmdTurn s src p h →
    ((getCtx s (Fin.ofNat 8 (pf p 0 58 56))).st = .closed → exec (.twinSet src p) s = .next (refuse s h stState)) ∧
    (ctxBusy (getCtx s (Fin.ofNat 8 (pf p 0 58 56))) = true → exec (.twinSet src p) s = .next (refuse s h stBusy))) ∧
  (∀ s p, (getCtx s (Fin.ofNat 8 (pf p 0 58 56))).dm = false → twinRefused s p = some 1) ∧
  -- POWER_POLICY sets the cap and the limit it names and returns what is in force
  (∀ src p s h, pcode p = 0xE0 → CmdTurn s src p h → ∃ v, exec (.powerPolicy src p) s =
      .next (done v h (rd v rCLK_TEMPER fCLK_TEMPER_CAP_STEP + rd v rPWR_LIMIT fPWR_LIMIT_LIMIT * 2 ^ 16)) ∧
    rd v rCLK_TEMPER fCLK_TEMPER_CAP_STEP = (if pf p 0 3 3 = 1 then pf p 0 2 0 else rd s rCLK_TEMPER fCLK_TEMPER_CAP_STEP) ∧
    rd v rPWR_LIMIT fPWR_LIMIT_LIMIT = (if pf p 0 31 16 = 0 then rd s rPWR_LIMIT fPWR_LIMIT_LIMIT else pf p 0 31 16) ∧ v = { s with regs := v.regs })


/-- Registers as they are written and read (R9 to R11, R144, R149, R164, R165, R213, R228, R233, R253, R254, R264, R293, R303 to R305,
R310, R343, R381, R400, R408, R411, R412, R415): REGISTER_WRITE, the six COMMIT registers, STAGED_APPLY, LNK_CTL.REQUEST and ENABLE,
LNK_FENCE, TIM_SNAP, TIM_TS_ARM, TIM_TS_DATA, HST_EVENT, GAF_RECOVERY.START, GAF_LOCATION, DBG_CTL, DBG_DATA, DET_CTX_CTL and HST_APERTURE. -/
def Obligations.RegistersActAsTheirAccessSays : Prop :=
  -- a plain register: RW and RWS fields take the value, W1C bits clear unless hardware set them in the same GCLK cycle, the rest
  -- stay, staged fields wait in the shadow
  (∀ path (off : BitVec 26) v s r, Reaches s path → msixWord path off.toNat = none → isPba path off.toNat = false → off.toNat % 8 = 0 →
    regAt off.toNat = some r → PlainReg s off.toNat v → ∃ u, exec (.registerWrite path off .aligned64 v) s = .next u ∧
      u = { s with regs := u.regs, shadow := u.shadow, shadowAt := u.shadowAt } ∧
      (∀ f ∈ r.fields, rd u off.toNat f.fld = if f.acc = .rw ∨ f.acc = .rws then fget f.fld v
        else if f.acc = .w1c ∧ flagFresh s off.toNat f.fld = false then fget f.fld (regGet s off.toNat &&& ~~~ v) else rd s off.toNat f.fld) ∧
      (∀ f ∈ r.fields, f.acc = .stg → fget f.fld (shadowGet u off.toNat) = fget f.fld v) ∧
      ∀ o, o ≠ off.toNat → regGet u o = regGet s o ∧ shadowGet u o = shadowGet s o) ∧
  -- no register there, a wrong size, or a closed life cycle: counted and discarded
  (∀ path (off : BitVec 26) v s, Reaches s path → isDbg off.toNat = false → msixWord path off.toNat = none → isPba path off.toNat = false →
    off.toNat % 8 = 0 → regAt off.toNat = none → ∃ u, exec (.registerWrite path off .aligned64 v) s = .next u ∧ u = { s with regs := u.regs } ∧
      rd u rHST_MAP_ERR fHST_MAP_ERR_UNMAPPED = min (rd s rHST_MAP_ERR fHST_MAP_ERR_UNMAPPED + 1) (2 ^ fwid fHST_MAP_ERR_UNMAPPED - 1)) ∧
  (∀ path (off : BitVec 26) size v s, msixWord path off.toNat = none → isPba path off.toNat = false → size = .other ∨ off.toNat % 8 ≠ 0 →
    ∃ u, exec (.registerWrite path off size v) s = .next u ∧ u = { s with regs := u.regs } ∧
      rd u rHST_ACC_ERR fHST_ACC_ERR_SIZE_ERR = min (rd s rHST_ACC_ERR fHST_ACC_ERR_SIZE_ERR + 1) (2 ^ 32 - 1) ∧
      ∀ o, o ≠ rHST_ACC_ERR → regGet u o = regGet s o) ∧
  (∀ (off : BitVec 26) v s, lcOpen s = false → msixWord .sideband off.toNat = none → isPba .sideband off.toNat = false → off.toNat % 8 = 0 →
    ∃ u, exec (.registerWrite .sideband off .aligned64 v) s = .next u ∧ u = { s with regs := u.regs } ∧
      ∀ o, o ≠ rHST_MAP_ERR → regGet u o = regGet s o) ∧
  -- a VF's BAR0 begins with the CTX window of its context
  (∀ (k : CtxId) (off : BitVec 26) v s, off.toNat < 0x10000 → off.toNat % 8 = 0 → exec (.registerWrite (.vf k) off .aligned64 v) s =
    exec (.registerWrite .management (BitVec.ofNat 26 (0x200000 + 0x10000 * k.val + off.toNat)) .aligned64 v) s) ∧
  (∀ path (off : BitVec 26) v w s, msixWord path off.toNat = some w → off.toNat % 4 = 0 →
    ∃ u, exec (.registerWrite path off .other v) s = .next u ∧ tget (fun _ => 0) u.msix w = BitVec.setWidth 32 v ∧ u = { s with msix := u.msix }) ∧
  -- COMMIT takes a snapshot of its block's staged fields, in place of one that still waits
  (∀ path b s i, Reaches s path →
    (i, b) ∈ [(Instr.fwdCommit path 1, Block.fwd), (.timCommit path 1, .tim), (.opnCommit path 1, .opn)] ++
      (List.finRange 24).map (fun l => (Instr.lnkCommit path l 1, Block.lnk l)) ++ (List.finRange 21).map (fun k => (Instr.sbdCaneCommit path k 1, Block.cane k)) →
    ∃ u sn, exec i s = .next u ∧ u = { s with snaps := sn :: s.snaps.filter fun q => q.block ≠ b } ∧ sn.block = b ∧ sn.at_ = s.now ∧
      sn.words = (stagedRegs b).map fun o => (o, shadowSeen s o)) ∧
  -- which shows the shadow copies without the staged writes of its own GCLK cycle
  (∀ s o, (tget (fun _ => (0, 0)) s.shadowAt o).1 ≠ gclk s + 1 → shadowSeen s o = shadowGet s o) ∧
  (∀ s o v, stagedMask o ≠ 0 → shadowSeen (writeShadow s o v) o = shadowSeen s o ∧
    shadowGet (writeShadow s o v) o = (shadowGet s o &&& ~~~ stagedMask o) ||| (v &&& stagedMask o)) ∧
  (∀ s, ∃ u sn, exec (.clkCommit .gaffer 1) s = .next u ∧ u.snaps.head? = some sn ∧ sn.block = .clk ∧ sn.at_ = s.now ∧ u.regs = s.regs) ∧
  (∀ v s, exec (.clkCommit .pfBar0 v) s = .next s) ∧
  -- a snapshot applies whole, at the next bead boundary and not before
  (∀ b s q, s.snaps.find? (fun k => decide (k.block = b)) = some q →
    (s.now < 4 * (q.at_ / 4 + 1) → exec (.stagedApply b) s = .next s) ∧
    (4 * (q.at_ / 4 + 1) ≤ s.now → (q.words.map (·.1)).Nodup → b = .fwd ∨ b = .clk ∨ (∃ l, b = .lnk l) → ∃ u, exec (.stagedApply b) s = .next u ∧
      u = { s with regs := u.regs, snaps := s.snaps.filter fun k => k.block ≠ b } ∧
      (∀ w ∈ q.words, regGet u w.1 = (regGet s w.1 &&& ~~~ stagedMask w.1) ||| (w.2 &&& stagedMask w.1)) ∧
      ∀ o, o ∉ q.words.map (·.1) → regGet u o = regGet s o)) ∧
  -- with what its block does then: routing, time and the Cane FIFOs
  (∀ s q w, s.snaps.find? (fun k => decide (k.block = .opn)) = some q → 4 * (q.at_ / 4 + 1) ≤ s.now → (q.words.map (·.1)).Nodup →
    rOPN_FLIP ∉ q.words.map (·.1) → (rOPN_RT_CTL, w) ∈ q.words → ∃ u, exec (.stagedApply .opn) s = .next u ∧ activeV u = fget fOPN_RT_CTL_ACTIVE w ∧
      u.snaps = s.snaps.filter (fun k => k.block ≠ .opn) ∧
      (fget fOPN_RT_CTL_ACTIVE w ≠ activeV s → regGet u rOPN_FLIP = BitVec.ofNat 64 s.now ∧ retiredV u 0 = false ∧ retiredV u 1 = false) ∧
      (fget fOPN_RT_CTL_ACTIVE w = activeV s → regGet u rOPN_FLIP = regGet s rOPN_FLIP ∧ u.retired = s.retired)) ∧
  (∀ s q wr wm wi ws r0, s.snaps.find? (fun k => decide (k.block = .tim)) = some q → 4 * (q.at_ / 4 + 1) ≤ s.now → (q.words.map (·.1)).Nodup →
    (∀ o ∈ q.words.map (·.1), o ∈ stagedRegs .tim) → (rTIM_ROLE, wr) ∈ q.words → (rTIM_MASTER_RATE, wm) ∈ q.words → (rTIM_TOD_INC, wi) ∈ q.words →
    (rTIM_TOD_STEP, ws) ∈ q.words → r0 = timRole s → r0 < 4 → ∃ u, exec (.stagedApply .tim) s = .next u ∧
      (r0 = fget fTIM_ROLE_ROLE wr → rd u rTIM_MASTER_RATE fTIM_MASTER_RATE_RATE = clampRate (fget fTIM_MASTER_RATE_RATE wm) ∧
        timState u = timState s ∧ u.now = s.now ∧ rd u rTIM_RATE fTIM_RATE_RATE = rd s rTIM_RATE fTIM_RATE_RATE ∧
        u.tim.pendRate = decide (r0 ≤ 1)) ∧
      todInc u = clampInc ((regGet s rTIM_TOD_INC &&& ~~~ stagedMask rTIM_TOD_INC) ||| (wi &&& stagedMask rTIM_TOD_INC)).toNat ∧
      regGet u rTIM_TOD_STEP = 0 ∧
      (r0 ≠ fget fTIM_ROLE_ROLE wr → fget fTIM_ROLE_ROLE wr < 4 → timRole u = fget fTIM_ROLE_ROLE wr ∧
        (fget fTIM_ROLE_ROLE wr = 1 → timState u = 4) ∧ (fget fTIM_ROLE_ROLE wr = 0 → timState u = 0) ∧
        (2 ≤ fget fTIM_ROLE_ROLE wr → r0 ≤ 1 → timState u = 1))) ∧
  (∀ s q w (i : CaneId), s.snaps.find? (fun k => decide (k.block = .cane i)) = some q → 4 * (q.at_ / 4 + 1) ≤ s.now → (q.words.map (·.1)).Nodup →
    (rSBD_CANE_CTL i, w) ∈ q.words → ∃ u, exec (.stagedApply (.cane i)) s = .next u ∧
      (getCane u i).flagMd = decide (fget fSBD_CANE_CTL_FULL_MODE w = 0) ∧ rd u (rSBD_CANE_CTL i) fSBD_CANE_CTL_FULL_MODE = fget fSBD_CANE_CTL_FULL_MODE w) ∧
  (∀ b s, s.snaps.find? (fun k => decide (k.block = b)) = none → exec (.stagedApply b) s = .next s) ∧
  -- link control, fence, and the time registers
  (∀ path (l : LinkId) v s, Reaches s path → fget fLNK_CTL_ENABLE v = 0 → rd s (rLNK_CTL l) fLNK_CTL_ENABLE = 1 →
    ∃ u, exec (.lnkCtlEnableClear path l v) s = .next u ∧ rd u (rLNK_CTL l) fLNK_CTL_ENABLE = 0 ∧ lnkState u l = 0) ∧
  (∀ path (l : LinkId) v s, Reaches s path → fget fLNK_CTL_ENABLE v = 1 → rd s (rLNK_CTL l) fLNK_CTL_ENABLE = 1 → fget fLNK_CTL_REQUEST v = 1 →
    lnkState s l = 6 → fget fLNK_CTL_WIDTH v < 3 → (getLink s l).ownReq = none → linkHeld s l = false ∨ fget fLNK_CTL_FORCE v = 1 →
    ∃ u, exec (.lnkCtlRequest path l v) s = .next u ∧ (isMaster s l = true → lnkState u l = 7 ∧ (getLink u l).grant.isSome = true) ∧
      (isMaster s l = false → (getLink u l).ownReq.isSome = true ∧ lnkState u l = 6)) ∧
  (∀ path (l : LinkId) v s, Reaches s path → fget fLNK_FENCE_ENABLE v ≠ rd s (rLNK_FENCE l) fLNK_FENCE_ENABLE →
    ∃ u, exec (.lnkFence path l v) s = .next u ∧ rd u (rLNK_FENCE l) fLNK_FENCE_ENABLE = fget fLNK_FENCE_ENABLE v ∧
      rd u (rLNK_FENCE l) fLNK_FENCE_TAG = fget fLNK_FENCE_TAG v ∧ (getLink u l).ctrlq.length = (getLink s l).ctrlq.length + 1 ∧ u.ctxs = s.ctxs) ∧
  (∀ path v s, Reaches s path → fget fTIM_SNAP_SNAP v = 1 → ∃ u, exec (.timSnap path v) s = .next u ∧ regGet u rTIM_SNAP_COUNT = BitVec.ofNat 64 s.now ∧
    regGet u rTIM_SNAP_SEC = regGet s rTIM_TOD_SEC ∧ regGet u rTIM_SNAP_NS = regGet s rTIM_TOD_NS) ∧
  (∀ path v s, Reaches s path → fget fTIM_TS_ARM_ARM v = 1 → ∃ u, exec (.timTsArm path v) s = .next u ∧ u.tim.tsArm = true ∧ u.now = s.now) ∧
  -- reads that take the head of a FIFO; the idle item where there is none
  (∀ path s i k, wholeMap path = true → (i, k) ∈ [(Instr.timTsData path, 0), (Instr.hstEvent path, 1)] →
    ((getCane s k).items = [] → ∃ u, exec i s = .next u ∧ u.outs = .regRead path 0xFFFFFFFFFFFFFFFE :: s.outs ∧ (getCane u k).items = []) ∧
    (∀ it rest, (getCane s k).items = it :: rest → edgesSince (caneRdPeriod k) 3 it.at_ s.now = false → ∃ u, exec i s = .next u ∧
      u.outs = .regRead path 0xFFFFFFFFFFFFFFFE :: s.outs ∧ (getCane u k).items = it :: rest) ∧
    (∀ it rest, (getCane s k).items = it :: rest → edgesSince (caneRdPeriod k) 3 it.at_ s.now = true → (getCane s k).held = none →
      ∃ u, exec i s = .next u ∧ u.outs = .regRead path it.data :: s.outs ∧ (getCane u k).items = rest)) ∧
  -- a word of a file of a tile, once a context holds it and the life cycle permits it
  (∀ path s, wholeMap path = true → pd31On s = true → ∃ u v, exec (.dbgData path) s = .next u ∧ u.outs = .regRead path v :: s.outs ∧
    ((getTile s (rd s rDBG_SEL fDBG_SEL_TILE)).own = none ∨ lcOpen s = false → v = 0) ∧
    ((getTile s (rd s rDBG_SEL fDBG_SEL_TILE)).own ≠ none → lcOpen s = true →
      v = dbgWord (getTile s (rd s rDBG_SEL fDBG_SEL_TILE)) (rd s rDBG_SEL fDBG_SEL_FILE) (rd s rDBG_SEL fDBG_SEL_INDEX)) ∧
    rd u rDBG_SEL fDBG_SEL_INDEX = (rd s rDBG_SEL fDBG_SEL_INDEX + rd s rDBG_SEL fDBG_SEL_AUTO) % 2 ^ fwid fDBG_SEL_INDEX ∧ u.tiles = s.tiles) ∧
  -- START begins device recovery; the location changes only while every context is CLOSED
  (∀ path v s, Reaches s path → fget fGAF_RECOVERY_START v = 1 → dead s = false → s.pwr.quenched = false → s.recPhase = 0 →
    ∃ u, exec (.gafRecoveryStart path v) s = .next u ∧ RecoveryBegan s u) ∧
  (∀ v s, ((∀ c : CtxId, (getCtx s c).st = .closed) → ∃ u, exec (.gafLocation .pfBar0 v) s = .next u ∧
      rd u rGAF_LOCATION fGAF_LOCATION_GID = fget fGAF_LOCATION_GID v ∧ rd u rGAF_LOCATION fGAF_LOCATION_RACK = fget fGAF_LOCATION_RACK v ∧
      rd u rGAF_LOCATION fGAF_LOCATION_POS = rd s rGAF_LOCATION fGAF_LOCATION_POS ∧ u = { s with regs := u.regs, links := u.links }) ∧
    ((∃ c : CtxId, (getCtx s c).st ≠ .closed) → ∃ u, exec (.gafLocation .pfBar0 v) s = .next u ∧
      rd u rGAF_LOCATION fGAF_LOCATION_WR_REFUSED = 1 ∧ rd u rGAF_LOCATION fGAF_LOCATION_GID = rd s rGAF_LOCATION fGAF_LOCATION_GID ∧
      u = { s with regs := u.regs, flagAt := u.flagAt })) ∧
  -- DBG_CTL powers PD31; DET_CTX_CTL is written in PARISON alone; the aperture moves for its own function
  (∀ path v s, Reaches s path → lcOpen s = true →
    (fget fDBG_CTL_ENABLE v = 1 → ∃ u, exec (.dbgCtl path v) s = .next u ∧ pd31On u = true ∧ rd u rDBG_CTL fDBG_CTL_ENABLE = 1 ∧ u = { s with regs := u.regs }) ∧
    (fget fDBG_CTL_ENABLE v = 0 → (∀ c : CtxId, (getCtx s c).st = .closed) → ∃ u, exec (.dbgCtl path v) s = .next u ∧ pd31On u = false ∧
      u.twin = TwinSt.zero)) ∧
  (∀ path (c : CtxId) v s, Reaches s path →
    ((getCtx s c).plan = .parison → pd31On s = true → ∃ u, exec (.detCtxCtl path c v) s = .next u ∧ resumeStep u c = fget fDET_CTX_CTL_RESUME v ∧
      u = { s with regs := u.regs, ctxs := u.ctxs } ∧ ∀ d : CtxId, d ≠ c → getCtx u d = getCtx s d) ∧
    ((getCtx s c).plan ≠ .parison → exec (.detCtxCtl path c v) s = .next s)) ∧
  (∀ (fn : Fin 9) v s, ∃ u, exec (.hstAperture fn v) s = .next u ∧ (∀ off, barAddr u fn off = 2 ^ 21 * fget fHST_APERTURE_BASE v + off) ∧
    (∀ (g : Fin 9) off, g ≠ fn → barAddr u g off = barAddr s g off) ∧ u = { s with regs := u.regs, vfApt := u.vfApt }) ∧
  -- on a VF none of these registers exists: writes are discarded and reads give 0
  (∀ (k : CtxId) v s i, i ∈ [Instr.fwdCommit (.vf k) v, .timCommit (.vf k) v, .opnCommit (.vf k) v, .clkCommit (.vf k) v, .timSnap (.vf k) v,
      .timTsArm (.vf k) v, .gafRecoveryStart (.vf k) v, .gafLocation (.vf k) v, .dbgCtl (.vf k) v] ++
      (List.finRange 24).flatMap (fun l => [Instr.lnkCommit (.vf k) l v, .lnkCtlRequest (.vf k) l v, .lnkCtlEnableClear (.vf k) l v, .lnkFence (.vf k) l v]) ++
      (List.finRange 21).map (fun c => Instr.sbdCaneCommit (.vf k) c v) ++ (List.finRange 8).map (fun c => Instr.detCtxCtl (.vf k) c v) →
    exec i s = .next s) ∧
  (∀ (k : CtxId) s i, i ∈ [Instr.timTsData (.vf k), .hstEvent (.vf k), .dbgData (.vf k)] → exec i s = .next { s with outs := .regRead (.vf k) 0 :: s.outs })


/-- BAR4, function resets, DOE, SPDM and IDE (R305 to R308, R377 to R380; the SPDM messages' layouts are log 40's): BAR4_READ,
BAR4_WRITE, VF_FLR, PF_FLR, VF_ENABLE_CLEAR, DOE_DISCOVERY, the nine SPDM requests, IDE_KM and IDE_INTEGRITY_FAILURE. -/
def Obligations.FunctionsReachResetAndAuthenticate : Prop :=
  -- BAR4 reaches what its function may, and nothing else: an access inside waits for idle cycles or free periods
  (∀ (fn : Fin 9) (off : BitVec 36) tag s, (barReach s fn off.toNat = true → exec (.bar4Read fn off tag) s = .next { s with
      hostAcc := s.hostAcc ++ [{ who := .barRead fn tag.toNat, addr := barAddr s fn off.toNat, len := 8, at_ := s.now
                                 needs := accessesOf (barAddr s fn off.toNat) 8 false }] }) ∧
    (barReach s fn off.toNat = false → ∃ u, exec (.bar4Read fn off tag) s = .next u ∧
      u.outs = .completion fn tag.toNat 0 (BitVec.allOnes 64) :: s.outs ∧ u = { s with regs := u.regs, outs := u.outs } ∧
      rd u rHST_ACC_ERR fHST_ACC_ERR_APT_ERR = min (rd s rHST_ACC_ERR fHST_ACC_ERR_APT_ERR + 1) (2 ^ 32 - 1))) ∧
  (∀ (fn : Fin 9) (off : BitVec 36) data s, (barReach s fn off.toNat = true → exec (.bar4Write fn off data) s = .next { s with
      hostAcc := s.hostAcc ++ [{ who := .barWrite data, addr := barAddr s fn off.toNat, len := 8, at_ := s.now
                                 needs := accessesOf (barAddr s fn off.toNat) 8 true }] }) ∧
    (barReach s fn off.toNat = false → ∃ u, exec (.bar4Write fn off data) s = .next u ∧ u = { s with regs := u.regs } ∧
      rd u rHST_ACC_ERR fHST_ACC_ERR_APT_ERR = min (rd s rHST_ACC_ERR fHST_ACC_ERR_APT_ERR + 1) (2 ^ 32 - 1))) ∧
  -- once its access is served a read completes with the bytes, poisoned where a line is bad, and a write lands
  (∀ i s a fn tag, LastServed s i a → a.who = .barRead fn tag → 0 < a.len → ∃ u, exec i s = .next u ∧
    u.outs = .completion fn tag (b2n (openRead s a.addr a.len).2.1) (BitVec.ofNat 64 (openRead s a.addr a.len).1) :: s.outs ∧
    u.hostAcc = [] ∧ u.mem = s.mem ∧
    (NoFlaws s → (openRead s a.addr a.len).2.1 = false ∧ (openRead s a.addr a.len).1 = memRead s a.addr a.len)) ∧
  (∀ i s a data, LastServed s i a → a.who = .barWrite data → a.len = 8 → ∃ u, exec i s = .next u ∧ memRead u a.addr 8 = data.toNat ∧
    (∀ b, b < a.addr ∨ a.addr + 8 ≤ b → memByte u b = memByte s b) ∧ u.hostAcc = [] ∧ u.outs = s.outs ∧ u.ctxs = s.ctxs) ∧
  (∀ s (off : Nat), barReach s 0 off = true → barAddr s 0 off + 8 ≤ 0xE000000000 ∨ 0x10000000000 ≤ barAddr s 0 off) ∧
  -- an FLR of a VF ends its commands without replies, empties its window and resets its context
  (∀ (k : CtxId) s, ∃ u, exec (.vfFlr k) s = .next u ∧ (∀ h ∈ u.cmds, h.src ≠ .vf k) ∧ (∀ h ∈ s.cmds, h.src ≠ .vf k → h ∈ u.cmds) ∧
    winExpect u k = 1 ∧ winTake u k = 0 ∧ u.hostMem = s.hostMem ∧ u.outs = s.outs ∧ (∀ e ∈ u.msix, e.1 / 4096 ≠ k.val + 1) ∧
    (∀ h ∈ s.cmds, h.src = .vf k → ∀ a ∈ u.hostAcc, ∀ off, a.who ≠ .piece h.src h.pkt off) ∧
    ((getCtx s k).st = .closed ∨ (getCtx s k).st = .resetting ∨ (getCtx s k).st = .closing → u.ctxs = s.ctxs) ∧
    ((getCtx s k).st = .opened → (getCtx u k).st = .resetting ∧ (getCtx u k).purge = some { began := s.now, pending := 255 } ∧
      ∀ c : CtxId, c ≠ k → getCtx u c = getCtx s c)) ∧
  -- one of the PF ends all of them and resets the contexts of VFs; the others run on
  (∀ kind s, ∃ u, exec (.pfFlr kind) s = .next u ∧ (∀ h ∈ u.cmds, h.src = .sideband) ∧ (∀ w : CtxId, winExpect u w = 1 ∧ winTake u w = 0) ∧
    u.msix = [] ∧ regGet u rHST_APERTURE = 0 ∧ (kind = .linkDown → rd u rHST_LINK fHST_LINK_UP = 0) ∧
    ((∀ c : CtxId, (getCtx s c).st ≠ .replay) → ∀ c : CtxId, ((getCtx s c).vfOwn = false → getCtx u c = getCtx s c) ∧
      ((getCtx s c).vfOwn = true → (getCtx s c).st = .opened → (getCtx u c).st = .resetting))) ∧
  (∀ s, ∃ u, exec .vfEnableClear s = .next u ∧ u.cmds = s.cmds ∧
    ((∀ c : CtxId, (getCtx s c).st ≠ .replay) → ∀ c : CtxId, ((getCtx s c).vfOwn = false → getCtx u c = getCtx s c) ∧
      ((getCtx s c).vfOwn = true → (getCtx s c).st = .opened → (getCtx u c).st = .resetting))) ∧
  -- the DOE mailbox names its three protocols in turn
  (∀ (i : BitVec 8) s, ∃ d, exec (.doeDiscovery i) s = .next (emit s (.doe d)) ∧ (i.toNat ≤ 2 → d.drop 8 = [1, 0, i.toNat, (i.toNat + 1) % 3])) ∧
  -- a connection advances through its requests, each answered by the response of its code
  (∀ port s, SpdmServes s port 0 → ∃ u, exec (.getVersion port) s = .next u ∧ SpdmOnly s u ∧ (getSpdm u port).phase = 1 ∧ (getSpdm u port).session = none ∧
    .spdm port [0x10, 0x04, 0, 0, 0, 1, 0, 0x13] ∈ u.outs) ∧
  (∀ port req s, SpdmServes s port 1 → ∃ u d, exec (.getCapabilities port req) s = .next u ∧ SpdmOnly s u ∧ 2 ≤ (getSpdm u port).phase ∧
    .spdm port d ∈ u.outs ∧ d.take 2 = [0x13, 0x61] ∧ d.length = 20) ∧
  (∀ port req s b c, SpdmServes s port 2 → b = (leBytes ((req.map (·.toNat)).drop 8 |>.take 4)).testBit 9 →
    c = (leBytes ((req.map (·.toNat)).drop 12 |>.take 4)).testBit 2 →
    (b = true → c = true → ∃ u d, exec (.negotiateAlgorithms port req) s = .next u ∧ SpdmOnly s u ∧
      3 ≤ (getSpdm u port).phase ∧ .spdm port d ∈ u.outs ∧ d.take 2 = [0x13, 0x63] ∧ d.length = 52) ∧
    (b = false ∨ c = false → ∃ u, exec (.negotiateAlgorithms port req) s = .next u ∧ SpdmOnly s u ∧ u.spdmSt = s.spdmSt ∧
      .spdm port [0x13, 0x7F, 1, 0] ∈ u.outs)) ∧
  (∀ port req s, SpdmServes s port 3 → ∃ u, exec (.getDigests port req) s = .next u ∧ SpdmOnly s u ∧
    .spdm port ([0x13, 0x01, 1, 1] ++ sha512 (spdmChain s)) ∈ u.outs) ∧
  (∀ port req (off len : BitVec 16) s, SpdmServes s port 3 → off.toNat < (spdmChain s).length → ∃ u d,
    exec (.getCertificate port req 0 off len) s = .next u ∧ SpdmOnly s u ∧ .spdm port d ∈ u.outs ∧ d.take 2 = [0x13, 0x02] ∧
      d.drop 8 = ((spdmChain s).drop off.toNat).take len.toNat) ∧
  (∀ port req (slot : BitVec 4) (off len : BitVec 16) s, SpdmServes s port 3 → slot ≠ 0 ∨ (spdmChain s).length ≤ off.toNat → ∃ u,
    exec (.getCertificate port req slot off len) s = .next u ∧ SpdmOnly s u ∧ u.spdmSt = s.spdmSt ∧ .spdm port [0x13, 0x7F, 1, 0] ∈ u.outs) ∧
  (∀ port req nonce s, SpdmServes s port 3 → ∃ u d, exec (.challenge port req nonce) s = .next u ∧ SpdmOnly s u ∧ .spdm port d ∈ u.outs ∧
    d.take 68 = [0x13, 0x03, 0, 1] ++ sha512 (spdmChain s) ∧ (getSpdm u port).log = []) ∧
  (∀ port req (i : BitVec 8) sign s, SpdmServes s port 3 →
    (i.toNat ≤ 4 ∨ i.toNat = 0xFF → ∃ u d, exec (.getMeasurements port req i sign) s = .next u ∧ SpdmOnly s u ∧ .spdm port d ∈ u.outs ∧
      (i.toNat = 0 → d.take 5 = [0x13, 0x60, 4, 0, 0]) ∧ (i.toNat = 0xFF → d.take 5 = [0x13, 0x60, 0, 0, 4] ∧ (d.drop 15).take 64 = measOf s 1) ∧
      (1 ≤ i.toNat → i.toNat ≤ 4 → d.take 5 = [0x13, 0x60, 0, 0, 1] ∧ (d.drop 15).take 64 = measOf s i.toNat)) ∧
    (4 < i.toNat → i.toNat ≠ 0xFF → ∃ u, exec (.getMeasurements port req i sign) s = .next u ∧ SpdmOnly s u ∧ u.spdmSt = s.spdmSt ∧
      .spdm port [0x13, 0x7F, 1, 0] ∈ u.outs)) ∧
  (∀ port req s, SpdmServes s port 3 → ∃ u d, exec (.keyExchange port req) s = .next u ∧ SpdmOnly s u ∧ (getSpdm u port).session = some false ∧
    .spdm port d ∈ u.outs ∧ d.take 2 = [0x13, 0x64]) ∧
  (∀ port req s, SpdmServes s port 3 →
    ((getSpdm s port).session = some false → ∃ u, exec (.finish port req) s = .next u ∧ SpdmOnly s u ∧ (getSpdm u port).session = some true) ∧
    ((getSpdm s port).session ≠ some false → ∃ u, exec (.finish port req) s = .next u ∧ SpdmOnly s u ∧ u.spdmSt = s.spdmSt ∧
      .spdm port [0x13, 0x7F, 4, 0] ∈ u.outs)) ∧
  -- a request out of its order, or of a module that is scrapped, is answered with an error
  (∀ port req s i n, (i, n) ∈ [(Instr.getCapabilities port req, 1), (.negotiateAlgorithms port req, 2), (.getDigests port req, 3),
      (.keyExchange port req, 3), (.finish port req, 3)] →
    (port = .mctp → rd s rSBD_STATUS fSBD_STATUS_EID ≠ 0) → gafferDown s = false →
    (lcState s = 5 → ∃ u, exec i s = .next u ∧ .spdm port [0x13, 0x7F, 5, 0] ∈ u.outs ∧ u.spdmSt = s.spdmSt) ∧
    (lcState s ≠ 5 → (getSpdm s port).phase < n → ∃ u, exec i s = .next u ∧ .spdm port [0x13, 0x7F, 4, 0] ∈ u.outs ∧ u.spdmSt = s.spdmSt)) ∧
  -- keys are installed within a secured session; an integrity failure leaves the stream insecure and stops its packets
  (∀ (n : BitVec 4) ks key port s, n.toNat < 8 ∨ n.toNat = 15 → (getSpdm s port).session = some true → ∃ u, exec (.ideKm n ks key) s = .next u ∧
    isSecure u n.toNat = true ∧ tget (fun _ => none) u.ideKeys (2 * n.toNat + ks.toNat) = some key.toNat ∧
    tget (fun _ => false) u.ideBad n.toNat = false ∧ u.cmds = s.cmds ∧ u.mem = s.mem) ∧
  (∀ (n : BitVec 4) ks key s, (∀ port, (getSpdm s port).session ≠ some true) → exec (.ideKm n ks key) s = .next s) ∧
  (∀ (n : BitVec 4) s, n.toNat < 8 ∨ n.toNat = 15 → isSecure s n.toNat = true → ∃ u, exec (.ideIntegrityFailure n) s = .next u ∧
    isSecure u n.toNat = false ∧ tget (fun _ => false) u.ideBad n.toNat = true ∧
    rd u rHST_IDE fHST_IDE_IDE_FAIL = min (rd s rHST_IDE fHST_IDE_IDE_FAIL + 1) (2 ^ 32 - 1) ∧ u.cmds = s.cmds ∧ u.mem = s.mem)

/-! ### Sideband, test access and Cane FIFOs (chapter 14) -/

/-- The sideband target (R332 to R337, R363; the bytes of MCTP and PLDM messages are log 33's): SETDASA, ENTDAA, RSTDAA,
SET_ENDPOINT_ID, MCTP_CONTROL, SIDEBAND_COMMAND, JOB_NOTICE, MODULE_STATE, REGISTER_ACCESS, the twelve PLDM commands and SENSOR_REFRESH. -/
def Obligations.SidebandAnswersItsRequesters : Prop :=
  -- a dynamic address is assigned once, until it is reset
  (∀ (st dyn : BitVec 7) s, rd s rSBD_STATUS fSBD_STATUS_I3C = 0 →
    (rd s rSBD_STATUS fSBD_STATUS_STATIC_ADDR = st.toNat → ∃ u, exec (.setdasa st dyn) s = .next u ∧ rd u rSBD_STATUS fSBD_STATUS_DYN_ADDR = dyn.toNat ∧
      rd u rSBD_STATUS fSBD_STATUS_I3C = 1 ∧ u = { s with regs := u.regs }) ∧
    (rd s rSBD_STATUS fSBD_STATUS_STATIC_ADDR ≠ st.toNat → exec (.setdasa st dyn) s = .next s) ∧
    (∃ u, exec (.entdaa dyn) s = .next u ∧ rd u rSBD_STATUS fSBD_STATUS_DYN_ADDR = dyn.toNat ∧ rd u rSBD_STATUS fSBD_STATUS_I3C = 1 ∧ u = { s with regs := u.regs })) ∧
  (∀ (st dyn : BitVec 7) s, rd s rSBD_STATUS fSBD_STATUS_I3C = 1 → exec (.setdasa st dyn) s = .next s ∧ exec (.entdaa dyn) s = .next s) ∧
  (∀ s, ∃ u, exec .rstdaa s = .next u ∧ rd u rSBD_STATUS fSBD_STATUS_I3C = 0 ∧ rd u rSBD_STATUS fSBD_STATUS_DYN_ADDR = 0 ∧ u = { s with regs := u.regs }) ∧
  -- control messages are answered whatever the endpoint ID is, one request of a requester at a time
  (∀ (who eid : BitVec 8) s, s.sbd.busy.contains who.toNat = false →
    (eid ≠ 0 → eid ≠ 255 → ∃ v, exec (.setEndpointId who eid) s = .next (mctpSend v who.toNat 0 [0, 1, 0, 0, eid.toNat, 0]) ∧
      rd v rSBD_STATUS fSBD_STATUS_EID = eid.toNat ∧ v = { s with regs := v.regs }) ∧
    (eid = 0 ∨ eid = 255 → exec (.setEndpointId who eid) s = .next (mctpSend s who.toNat 0 [0, 1, 2])) ∧
    exec (.mctpControl who 2 []) s = .next (mctpSend s who.toNat 0 [0, 2, 0, rd s rSBD_STATUS fSBD_STATUS_EID, 0, 0]) ∧
    exec (.mctpControl who 5 []) s = .next (mctpSend s who.toNat 0 [0, 5, 0, 4, 0, 1, 5, 0x7E])) ∧
  -- every other request needs an endpoint ID, waits for none, and gets ERROR_NOT_READY while the Gaffer is down
  (∀ (who : BitVec 8) p tag gid cause ref w off v t h sn st m e req a s i,
    i ∈ [Instr.sidebandCommand who p, .jobNotice who tag gid cause ref, .registerAccess who w off v, .getTid who, .getPldmTypes who,
      .getPldmCommands who t, .getPldmVersion who t, .getPdrRepositoryInfo who, .getPdr who h, .getSensorReading who sn, .getStateSensorReadings who sn,
      .setNumericSensorEnable who sn st, .setEventReceiver who m e, .platformEventMessage who req, .pollForPlatformEventMessage who a] →
    (rd s rSBD_STATUS fSBD_STATUS_EID = 0 → exec i s = .next s) ∧
    (rd s rSBD_STATUS fSBD_STATUS_EID ≠ 0 → s.sbd.busy.contains who.toNat = true ∨ gafferDown s = true →
      exec i s = .next (mctpSend s who.toNat 0 [0, 0, 4]))) ∧
  (∀ (who : BitVec 8) s, rd s rSBD_STATUS fSBD_STATUS_EID ≠ 0 → s.sbd.busy.contains who.toNat = false →
    exec (.moduleState who) s = .next (mctpSend s who.toNat 0x7E ([3, moduleState s] ++ bytesLE 8 (regRead s rGAF_RECOVERY).toNat))) ∧
  (∀ s, moduleState s = if s.pwr.quenched then 4 else if dead s then 2 else if bootMode s = 3 then 3 else if s.recPhase ≠ 0 then 1 else 0) ∧
  -- a command joins the ninth window, and its reply is the response
  (∀ (who : BitVec 8) p s, MctpServes s who → served s .sideband = true → (s.cmds.filter fun h => winOf h.src = 8).length < 64 →
    (takeCheck s .sideband p = none → ∃ u f, exec (.sidebandCommand who p) s = .next u ∧
      u = { s with cmds := s.cmds ++ [{ src := .sideband, who := who.toNat, pkt := p, taken := s.now, started := false, info := 0, free := f }]
                   sbd := { s.sbd with busy := who.toNat :: s.sbd.busy } }) ∧
    (∀ st, takeCheck s .sideband p = some st → ∃ u, exec (.sidebandCommand who p) s = .next u ∧ u.cmds = s.cmds ∧ u.sbd.busy = s.sbd.busy ∧
      OutMsg.mctp who.toNat 0x7E (1 :: replyBytes s p s.now st 0) ∈ u.outs)) ∧
  (∀ s (h : HeldCmd) r, h.src = .sideband → OutMsg.mctp h.who 0x7E (1 :: replyBytes s h.pkt h.taken 0 r) ∈ (done s h r).outs ∧
    (done s h r).hostMem = s.hostMem) ∧
  -- a job notice logs HANG 0x009 and stops nothing
  (∀ (who : BitVec 8) tag gid cause ref s, MctpServes s who → ∃ v, exec (.jobNotice who tag gid cause ref) s = .next (mctpSend v who.toNat 0x7E [2, 0, 0]) ∧
    (∀ c : CtxId, (getCtx v c).plan = (getCtx s c).plan ∧ (getCtx v c).st = (getCtx s c).st) ∧
    ∀ c : CtxId, (allCtx.filter fun (d : CtxId) => decide ((getCtx s d).st ≠ .closed) && decide ((getCtx s d).job = tag)) = [c] →
      8 ≤ caneFree 20 s.now (getCane s 20) → (getCane v 20).items.length = (getCane s 20).items.length + 8) ∧
  -- register access of eight aligned bytes
  (∀ (who : BitVec 8) (off : BitVec 25) v s, MctpServes s who → 2 * off.toNat % 8 = 0 →
    exec (.registerAccess who true off v) s = .next (mctpSend (regWrite s .sideband (2 * off.toNat) v) who.toNat 0x7E [4]) ∧
    exec (.registerAccess who false off v) s =
      .next (mctpSend (regReadEff s (2 * off.toNat)).2 who.toNat 0x7E (4 :: bytesLE 8 (regReadEff s (2 * off.toNat)).1.toNat))) ∧
  -- PLDM: the terminus, its types, versions and records
  (∀ (who : BitVec 8) s, MctpServes s who → exec (.getTid who) s = .next (mctpSend s who.toNat 1 [0, 0, 2, 0, 0]) ∧
    exec (.getPldmTypes who) s = .next (mctpSend s who.toNat 1 ([0, 0, 4, 0] ++ bytesLE 8 5)) ∧
    (∃ d, exec (.getPldmCommands who 2) s = .next (mctpSend s who.toNat 1 ([0, 0, 5, 0] ++ d)) ∧ d.length = 32) ∧
    (∃ d, exec (.getPldmVersion who 2) s = .next (mctpSend s who.toNat 1 ([0, 0, 3, 0, 0, 0, 0, 0, 5, 0, 0xF0, 0xF2, 0xF1] ++ d)) ∧ d.length = 4) ∧
    (∃ v d, exec (.getPdrRepositoryInfo who) s = .next (mctpSend v who.toNat 1 ([0, 2, 0x50, 0, 0] ++ d)) ∧ leBytes ((d.drop 26).take 4) = 26 ∧
      v = { s with fresh := s.fresh + 1 }) ∧
    (∀ (h : BitVec 32), 1 ≤ h.toNat → h.toNat ≤ 26 → ∃ v d, exec (.getPdr who h) s = .next (mctpSend v who.toNat 1 ([0, 2, 0x51, 0] ++ d)) ∧
      leBytes (d.take 4) = (if h.toNat < 26 then h.toNat + 1 else 0) ∧ some (leBytes ((d.drop 23).take 2)) = sensorIds[h.toNat - 1]? ∧
      v = { s with fresh := s.fresh + 1 }) ∧
    (∀ req, exec (.platformEventMessage who req) s = .next (mctpSend s who.toNat 1 [0, 2, 0x0A, 0, 0]))) ∧
  -- sensors, their states and their switches
  (∀ (who : BitVec 8) (id : BitVec 16) s, MctpServes s who → 1 ≤ id.toNat → id.toNat ≤ 24 →
    exec (.getSensorReading who id) s = .next (mctpSend s who.toNat 1 ([0, 2, 0x11, 0, 5, tget (fun _ => 0) s.sbd.enables id.toNat, 1,
      sensorState s id.toNat (reading s id.toNat), sensorState s id.toNat (reading s id.toNat), sensorState s id.toNat (reading s id.toNat)] ++
      bytesLE 4 (reading s id.toNat % 2 ^ 32).toNat)) ∧
    ∀ st : BitVec 8, st.toNat ≤ 2 → ∃ v, exec (.setNumericSensorEnable who id st) s = .next (mctpSend v who.toNat 1 [0, 2, 0x10, 0]) ∧
      tget (fun _ => 0) v.sbd.enables id.toNat = st.toNat ∧ v = { s with sbd := { s.sbd with enables := v.sbd.enables } }) ∧
  (∀ (who : BitVec 8) s, MctpServes s who → exec (.getStateSensorReadings who 100) s =
      .next (mctpSend s who.toNat 1 [0, 2, 0x21, 0, 1, 0, moduleState s, moduleState s, moduleState s]) ∧
    ∃ p, exec (.getStateSensorReadings who 101) s = .next (mctpSend s who.toNat 1 [0, 2, 0x21, 0, 1, 0, p, p, p]) ∧
      p = 1 + rd s rPWR_STATUS fPWR_STATUS_PWR_FAIL) ∧
  (∀ s v, (v < 36000 → sensorState s 1 v = 7) ∧ (42000 ≤ v → v ≤ 60000 → sensorState s 1 v = 1) ∧ (80000 < v → sensorState s 1 v = 10)) ∧
  -- events go to the receiver, or wait until they are polled and acknowledged
  (∀ (who m e : BitVec 8) s, MctpServes s who → m.toNat ≤ 3 → ∃ v, exec (.setEventReceiver who m e) s = .next (mctpSend v who.toNat 1 [0, 2, 0x04, 0]) ∧
    v = { s with sbd := { s.sbd with rcvMode := m.toNat, rcvEid := e.toNat } }) ∧
  (∀ (who : BitVec 8) (a : BitVec 16) s, MctpServes s who → ∃ v d, exec (.pollForPlatformEventMessage who a) s = .next (mctpSend v who.toNat 1 ([0, 2, 0x0B, 0] ++ d)) ∧
    v = { s with sbd := { s.sbd with events := s.sbd.events.filter fun q => q.1 ≠ a.toNat } } ∧
    (v.sbd.events = [] → d = [0, 0, 0]) ∧ ∀ id x rest, v.sbd.events = (id, x) :: rest → leBytes ((d.drop 1).take 2) = id % 2 ^ 16 ∧ (d.drop 13).take x.length = x) ∧
  -- a refresh shows each reading; one that crosses a threshold tells the receiver
  (∀ (r : Readings) s id v, gafferDown s = false → r.vals = [(id, v)] → ∃ u, exec (.sensorRefresh r) s = .next u ∧ reading u id = v ∧
    (∀ k, k ≠ id → reading u k = reading s k) ∧ (id = 1 → rd u rPWR_INPUT fPWR_INPUT_VIN = min v.toNat (2 ^ 32 - 1)) ∧
    (∀ z : ZoneId, id = 6 + z.val → (getZone u z).temp = v) ∧ (∀ z : ZoneId, id ≠ 6 + z.val → getZone u z = getZone s z) ∧
    -- a junction that reaches 105 °C sheds its zone to its floor
    (∀ z : ZoneId, id = 6 + z.val → (v < 1680 ∨ (getZone s z).hotSince ≠ none → getZone u z =
        { getZone s z with temp := v, hotSince := if v < 1680 then none else (getZone s z).hotSince }) ∧
      (1680 ≤ v → (getZone s z).hotSince = none → (getZone u z).hotSince = some s.now ∧
        (zoneStep s z < floorStep s z → (getZone s z).change = none → zoneDeep s z = false →
          (getZone u z).change = some .toStop ∧ (getZone u z).target = floorStep s z))) ∧
    (sensorState s id v = sensorState s id (reading s id) → u.sbd.events = s.sbd.events ∧ u.outs = s.outs) ∧
    (sensorState s id v ≠ sensorState s id (reading s id) → sensorOn s id = true → s.sbd.rcvMode = 0 → s.sbd.events.length < 32 →
      u.sbd.events.length = s.sbd.events.length + 1))


/-- The test access port and the Cane FIFOs (R338 to R344; the boundary cells are log 22's): BYPASS, IDCODE, SAMPLE_PRELOAD, EXTEST,
CLAMP, HIGHZ, PRIVATE_INSTRUCTION, CANE_WRITE, CANE_READ and CANE_TIMEOUT. -/
def Obligations.TestPortAndCaneFifosBehave : Prop :=
  -- one bit of delay, 0 when newly selected
  (∀ b s, ∃ u, exec (.bypass b) s = .next u ∧ u.outs = .tdo [if s.jtag.instr = 0 then s.jtag.byp else false] :: s.outs ∧ u.jtag.byp = b ∧
    u.jtag.instr = 0 ∧ u.jtag.pins = none ∧ u = { s with jtag := u.jtag, outs := u.outs }) ∧
  (∀ s, ∃ u bits, exec .idcode s = .next u ∧ u.outs = .tdo bits :: s.outs ∧ bits.length = 32 ∧ (∀ k, k < 32 → bits.getD k false = (idcode s).testBit k) ∧
    idcode s % 2 = 1 ∧ idcode s / 2 ^ 12 % 2 ^ 16 = 0x0960 ∧ u = { s with jtag := u.jtag, outs := u.outs }) ∧
  (∀ cells s, ∃ u, exec (.samplePreload cells) s = .next u ∧ u.jtag.cells = cells ∧ u.jtag.pins = none ∧
    u = { s with jtag := u.jtag, outs := u.outs, fresh := s.fresh + 1 }) ∧
  (∀ pins s, ∃ u, exec (.extest pins) s = .next u ∧ u.jtag.pins = some s.jtag.cells ∧ u.outs = .tdo pins :: s.outs ∧ u.jtag.cells = s.jtag.cells) ∧
  (∀ s, ∃ u, exec .clamp s = .next u ∧ u.jtag.pins = some s.jtag.cells ∧ u = { s with jtag := u.jtag }) ∧
  (∀ s, ∃ u, exec .highz s = .next u ∧ u.jtag.pins = some [] ∧ u = { s with jtag := u.jtag }) ∧
  -- private instructions reach the DBG block alone, and only while the life cycle permits it
  (∀ w (off : BitVec 5) v s, lcOpen s = false → ∃ u, exec (.privateInstruction w off v) s = .next u ∧ u.outs = .tdo [false] :: s.outs ∧
    u = { s with jtag := u.jtag, outs := u.outs }) ∧
  (∀ (off : BitVec 5) v s, lcOpen s = true → (∃ u, exec (.privateInstruction true off v) s = .next u ∧ u.jtag.instr = 6 ∧
      ∀ o, o < 0xF00000 → o ≠ rHST_MAP_ERR → isDet o = false → regGet u o = regGet s o) ∧
    ∃ u bits, exec (.privateInstruction false off v) s = .next u ∧ u.outs = .tdo bits :: s.outs ∧ bits.length = 64) ∧
  -- an item is stored with even parity, last in the queue
  (∀ d l p now, (((List.range 64).filter fun i => d.getLsbD i).length + (if (mkCaneIt d l p now).last then 1 else 0) + (if (mkCaneIt d l p now).par then 1 else 0)) % 2 = 0) ∧
  (∀ (i : CaneId) w s, 1 ≤ caneFree i s.now (getCane s i) → ∃ u, exec (.caneWrite i w) s = .next u ∧
    (getCane u i).items = (getCane s i).items ++ [caneItOf w s.now] ∧ (getCane u i).dropped = (getCane s i).dropped ∧
    (∀ j : CaneId, j ≠ i → getCane u j = getCane s j) ∧ u = { s with canes := u.canes, outs := u.outs }) ∧
  -- a full one drops and counts under FLAG, and holds its writer under BACKPRESSURE
  (∀ (i : CaneId) w s, caneFree i s.now (getCane s i) = 0 →
    ((getCane s i).flagMd = true → ∃ u, exec (.caneWrite i w) s = .next u ∧ getCane u i = { getCane s i with ovr := true, dropped := satAdd32 (getCane s i).dropped 1 } ∧
      (∀ j : CaneId, j ≠ i → getCane u j = getCane s j) ∧ u = { s with canes := u.canes, flagAt := u.flagAt }) ∧
    ((getCane s i).flagMd = false → (getCane s i).held = none → ∃ u, exec (.caneWrite i w) s = .next u ∧ getCane u i = { getCane s i with held := some w } ∧
      u = { s with canes := u.canes })) ∧
  (∀ (i : CaneId) now x, caneFree i now x ≤ caneDepth i - x.items.length) ∧
  -- the head comes out after three reader edges, poisoned where its parity is wrong; an empty read takes nothing
  (∀ (i : CaneId) s it rest, (getCane s i).items = it :: rest → edgesSince (caneRdPeriod i) 3 it.at_ s.now = true → (getCane s i).held = none → s.faultHeld = [] →
    ∃ u, exec (.caneRead i) s = .next u ∧ (getCane u i).items = rest ∧ (getCane u i).lastEnd = it.last ∧ (getCane u i).lastEmpty = false ∧
      (getCane u i).lastPoison = (it.poison || it.par != caneParity it.data it.last) ∧
      (getCane u i).parity = (if it.par != caneParity it.data it.last then satAdd32 (getCane s i).parity 1 else (getCane s i).parity) ∧
      (∀ j : CaneId, j ≠ i → getCane u j = getCane s j) ∧ u = { s with canes := u.canes }) ∧
  (∀ (i : CaneId) s, s.faultHeld = [] → ((getCane s i).items = [] ∨ ∃ it rest, (getCane s i).items = it :: rest ∧ edgesSince (caneRdPeriod i) 3 it.at_ s.now = false) →
    ∃ u, exec (.caneRead i) s = .next u ∧ getCane u i = { getCane s i with lastEmpty := true, lastEnd := false, lastPoison := false } ∧ u = { s with canes := u.canes }) ∧
  -- a freed stage shows free from the third writer edge on
  (∀ (i : CaneId) s it rest, (getCane s i).items = it :: rest → (getCane s i).freed = [] → edgesSince (caneRdPeriod i) 3 it.at_ s.now = true →
    (getCane s i).held = none → caneFree i s.now (getCane (caneRead s i).2.2.2 i) = caneDepth i - rest.length - 1) ∧
  -- the timeout fires once, TIMEOUT reader edges after the last read
  (∀ (i : CaneId) s, rd s (rSBD_CANE_CTL i) fSBD_CANE_CTL_TIMEOUT ≠ 0 → (getCane s i).items ≠ [] → (getCane s i).fired = false →
    (edgesSince (caneRdPeriod i) (rd s (rSBD_CANE_CTL i) fSBD_CANE_CTL_TIMEOUT) (getCane s i).timer s.now = true → ∃ u, exec (.caneTimeout i) s = .next u ∧
      (getCane u i).tmo = true ∧ (getCane u i).items = (getCane s i).items ∧ exec (.caneTimeout i) u = .next u) ∧
    (edgesSince (caneRdPeriod i) (rd s (rSBD_CANE_CTL i) fSBD_CANE_CTL_TIMEOUT) (getCane s i).timer s.now = false → exec (.caneTimeout i) s = .next s)) ∧
  (∀ (i : CaneId) s, rd s (rSBD_CANE_CTL i) fSBD_CANE_CTL_TIMEOUT = 0 ∨ (getCane s i).items = [] → exec (.caneTimeout i) s = .next s)

/-! ### Power and supply (chapter 15) -/

/-- The input classes, the hold-up bank and Quench (R347 to R353, R365): INPUT_SAG, SAG_END, INTERRUPTION, INTERRUPTION_END,
INPUT_SURGE, SURGE_END, INPUT_RIPPLE, RIPPLE_END, HIGH_INPUT_ENTRY, OVERCURRENT, INPUT_OUTSIDE_RATING, PWR_FAIL_N, QUENCH,
BANK_CUTOFF, BANK_RECHARGED and QUENCH_END. -/
def Obligations.SupplyEventsAreLoggedAndQuench : Prop :=
  -- a sag is logged and counted, and sheds every zone to its floor
  (∀ (mv : BitVec 32) s, 40000 ≤ mv.toNat → exec (.inputSag mv) s = .next s) ∧
  (∀ (mv : BitVec 32) s i, mv.toNat < 40000 → s.pwr.sag = none → i = rd s rPWR_SEVT_PTR fPWR_SEVT_PTR_WR % 64 →
    ∃ u, exec (.inputSag mv) s = .next u ∧ rd u rPWR_INPUT fPWR_INPUT_VIN = mv.toNat ∧ rd u rPWR_STATUS fPWR_STATUS_SHED = 1 ∧
      rd u rPWR_STATUS fPWR_STATUS_CLASS = rd s rPWR_STATUS fPWR_STATUS_CLASS ||| 1 ∧ u.pwr = { s.pwr with sag := some (s.now, i), minMv := mv.toNat } ∧
      rd u (rPWR_SEVT i) fPWR_SEVT_KIND = 1 ∧ rd u (rPWR_SEVT i) fPWR_SEVT_EXTREME = mv.toNat / 100 ∧
      regGet u (rPWR_SEVT_W1 i) = BitVec.ofNat 64 s.now ∧
      rd u rPWR_SEVT_PTR fPWR_SEVT_PTR_WR = (rd s rPWR_SEVT_PTR fPWR_SEVT_PTR_WR + 1) % 2 ^ 32 ∧
      rd u rPWR_EVT_CNT fPWR_EVT_CNT_SAGS = min (rd s rPWR_EVT_CNT fPWR_EVT_CNT_SAGS + 1) 65535 ∧
      RecordSent s u 0 0 0x7002 (regGet u (rPWR_SEVT i)).toNat ∧
      (s.pwr.quenched = false → ∀ z : ZoneId, zoneStep s z < floorStep s z → (getZone s z).change = none → zoneDeep s z = false →
        (getZone u z).change = some .toStop ∧ (getZone u z).target = floorStep s z) ∧
      u = { s with regs := u.regs, pwr := u.pwr, zones := u.zones, canes := u.canes, outs := u.outs, faultHeld := u.faultHeld, flagAt := u.flagAt }) ∧
  (∀ (mv : BitVec 32) s t i, mv.toNat < 40000 → s.pwr.sag = some (t, i) → ∃ u, exec (.inputSag mv) s = .next u ∧
    rd u (rPWR_SEVT i) fPWR_SEVT_EXTREME = min (mv.toNat / 100) (rd s (rPWR_SEVT i) fPWR_SEVT_EXTREME) ∧
    u.pwr = { s.pwr with minMv := min s.pwr.minMv mv.toNat } ∧ u = { s with regs := u.regs, pwr := u.pwr }) ∧
  -- it ends at 42 V or above 10 ms after it began, and lifts the shed
  (∀ (mv : BitVec 32) s t i, s.pwr.sag = some (t, i) →
    (mv.toNat < 42000 ∨ s.pwr.intr ≠ none ∨ s.now < t + 12000000 → exec (.sagEnd mv) s = .next s) ∧
    (42000 ≤ mv.toNat → s.pwr.intr = none → t + 12000000 ≤ s.now → ∃ u, exec (.sagEnd mv) s = .next u ∧ u.pwr = { s.pwr with sag := none } ∧
      rd u rPWR_STATUS fPWR_STATUS_SHED = 0 ∧ rd u rPWR_STATUS fPWR_STATUS_CLASS = rd s rPWR_STATUS fPWR_STATUS_CLASS &&& 14 ∧
      rd u (rPWR_SEVT i) fPWR_SEVT_DURATION = min ((s.now - t) / 1200) 65535 ∧
      (∀ z : ZoneId, getZone u z = { getZone s z with shed := (getZone s z).shed && decide (1680 ≤ (getZone s z).temp) }) ∧
      u = { s with regs := u.regs, pwr := u.pwr, zones := u.zones })) ∧
  -- an interruption is a sag too, and puts the module on the hold-up bank
  (∀ (mv : BitVec 32) s, 36000 ≤ mv.toNat → exec (.interruption mv) s = .next s) ∧
  (∀ (mv : BitVec 32) s i, mv.toNat < 36000 → s.pwr.intr = none → s.pwr.sag = none → i = rd s rPWR_SEVT_PTR fPWR_SEVT_PTR_WR % 64 →
    ∃ u, exec (.interruption mv) s = .next u ∧ u.pwr.intr = some (s.now, (i + 1) % 64) ∧ u.pwr.sag = some (s.now, i) ∧
      rd u rPWR_STATUS fPWR_STATUS_CLASS = rd s rPWR_STATUS fPWR_STATUS_CLASS ||| 3 ∧ rd u rPWR_STATUS fPWR_STATUS_HOLDUP = 1 ∧
      rd u rPWR_STATUS fPWR_STATUS_BANK_OK = 0 ∧ rd u rPWR_STATUS fPWR_STATUS_SHED = 1 ∧
      rd u (rPWR_SEVT ((i + 1) % 64)) fPWR_SEVT_KIND = 4 ∧ rd u (rPWR_SEVT ((i + 1) % 64)) fPWR_SEVT_EXTREME = mv.toNat / 100 ∧
      rd u rPWR_EVT_CNT fPWR_EVT_CNT_INTERRUPTIONS = min (rd s rPWR_EVT_CNT fPWR_EVT_CNT_INTERRUPTIONS + 1) 65535 ∧
      u.pwr.bankFull = (if rd s rPWR_STATUS fPWR_STATUS_BANK_OK = 1 then s.pwr.bankFull else s.now + 120000000) ∧ u.ctxs = s.ctxs ∧ u.mem = s.mem) ∧
  -- it ends in time, or Quenches on its age alone
  (∀ (mv : BitVec 32) s t i, s.pwr.intr = some (t, i) →
    (mv.toNat < 36000 → exec (.interruptionEnd mv) s = .next s) ∧
    (36000 ≤ mv.toNat → s.now + 1200 - t ≤ 1200000 → ∃ u, exec (.interruptionEnd mv) s = .next u ∧
      u.pwr = { s.pwr with intr := none, bankFull := s.now + 120000000 } ∧ rd u rPWR_STATUS fPWR_STATUS_HOLDUP = 0 ∧
      rd u rPWR_STATUS fPWR_STATUS_CLASS = rd s rPWR_STATUS fPWR_STATUS_CLASS &&& 13 ∧
      rd u (rPWR_SEVT i) fPWR_SEVT_DURATION = min ((s.now - t) / 1200) 65535 ∧ u = { s with regs := u.regs, pwr := u.pwr }) ∧
    (36000 ≤ mv.toNat → 1200000 < s.now + 1200 - t → s.pwr.quenched = false → ∃ u, exec (.interruptionEnd mv) s = .next u ∧ Quenched s u 1) ∧
    -- the bank's cutoff matters only when it was not full
    (s.pwr.bankFull ≤ t → exec .bankCutoff s = .next s) ∧
    (t < s.pwr.bankFull → s.pwr.quenched = false → ∃ u, exec .bankCutoff s = .next u ∧ Quenched s u 1) ∧
    exec .bankRecharged s = .next s) ∧
  (∀ s, s.pwr.intr = none → exec .bankCutoff s = .next s ∧
    (s.now < s.pwr.bankFull → exec .bankRecharged s = .next s) ∧
    (s.pwr.bankFull ≤ s.now → ∃ u, exec .bankRecharged s = .next u ∧ rd u rPWR_STATUS fPWR_STATUS_BANK_OK = 1 ∧ u = { s with regs := u.regs })) ∧
  -- surges, ripple and high input
  (∀ (mv : BitVec 32) s i, s.pwr.surge = none → i = rd s rPWR_SEVT_PTR fPWR_SEVT_PTR_WR % 64 →
    (mv.toNat ≤ 64000 → exec (.inputSurge mv) s = .next s) ∧
    (64000 < mv.toNat → mv.toNat ≤ 80000 → ∃ u, exec (.inputSurge mv) s = .next u ∧ u.pwr = { s.pwr with surge := some (s.now, i) } ∧
      rd u rPWR_STATUS fPWR_STATUS_CLASS = rd s rPWR_STATUS fPWR_STATUS_CLASS ||| 8 ∧ rd u (rPWR_SEVT i) fPWR_SEVT_KIND = 2 ∧
      rd u (rPWR_SEVT i) fPWR_SEVT_EXTREME = mv.toNat / 100 ∧ rd u rPWR_EVT_CNT fPWR_EVT_CNT_SURGES = min (rd s rPWR_EVT_CNT fPWR_EVT_CNT_SURGES + 1) 65535 ∧
      RecordSent s u 0 0 0x7003 (regGet u (rPWR_SEVT i)).toNat ∧
      u = { s with regs := u.regs, pwr := u.pwr, canes := u.canes, outs := u.outs, faultHeld := u.faultHeld, flagAt := u.flagAt }) ∧
    (80000 < mv.toNat → s.pwr.quenched = false → NoEarlier s 3 →
      (∃ u, exec (.inputSurge mv) s = .next u ∧ Quenched s u 3) ∧ ∃ u, exec (.inputOutsideRating mv) s = .next u ∧ Quenched s u 3) ∧
    (mv.toNat ≤ 80000 → exec (.inputOutsideRating mv) s = .next s)) ∧
  (∀ (mv : BitVec 32) s t i, s.pwr.surge = some (t, i) →
    (62000 < mv.toNat → exec (.surgeEnd mv) s = .next s) ∧
    (mv.toNat ≤ 62000 → ∃ u, exec (.surgeEnd mv) s = .next u ∧ u.pwr = { s.pwr with surge := none } ∧
      rd u rPWR_STATUS fPWR_STATUS_CLASS = rd s rPWR_STATUS fPWR_STATUS_CLASS &&& 7 ∧
      rd u (rPWR_SEVT i) fPWR_SEVT_DURATION = min ((s.now - t) / 1200) 65535 ∧ u = { s with regs := u.regs, pwr := u.pwr }) ∧
    -- above 64 V for more than 1 ms is outside the rating too
    (64000 < mv.toNat → 1200000 < s.now + 1200 - t → s.pwr.quenched = false → NoEarlier s 3 →
      ∃ u, exec (.inputOutsideRating mv) s = .next u ∧ Quenched s u 3)) ∧
  (∀ (pp mean : BitVec 32) s i, s.pwr.ripple = none → i = rd s rPWR_SEVT_PTR fPWR_SEVT_PTR_WR % 64 →
    (pp.toNat ≤ 2000 ∨ mean.toNat < 40000 ∨ 60000 < mean.toNat → exec (.inputRipple pp mean) s = .next s) ∧
    (2000 < pp.toNat → 40000 ≤ mean.toNat → mean.toNat ≤ 60000 → ∃ u, exec (.inputRipple pp mean) s = .next u ∧
      u.pwr = { s.pwr with ripple := some (s.now, i) } ∧ rd u rPWR_STATUS fPWR_STATUS_CLASS = rd s rPWR_STATUS fPWR_STATUS_CLASS ||| 4 ∧
      rd u (rPWR_SEVT i) fPWR_SEVT_KIND = 3 ∧ rd u (rPWR_SEVT i) fPWR_SEVT_EXTREME = min (pp.toNat / 100) 4095 ∧
      rd u rPWR_EVT_CNT fPWR_EVT_CNT_RIPPLES = min (rd s rPWR_EVT_CNT fPWR_EVT_CNT_RIPPLES + 1) 255 ∧
      RecordSent s u 0 0 0x7004 (regGet u (rPWR_SEVT i)).toNat ∧
      u = { s with regs := u.regs, pwr := u.pwr, canes := u.canes, outs := u.outs, faultHeld := u.faultHeld, flagAt := u.flagAt })) ∧
  (∀ (pp : BitVec 32) s t i, s.pwr.ripple = some (t, i) →
    (1500 ≤ pp.toNat ∨ s.now < t + 12000000 → exec (.rippleEnd pp) s = .next s) ∧
    (pp.toNat < 1500 → t + 12000000 ≤ s.now → ∃ u, exec (.rippleEnd pp) s = .next u ∧ u.pwr = { s.pwr with ripple := none } ∧
      rd u rPWR_STATUS fPWR_STATUS_CLASS = rd s rPWR_STATUS fPWR_STATUS_CLASS &&& 11 ∧
      rd u (rPWR_SEVT i) fPWR_SEVT_DURATION = min ((s.now - t) / 1200) 65535 ∧ u = { s with regs := u.regs, pwr := u.pwr })) ∧
  (∀ (mv : BitVec 32) s, (mv.toNat ≤ 60000 ∨ 64000 < mv.toNat → exec (.highInputEntry mv) s = .next s) ∧
    (60000 < mv.toNat → mv.toNat ≤ 64000 → ∃ u, exec (.highInputEntry mv) s = .next u ∧ rd u rPWR_INPUT fPWR_INPUT_VIN = mv.toNat ∧
      rd u rPWR_EVT_CNT fPWR_EVT_CNT_HIGH = min (rd s rPWR_EVT_CNT fPWR_EVT_CNT_HIGH + 1) 255 ∧ u = { s with regs := u.regs })) ∧
  -- the other causes of Quench
  (∀ (ma : BitVec 32) s, (ma.toNat ≤ 70000 → exec (.overcurrent ma) s = .next s) ∧
    (70000 < ma.toNat → s.pwr.quenched = false → NoEarlier s 4 → ∃ u, exec (.overcurrent ma) s = .next u ∧ Quenched s u 4)) ∧
  (∀ s, rd s rPWR_STATUS fPWR_STATUS_PWR_FAIL = 0 → s.pwr.quenched = false → NoEarlier s 2 →
    ∃ u, exec (.pwrFailN true) s = .next u ∧ Quenched s u 2 ∧ rd u rPWR_STATUS fPWR_STATUS_PWR_FAIL = 1) ∧
  (∀ s, ∃ u, exec (.pwrFailN false) s = .next u ∧ rd u rPWR_STATUS fPWR_STATUS_PWR_FAIL = 0 ∧
    u = { s with regs := u.regs, sbd := u.sbd, outs := u.outs }) ∧
  -- the first cause in the list of those that stand is recorded
  (∀ (k : BitVec 4) s, (quenchDue s k.toNat = false → exec (.quench k) s = .next s) ∧
    (quenchDue s k.toNat = true → NoEarlier s k.toNat → s.pwr.quenched = false → ∃ u, exec (.quench k) s = .next u ∧ Quenched s u k.toNat)) ∧
  -- power-on follows once the input has been good for 100 ms
  (∀ (mv : BitVec 32) s, (mv.toNat < 44000 ∨ quenchOver s = false → exec (.quenchEnd mv) s = .next s) ∧
    (44000 ≤ mv.toNat → quenchOver s = true → ∃ u, exec (.quenchEnd mv) s = .next u ∧ u.pwr = { PwrSt.zero with store := s.pwr.store } ∧
      u.mem = [] ∧ u.ctxs = [] ∧ u.flash = s.flash ∧ u.fuse = s.fuse ∧ u.repairRec = s.repairRec))

/-- Rails, heat and idle states (R354 to R362): RAIL_FAULT, RAIL_REPOWER, RAIL_READ, THERMAL_TRIP, ZONE_OVER_TEMPERATURE,
POWER_LIMIT_NOT_MET, IDLE_ENTRY, IDLE_WAKE, EARLY_WAKE and PD03_IDLE_OFF. -/
def Obligations.RailsHeatAndIdleStates : Prop :=
  -- the Gaffer's readings
  (∀ (r : RailId) mv da pg s, (gafferDown s = true → exec (.railRead r mv da pg) s = .next s) ∧
    (gafferDown s = false → ∃ u, exec (.railRead r mv da pg) s = .next u ∧ rd u (rPWR_RAIL r) fPWR_RAIL_VOUT = mv.toNat ∧
      rd u (rPWR_RAIL r) fPWR_RAIL_IOUT = da.toNat ∧ rd u (rPWR_RAIL r) fPWR_RAIL_PG = (if pg then 1 else 0) ∧
      rd u (rPWR_RAIL r) fPWR_RAIL_FAULTS = rd s (rPWR_RAIL r) fPWR_RAIL_FAULTS ∧ (∀ q : RailId, q ≠ r → regGet u (rPWR_RAIL q) = regGet s (rPWR_RAIL q)) ∧
      u = { s with regs := u.regs })) ∧
  -- a fault counts only on a rail that should be on; VAON, VIB and a rail of PD08 Quench
  (∀ (r : RailId) word s, railUp s r = false → exec (.railFault r word) s = .next s) ∧
  (∀ (r : RailId) word s, railUp s r = true → r ∈ [19, 26, 16] → NoEarlier s 6 → ∃ u, exec (.railFault r word) s = .next u ∧ Quenched s u 6 ∧
    rd u (rPWR_RAIL r) fPWR_RAIL_FAULTS = min (rd s (rPWR_RAIL r) fPWR_RAIL_FAULTS + 1) 255) ∧
  -- any other faults the contexts that hold a unit on it and turns its domains off
  (∀ (r : RailId) word s, railUp s r = true → r ∉ [19, 26, 16] → gafferDown s = false → (r = 20 → ∀ c : CtxId, (getCtx s c).st ≠ .replay) → ∃ u, exec (.railFault r word) s = .next u ∧
    (∀ c : CtxId, holdsPlan (getCtx s c) = true → feeds r (getCtx s c) = true → purging (getCtx s c) = false → (getCtx u c).plan = .faulted) ∧
    rd u (rPWR_RAIL r) fPWR_RAIL_FAULTS = min (rd s (rPWR_RAIL r) fPWR_RAIL_FAULTS + 1) 255 ∧ rd u (rPWR_RAIL r) fPWR_RAIL_PG = 0 ∧
    tget (fun _ => 0) u.pwr.railOff r = s.now + 1 ∧ (∀ d ∈ railDomains r, (BitVec.ofNat 32 (rd u rPWR_DOMAIN fPWR_DOMAIN_ON)).getLsbD d = false) ∧
    rd u (rPWR_SEVT (rd s rPWR_SEVT_PTR fPWR_SEVT_PTR_WR % 64)) fPWR_SEVT_KIND = 8 ∧
    rd u (rPWR_SEVT (rd s rPWR_SEVT_PTR fPWR_SEVT_PTR_WR % 64)) fPWR_SEVT_EXTREME = r.val ∧
    -- a second one within an hour takes the rail out of service
    (tget (fun _ => 0) s.pwr.railAt r ≠ 0 → s.now + 1 < tget (fun _ => 0) s.pwr.railAt r + 4320000000000 → rd u (rPWR_RAIL r) fPWR_RAIL_OOS = 1) ∧
    (tget (fun _ => 0) s.pwr.railAt r = 0 → rd u (rPWR_RAIL r) fPWR_RAIL_OOS = rd s (rPWR_RAIL r) fPWR_RAIL_OOS) ∧
    (r ≠ 20 → r ≠ 21 → u.mem = s.mem) ∧ u.tiles = s.tiles) ∧
  -- power returns after 100 ms, a zone at its slowest passing step (step 4 where that passes)
  (∀ (r : RailId) s, tget (fun _ => 0) s.pwr.railOff r = 0 ∨ gafferDown s = true ∨ rd s (rPWR_RAIL r) fPWR_RAIL_OOS = 1 ∨ s.now + 1 < tget (fun _ => 0) s.pwr.railOff r + 120000000 →
    exec (.railRepower r) s = .next s) ∧
  (∀ (r : RailId) s, tget (fun _ => 0) s.pwr.railOff r ≠ 0 → gafferDown s = false → rd s (rPWR_RAIL r) fPWR_RAIL_OOS = 0 →
    tget (fun _ => 0) s.pwr.railOff r + 120000000 ≤ s.now + 1 → ∃ u, exec (.railRepower r) s = .next u ∧ rd u (rPWR_RAIL r) fPWR_RAIL_PG = 1 ∧
      tget (fun _ => 0) u.pwr.railOff r = 0 ∧ (∀ d ∈ railDomains r, (BitVec.ofNat 32 (rd u rPWR_DOMAIN fPWR_DOMAIN_ON)).getLsbD d = true) ∧
      (∀ z : ZoneId, z.val = r.val → zoneStep u z = slowestOk s z ∧ rd u (rCLK_ZONE_CTL z) fCLK_ZONE_CTL_STOPPED = 0 ∧
        (getZone u z).target = slowestOk s z ∧ (getZone u z).change = none ∧ (getZone u z).volt = voltOf s z (slowestOk s z)) ∧
      u.tiles = s.tiles ∧ (r ≠ 20 → r ≠ 21 → u.ctxs = s.ctxs ∧ u.mem = s.mem)) ∧
  -- thermal trip, and a zone too hot at its floor
  (∀ (t : BitVec 16) lp s, (t.toNat < (if lp then 105 else 115) → exec (.thermalTrip t lp) s = .next s) ∧
    ((if lp then 105 else 115) ≤ t.toNat → s.pwr.quenched = false → NoEarlier s 5 → ∃ u, exec (.thermalTrip t lp) s = .next u ∧ Quenched s u 5)) ∧
  (∀ (z : ZoneId) s, (getZone s z).hotSince = none ∨ (∃ t, (getZone s z).hotSince = some t ∧ s.now < t + 1200000) ∨ atFloor s z = false →
    exec (.zoneOverTemperature z) s = .next s) ∧
  (∀ (z : ZoneId) s t, (getZone s z).hotSince = some t → t + 1200000 ≤ s.now → atFloor s z = true → ∃ u, exec (.zoneOverTemperature z) s = .next u ∧
    (∀ c : CtxId, holdsPlan (getCtx s c) = true → inZone (getCtx s c) z = true → purging (getCtx s c) = false → (getCtx u c).plan = .faulted) ∧
    (∀ c : CtxId, holdsPlan (getCtx s c) && inZone (getCtx s c) z = false → getCtx u c = getCtx s c) ∧
    (zoneStep s z < slowestOk s z → zoneDeep s z = false → (getZone s z).change = none →
      (getZone u z).change = some .toStop ∧ (getZone u z).target = slowestOk s z) ∧
    (∀ w : ZoneId, w ≠ z → getZone u w = getZone s w) ∧ u = { s with ctxs := u.ctxs, zones := u.zones, canes := u.canes, faultHeld := u.faultHeld, flagAt := u.flagAt }) ∧
  -- the power limit not met for 100 ms is logged, and stops no plan
  (∀ s, s.pwr.overAt = none ∨ (∃ t, s.pwr.overAt = some t ∧ s.now < t + 120000000) ∨ (∃ z : ZoneId, zoneHeld s z = true ∧ atFloor s z = false) →
    exec .powerLimitNotMet s = .next s) ∧
  (∀ s t, s.pwr.overAt = some t → t + 120000000 ≤ s.now → (∀ z : ZoneId, zoneHeld s z = true → atFloor s z = true) → ∃ u, exec .powerLimitNotMet s = .next u ∧
    RecordSent s u 0 0 0x7007 (min (rd s rPWR_POWER fPWR_POWER_P_1MS / 1000) 0xFFFF) ∧ u.pwr = { s.pwr with overAt := some s.now } ∧
    u = { s with pwr := u.pwr, canes := u.canes, faultHeld := u.faultHeld, flagAt := u.flagAt }) ∧
  -- a unit with no event enters its deepest state; one with an event nearer than every gap, or that works, stays awake
  (∀ (u : UnitId) s, getIdle s u ≠ none ∨ s.pwr.quenched = true ∨ unitAwake s u = true ∨ (∀ r ∈ idleRows u, eventIn s u s.now (s.now + r.gap) = true) →
    exec (.idleEntry u) s = .next s) ∧
  (∀ (u : UnitId) s r, getIdle s u = none → s.pwr.quenched = false → unitAwake s u = false →
    (idleRows u).find? (fun r => !eventIn s u s.now (s.now + r.gap)) = some r → ∃ v, exec (.idleEntry u) s = .next v ∧
      rd v (rPWR_IDLE u) fPWR_IDLE_STATE = r.code ∧ rd v (rPWR_IDLE u) fPWR_IDLE_ENTRIES = min (rd s (rPWR_IDLE u) fPWR_IDLE_ENTRIES + 1) (2 ^ 32 - 1) ∧
      getIdle v u = some { since := s.now, ready := none } ∧ v = { s with regs := v.regs, idle := v.idle } ∧
      (u.val < 16 → 2 ≤ r.code → (BitVec.ofNat 32 (rd v rPWR_DOMAIN fPWR_DOMAIN_ON)).getLsbD (10 + u.val) = false ∧
        rd v (rPWR_RAIL u) fPWR_RAIL_PG = (if r.code = 3 then 0 else 1)) ∧
      (u.val < 16 → r.code < 2 → rd v rPWR_DOMAIN fPWR_DOMAIN_ON = rd s rPWR_DOMAIN fPWR_DOMAIN_ON)) ∧
  (∀ (u : UnitId) s, getIdle s u = none → s.pwr.quenched = false → unitAwake s u = false → (∀ b, eventIn s u s.now b = false) →
    ∃ v, exec (.idleEntry u) s = .next v ∧ rd v (rPWR_IDLE u) fPWR_IDLE_STATE = (if u.val < 16 then 3 else if u.val < 40 then 4 else 5)) ∧
  -- it wakes its exit time before its event, or at once for an open access; one that is late faults the contexts that hold it
  (∀ (u : UnitId) s, (∀ x, getIdle s u = some x → x.ready ≠ none ∨ eventIn s u (x.since + 1) (s.now + (idleRow s u).exit + 1) = false) →
    exec (.idleWake u) s = .next s) ∧
  (∀ (u : UnitId) s, (∀ x, getIdle s u = some x → x.ready ≠ none) → exec (.earlyWake u) s = .next s) ∧
  (∀ (u : UnitId) s x ready i, getIdle s u = some x → x.ready = none → ready = max s.now (x.since + (idleRow s u).entry) + (idleRow s u).exit →
    i = Instr.earlyWake u ∨ i = Instr.idleWake u ∧ eventIn s u (x.since + 1) (s.now + (idleRow s u).exit + 1) = true →
    ∃ v, exec i s = .next v ∧ getIdle v u = some { x with ready := some ready } ∧ v.regs = s.regs ∧ v.mem = s.mem ∧ v.tiles = s.tiles ∧
      (eventIn s u (x.since + 1) ready = false → v = { s with idle := v.idle }) ∧
      (eventIn s u (x.since + 1) ready = true → ∀ c ∈ unitCtxs s u, purging (getCtx s c) = false → (getCtx v c).plan = .faulted)) ∧
  -- the crypto engines' domain goes off after 1 s without work
  (∀ s, (s.now < s.boot.crypto + 1200000000 → exec .pd03IdleOff s = .next s) ∧
    (s.boot.crypto + 1200000000 ≤ s.now → ∃ u, exec .pd03IdleOff s = .next u ∧ u = { s with regs := u.regs } ∧
      ∀ d, d < 32 → (BitVec.ofNat 32 (rd u rPWR_DOMAIN fPWR_DOMAIN_ON)).getLsbD d =
        ((BitVec.ofNat 32 (rd s rPWR_DOMAIN fPWR_DOMAIN_ON)).getLsbD d && decide (d ≠ 3))))

/-! ### Boot and life cycle (chapter 16) -/

/-- Power-on and the boot phases (R25, R26, R369, R370, R372, R373, R375): POWER_ON, BOOT_PHASE_COMPLETE,
RECOVERY_BY_HOST_RESTART and TILE_SELF_TEST. -/
def Obligations.TheModuleBootsPhaseByPhase : Prop :=
  -- power-on: every register at its reset value but what the fuses, the Quench store and the strap hold
  (∀ s, ∃ u, exec .powerOn s = .next u ∧ u.mem = [] ∧ u.ctxs = [] ∧ u.tiles = [] ∧ u.links = [] ∧ u.now = State.reset.now ∧ u.cmds = [] ∧
    u.pwr = { PwrSt.zero with store := s.pwr.store } ∧ u.flash = s.flash ∧ u.fuse = s.fuse ∧ u.repairRec = s.repairRec ∧ u.hostMem = s.hostMem ∧
    rd u rSEC_LC fSEC_LC_STATE = lcOf s.fuse ∧ regGet u rPWR_QUENCH = regGet s rPWR_QUENCH ∧
    (∀ off, off ≠ rPWR_QUENCH → off ≠ rGAF_SERIAL_HASH → off ≠ rSEC_LC → off ≠ rSEC_FW → (∀ p, p < 272 → off ≠ rTIL_MAP p) → regGet u off = regReset off)) ∧
  -- a phase completes only while the module boots
  (∀ r s, bootMode s ≠ 1 ∨ dead s = true ∨ s.pwr.quenched = true → exec (.bootPhaseComplete r) s = .next s) ∧
  (∀ r s, bootMode s = 1 → dead s = false → s.pwr.quenched = false →
    (bootPhase s = 1 → ∃ u, exec (.bootPhaseComplete r) s = .next u ∧ bootPhase u = 2 ∧ rd u rCLK_ROOT fCLK_ROOT_LOCK = 1 ∧
      rd u rCLK_ROOT fCLK_ROOT_REF_OK = 1 ∧ u.mem = s.mem) ∧
    -- phase 2 brings up PD01 to PD03; without one of them the module is dead
    (bootPhase s = 2 → (hasAll r 14 = true → ∃ u, exec (.bootPhaseComplete r) s = .next u ∧ bootPhase u = 3 ∧
        rd u rPWR_DOMAIN fPWR_DOMAIN_ON = rd s rPWR_DOMAIN fPWR_DOMAIN_ON ||| 14 ∧ rd u (rPWR_RAIL 16) fPWR_RAIL_PG = 1) ∧
      (hasAll r 14 = false → ∃ u, exec (.bootPhaseComplete r) s = .next u ∧ dead u = true ∧ bootPhase u = 2 ∧ OutMsg.ibi ∈ u.outs)) ∧
    -- phase 3 verifies the image; a rejected one leaves recovery by host
    (bootPhase s = 3 → (fwReject s (flashImg s) true = none → ∃ u, exec (.bootPhaseComplete r) s = .next u ∧ bootPhase u = 4 ∧ bootMode u = 1 ∧
        u.boot.fwMeas = (flashImg s).meas ∧ u.flash = s.flash ∧ u.mem = s.mem) ∧
      (∀ d, fwReject s (flashImg s) true = some d → ∃ u, exec (.bootPhaseComplete r) s = .next u ∧ bootMode u = 3 ∧
        rd u rSEC_BOOT fSEC_BOOT_REJECT = d ∧ u.boot.alias_ = none ∧ u.flash = s.flash ∧ u.mem = s.mem)) ∧
    -- phase 4 maps logical tiles to the usable ones of each zone, counting upward
    (bootPhase s = 4 → ∃ u, exec (.bootPhaseComplete r) s = .next u ∧ bootPhase u = 5 ∧
      (∀ t : TileId, tget (fun _ => none) u.tileMap t = (zoneUsable s r.tilesBad (t.val / 16))[t.val % 16]?) ∧
      (∀ p : PTileId, rd u (rTIL_MAP p) fTIL_MAP_TEST_FAIL = (if r.tilesBad.getLsbD p then 1 else 0) ∧ rd u (rTIL_MAP p) fTIL_MAP_ZONE = p.val / 17) ∧
      -- each zone runs at its slowest passing step
      (∀ z : ZoneId, (∀ v, r.xing[z.val]? = some v → regGet u (rCLK_XING z) = BitVec.setWidth 64 v) ∧ zoneStep u z = slowestOk u z ∧ (getZone u z).volt = voltOf s z (slowestOk u z) ∧
        (∀ n, n < 5 → (stepOk u z n = true → n ≤ slowestOk u z) ∧ (n = slowestOk u z → stepOk u z n = true ∨ n = 4 ∧ ∀ m, m < 5 → stepOk u z m = false))) ∧ u.tiles = s.tiles) ∧
    (bootPhase s = 5 → ∃ u, exec (.bootPhaseComplete r) s = .next u ∧ bootPhase u = 6 ∧ rd u rMEM_LP_STATUS fMEM_LP_STATUS_GROUP_UP = groupsUp r.chanBad ∧
      rd u rMEM_LP_STATUS fMEM_LP_STATUS_CH_FAIL = chanFails r.chanBad ∧
      -- a channel that trained has new results, four free words, in the training store and in its controller
      (∀ c, c < 128 → tget (fun _ => 0) u.trainStore c = if r.chanBad.getLsbD c then tget (fun _ => 0) s.trainStore c else s.fresh + 4 * c + 1) ∧
      u.lpTrain = u.trainStore ∧ u.ppr = [] ∧ u.mem = s.mem) ∧
    (bootPhase s = 6 → ∃ u, exec (.bootPhaseComplete r) s = .next u ∧ bootPhase u = 7 ∧ (∀ a, memByte u a = 0) ∧ u.flaw = [] ∧ u.poison = [] ∧ u.ctxs = s.ctxs) ∧
    -- phase 7 ends the boot, logs the unread Quench records and burns the fuses
    (bootPhase s = 7 → ∃ u, exec (.bootPhaseComplete r) s = .next u ∧ bootMode u = 0 ∧ bootPhase u = 0 ∧ (∀ q ∈ u.pwr.store, q.unread = false) ∧
      u.pwr.store.map (·.cause) = s.pwr.store.map (·.cause) ∧ u.fuse.svn = min (max s.fuse.svn (rd s rSEC_FW fSEC_FW_SVN)) 64 ∧
      rd u rHST_LINK fHST_LINK_UP = (if r.flit then 1 else 0) ∧ u.mem = s.mem)) ∧
  -- recovery by host restarts from phase 2 once the image is in the flash
  (∀ s, s.boot.restart = none ∨ (∃ t, s.boot.restart = some t ∧ s.now < t) ∨ bootMode s ≠ 3 ∨ s.pwr.quenched = true → exec .recoveryByHostRestart s = .next s) ∧
  (∀ s t, s.boot.restart = some t → t ≤ s.now → bootMode s = 3 → s.pwr.quenched = false → ∃ u, exec .recoveryByHostRestart s = .next u ∧
    bootMode u = 1 ∧ bootPhase u = 2 ∧ u.boot = { s.boot with restart := none, ms := 0 } ∧ u = { s with regs := u.regs, boot := u.boot, sbd := u.sbd, outs := u.outs }) ∧
  -- a tile that fails a test between plans is pending failed, in its register and in the repair record
  (∀ (p : PTileId) s, exec (.tileSelfTest p true) s = .next s) ∧
  (∀ (p : PTileId) s, (∀ i, i < 16 → physOf s (16 * (p.val / 17) + i) = p.val → ∀ c : CtxId, holdsPlan (getCtx s c) = true →
      (planTiles (getCtx s c)).getLsbD (16 * (p.val / 17) + i) = false) →
    ∃ u, exec (.tileSelfTest p false) s = .next u ∧ rd u (rTIL_MAP p) fTIL_MAP_PEND_FAIL = 1 ∧ tget (fun _ => false) u.repairRec p = true ∧
      rd u (rTIL_MAP p) fTIL_MAP_MAPPED = rd s (rTIL_MAP p) fTIL_MAP_MAPPED ∧ u.tileMap = s.tileMap ∧ u = { s with regs := u.regs, repairRec := u.repairRec }) ∧
  (∀ (p : PTileId) s i (c : CtxId), i < 16 → physOf s (16 * (p.val / 17) + i) = p.val → holdsPlan (getCtx s c) = true →
    (planTiles (getCtx s c)).getLsbD (16 * (p.val / 17) + i) = true → exec (.tileSelfTest p false) s = .next s)

/-! ### The whole block -/

/-- The state after reset: every register at its reset value, no command waiting, memory that lists nothing and is canonical, every
context CLOSED, every link DISABLED and every tile free. Values the spec does not give are those of logs 3, 5 and 8. -/
def Obligations.ResetState : Prop :=
  State.reset.memOk ∧ State.reset.pending = [] ∧ (∀ off, regGet State.reset off = regReset off) ∧ (∀ a, memByte State.reset a = 0) ∧
  (∀ c : CtxId, getCtx State.reset c = Ctx.zero ∧ (getCtx State.reset c).st = .closed) ∧ (∀ l : LinkId, lnkState State.reset l = 0) ∧
  (∀ t : TileId, (getTile State.reset t).own = none) ∧ rd State.reset rPWR_LIMIT fPWR_LIMIT_LIMIT = 2400 ∧
  rd State.reset rPWR_DOMAIN fPWR_DOMAIN_ON = 1 ∧ bootMode State.reset = 1 ∧ bootPhase State.reset = 1

/-- Every step keeps memory canonical: addresses strictly rising, and no byte listed that holds the wiped value 0. -/
def Obligations.EveryStepKeepsMemoryCanonical : Prop := ∀ s t : State, s.memOk → step s = .next t → t.memOk
end

