-- ==== Sys2Proof/Laws/State.lean ====
section
/-! SUPPORT. What each update of the state leaves: one lemma per field per update. -/
namespace Sys2Proof
namespace Machine

@[simp] theorem regSet_pending (s : State) (o : Nat) (w : W64) : (regSet s o w).pending = s.pending := rfl
@[simp] theorem regSet_fresh (s : State) (o : Nat) (w : W64) : (regSet s o w).fresh = s.fresh := rfl
@[simp] theorem regSet_now (s : State) (o : Nat) (w : W64) : (regSet s o w).now = s.now := rfl
@[simp] theorem regSet_mem (s : State) (o : Nat) (w : W64) : (regSet s o w).mem = s.mem := rfl
@[simp] theorem regSet_flaw (s : State) (o : Nat) (w : W64) : (regSet s o w).flaw = s.flaw := rfl
@[simp] theorem regSet_poison (s : State) (o : Nat) (w : W64) : (regSet s o w).poison = s.poison := rfl
@[simp] theorem regSet_tiles (s : State) (o : Nat) (w : W64) : (regSet s o w).tiles = s.tiles := rfl
@[simp] theorem regSet_chip (s : State) (o : Nat) (w : W64) : (regSet s o w).chip = s.chip := rfl
@[simp] theorem regSet_syncNet (s : State) (o : Nat) (w : W64) : (regSet s o w).syncNet = s.syncNet := rfl
@[simp] theorem regSet_flight (s : State) (o : Nat) (w : W64) : (regSet s o w).flight = s.flight := rfl
@[simp] theorem regSet_chanW (s : State) (o : Nat) (w : W64) : (regSet s o w).chanW = s.chanW := rfl
@[simp] theorem regSet_deliv (s : State) (o : Nat) (w : W64) : (regSet s o w).deliv = s.deliv := rfl
@[simp] theorem regSet_ctxs (s : State) (o : Nat) (w : W64) : (regSet s o w).ctxs = s.ctxs := rfl
@[simp] theorem regSet_engines (s : State) (o : Nat) (w : W64) : (regSet s o w).engines = s.engines := rfl
@[simp] theorem regSet_refreshP (s : State) (o : Nat) (w : W64) : (regSet s o w).refreshP = s.refreshP := rfl
@[simp] theorem regSet_rel (s : State) (o : Nat) (w : W64) : (regSet s o w).rel = s.rel := rfl
@[simp] theorem regSet_abuf (s : State) (o : Nat) (w : W64) : (regSet s o w).abuf = s.abuf := rfl
@[simp] theorem regSet_canes (s : State) (o : Nat) (w : W64) : (regSet s o w).canes = s.canes := rfl
@[simp] theorem regSet_faultHeld (s : State) (o : Nat) (w : W64) : (regSet s o w).faultHeld = s.faultHeld := rfl
@[simp] theorem regSet_recNext (s : State) (o : Nat) (w : W64) : (regSet s o w).recNext = s.recNext := rfl
@[simp] theorem regSet_tileMap (s : State) (o : Nat) (w : W64) : (regSet s o w).tileMap = s.tileMap := rfl
@[simp] theorem regSet_repairRec (s : State) (o : Nat) (w : W64) : (regSet s o w).repairRec = s.repairRec := rfl
@[simp] theorem regSet_zones (s : State) (o : Nat) (w : W64) : (regSet s o w).zones = s.zones := rfl
@[simp] theorem regSet_foldB (s : State) (o : Nat) (w : W64) : (regSet s o w).foldB = s.foldB := rfl
@[simp] theorem regSet_links (s : State) (o : Nat) (w : W64) : (regSet s o w).links = s.links := rfl
@[simp] theorem regSet_lclk (s : State) (o : Nat) (w : W64) : (regSet s o w).lclk = s.lclk := rfl
@[simp] theorem regSet_recov (s : State) (o : Nat) (w : W64) : (regSet s o w).recov = s.recov := rfl
@[simp] theorem regSet_hot (s : State) (o : Nat) (w : W64) : (regSet s o w).hot = s.hot := rfl
@[simp] theorem regSet_reqq (s : State) (o : Nat) (w : W64) : (regSet s o w).reqq = s.reqq := rfl
@[simp] theorem regSet_outst (s : State) (o : Nat) (w : W64) : (regSet s o w).outst = s.outst := rfl
@[simp] theorem regSet_inb (s : State) (o : Nat) (w : W64) : (regSet s o w).inb = s.inb := rfl
@[simp] theorem regSet_niOut (s : State) (o : Nat) (w : W64) : (regSet s o w).niOut = s.niOut := rfl
@[simp] theorem regSet_respW (s : State) (o : Nat) (w : W64) : (regSet s o w).respW = s.respW := rfl
@[simp] theorem regSet_niKey (s : State) (o : Nat) (w : W64) : (regSet s o w).niKey = s.niKey := rfl
@[simp] theorem regSet_rankC (s : State) (o : Nat) (w : W64) : (regSet s o w).rankC = s.rankC := rfl
@[simp] theorem regSet_routeC (s : State) (o : Nat) (w : W64) : (regSet s o w).routeC = s.routeC := rfl
@[simp] theorem regSet_retired (s : State) (o : Nat) (w : W64) : (regSet s o w).retired = s.retired := rfl
@[simp] theorem regSet_rateWin (s : State) (o : Nat) (w : W64) : (regSet s o w).rateWin = s.rateWin := rfl
@[simp] theorem regSet_echoed (s : State) (o : Nat) (w : W64) : (regSet s o w).echoed = s.echoed := rfl
@[simp] theorem regSet_tim (s : State) (o : Nat) (w : W64) : (regSet s o w).tim = s.tim := rfl
@[simp] theorem regSet_shadow (s : State) (o : Nat) (w : W64) : (regSet s o w).shadow = s.shadow := rfl
@[simp] theorem regSet_snaps (s : State) (o : Nat) (w : W64) : (regSet s o w).snaps = s.snaps := rfl
@[simp] theorem regSet_lpUsed (s : State) (o : Nat) (w : W64) : (regSet s o w).lpUsed = s.lpUsed := rfl
@[simp] theorem regSet_lpPlan (s : State) (o : Nat) (w : W64) : (regSet s o w).lpPlan = s.lpPlan := rfl
@[simp] theorem regSet_lpOpen (s : State) (o : Nat) (w : W64) : (regSet s o w).lpOpen = s.lpOpen := rfl
@[simp] theorem regSet_ceNext (s : State) (o : Nat) (w : W64) : (regSet s o w).ceNext = s.ceNext := rfl
@[simp] theorem regSet_rowErr (s : State) (o : Nat) (w : W64) : (regSet s o w).rowErr = s.rowErr := rfl
@[simp] theorem regSet_ppr (s : State) (o : Nat) (w : W64) : (regSet s o w).ppr = s.ppr := rfl
@[simp] theorem regSet_refWin (s : State) (o : Nat) (w : W64) : (regSet s o w).refWin = s.refWin := rfl
@[simp] theorem regSet_scrubAt (s : State) (o : Nat) (w : W64) : (regSet s o w).scrubAt = s.scrubAt := rfl
@[simp] theorem regSet_lnkPlan (s : State) (o : Nat) (w : W64) : (regSet s o w).lnkPlan = s.lnkPlan := rfl
@[simp] theorem regSet_lnkOpen (s : State) (o : Nat) (w : W64) : (regSet s o w).lnkOpen = s.lnkOpen := rfl
@[simp] theorem regSet_congWin (s : State) (o : Nat) (w : W64) : (regSet s o w).congWin = s.congWin := rfl
@[simp] theorem regSet_recPhase (s : State) (o : Nat) (w : W64) : (regSet s o w).recPhase = s.recPhase := rfl
@[simp] theorem regSet_recOpen (s : State) (o : Nat) (w : W64) : (regSet s o w).recOpen = s.recOpen := rfl
@[simp] theorem regSet_protoMajor (s : State) (o : Nat) (w : W64) : (regSet s o w).protoMajor = s.protoMajor := rfl
@[simp] theorem regSet_protoMinor (s : State) (o : Nat) (w : W64) : (regSet s o w).protoMinor = s.protoMinor := rfl
@[simp] theorem regSet_hostMem (s : State) (o : Nat) (w : W64) : (regSet s o w).hostMem = s.hostMem := rfl
@[simp] theorem regSet_winMem (s : State) (o : Nat) (w : W64) : (regSet s o w).winMem = s.winMem := rfl
@[simp] theorem regSet_winVf (s : State) (o : Nat) (w : W64) : (regSet s o w).winVf = s.winVf := rfl
@[simp] theorem regSet_cmds (s : State) (o : Nat) (w : W64) : (regSet s o w).cmds = s.cmds := rfl
@[simp] theorem regSet_outs (s : State) (o : Nat) (w : W64) : (regSet s o w).outs = s.outs := rfl
@[simp] theorem regSet_msix (s : State) (o : Nat) (w : W64) : (regSet s o w).msix = s.msix := rfl
@[simp] theorem regSet_vfApt (s : State) (o : Nat) (w : W64) : (regSet s o w).vfApt = s.vfApt := rfl
@[simp] theorem regSet_ideKeys (s : State) (o : Nat) (w : W64) : (regSet s o w).ideKeys = s.ideKeys := rfl
@[simp] theorem regSet_ideBad (s : State) (o : Nat) (w : W64) : (regSet s o w).ideBad = s.ideBad := rfl
@[simp] theorem regSet_spdmSt (s : State) (o : Nat) (w : W64) : (regSet s o w).spdmSt = s.spdmSt := rfl
@[simp] theorem regSet_sbd (s : State) (o : Nat) (w : W64) : (regSet s o w).sbd = s.sbd := rfl
@[simp] theorem regSet_jtag (s : State) (o : Nat) (w : W64) : (regSet s o w).jtag = s.jtag := rfl
@[simp] theorem regSet_twin (s : State) (o : Nat) (w : W64) : (regSet s o w).twin = s.twin := rfl
@[simp] theorem regSet_hang (s : State) (o : Nat) (w : W64) : (regSet s o w).hang = s.hang := rfl
@[simp] theorem regSet_recAt (s : State) (o : Nat) (w : W64) : (regSet s o w).recAt = s.recAt := rfl
@[simp] theorem regSet_recStep (s : State) (o : Nat) (w : W64) : (regSet s o w).recStep = s.recStep := rfl
@[simp] theorem regSet_pwr (s : State) (o : Nat) (w : W64) : (regSet s o w).pwr = s.pwr := rfl
@[simp] theorem regSet_idle (s : State) (o : Nat) (w : W64) : (regSet s o w).idle = s.idle := rfl
@[simp] theorem regSet_flash (s : State) (o : Nat) (w : W64) : (regSet s o w).flash = s.flash := rfl
@[simp] theorem regSet_fuse (s : State) (o : Nat) (w : W64) : (regSet s o w).fuse = s.fuse := rfl
@[simp] theorem regSet_boot (s : State) (o : Nat) (w : W64) : (regSet s o w).boot = s.boot := rfl
@[simp] theorem regSet_spill (s : State) (o : Nat) (w : W64) : (regSet s o w).spill = s.spill := rfl
@[simp] theorem regSet_gathered (s : State) (o : Nat) (w : W64) : (regSet s o w).gathered = s.gathered := rfl
@[simp] theorem regSet_hostAcc (s : State) (o : Nat) (w : W64) : (regSet s o w).hostAcc = s.hostAcc := rfl
@[simp] theorem regSet_rankQ (s : State) (o : Nat) (w : W64) : (regSet s o w).rankQ = s.rankQ := rfl
@[simp] theorem regSet_flagAt (s : State) (o : Nat) (w : W64) : (regSet s o w).flagAt = s.flagAt := rfl
@[simp] theorem regSet_shadowAt (s : State) (o : Nat) (w : W64) : (regSet s o w).shadowAt = s.shadowAt := rfl
@[simp] theorem regSet_trainStore (s : State) (o : Nat) (w : W64) : (regSet s o w).trainStore = s.trainStore := rfl
@[simp] theorem regSet_lpTrain (s : State) (o : Nat) (w : W64) : (regSet s o w).lpTrain = s.lpTrain := rfl

@[simp] theorem wr_pending (s : State) (o : Nat) (f : Fld) (v : Nat) : (wr s o f v).pending = s.pending := rfl
@[simp] theorem wr_fresh (s : State) (o : Nat) (f : Fld) (v : Nat) : (wr s o f v).fresh = s.fresh := rfl
@[simp] theorem wr_now (s : State) (o : Nat) (f : Fld) (v : Nat) : (wr s o f v).now = s.now := rfl
@[simp] theorem wr_mem (s : State) (o : Nat) (f : Fld) (v : Nat) : (wr s o f v).mem = s.mem := rfl
@[simp] theorem wr_flaw (s : State) (o : Nat) (f : Fld) (v : Nat) : (wr s o f v).flaw = s.flaw := rfl
@[simp] theorem wr_poison (s : State) (o : Nat) (f : Fld) (v : Nat) : (wr s o f v).poison = s.poison := rfl
@[simp] theorem wr_tiles (s : State) (o : Nat) (f : Fld) (v : Nat) : (wr s o f v).tiles = s.tiles := rfl
@[simp] theorem wr_chip (s : State) (o : Nat) (f : Fld) (v : Nat) : (wr s o f v).chip = s.chip := rfl
@[simp] theorem wr_syncNet (s : State) (o : Nat) (f : Fld) (v : Nat) : (wr s o f v).syncNet = s.syncNet := rfl
@[simp] theorem wr_flight (s : State) (o : Nat) (f : Fld) (v : Nat) : (wr s o f v).flight = s.flight := rfl
@[simp] theorem wr_chanW (s : State) (o : Nat) (f : Fld) (v : Nat) : (wr s o f v).chanW = s.chanW := rfl
@[simp] theorem wr_deliv (s : State) (o : Nat) (f : Fld) (v : Nat) : (wr s o f v).deliv = s.deliv := rfl
@[simp] theorem wr_ctxs (s : State) (o : Nat) (f : Fld) (v : Nat) : (wr s o f v).ctxs = s.ctxs := rfl
@[simp] theorem wr_engines (s : State) (o : Nat) (f : Fld) (v : Nat) : (wr s o f v).engines = s.engines := rfl
@[simp] theorem wr_refreshP (s : State) (o : Nat) (f : Fld) (v : Nat) : (wr s o f v).refreshP = s.refreshP := rfl
@[simp] theorem wr_rel (s : State) (o : Nat) (f : Fld) (v : Nat) : (wr s o f v).rel = s.rel := rfl
@[simp] theorem wr_abuf (s : State) (o : Nat) (f : Fld) (v : Nat) : (wr s o f v).abuf = s.abuf := rfl
@[simp] theorem wr_canes (s : State) (o : Nat) (f : Fld) (v : Nat) : (wr s o f v).canes = s.canes := rfl
@[simp] theorem wr_faultHeld (s : State) (o : Nat) (f : Fld) (v : Nat) : (wr s o f v).faultHeld = s.faultHeld := rfl
@[simp] theorem wr_recNext (s : State) (o : Nat) (f : Fld) (v : Nat) : (wr s o f v).recNext = s.recNext := rfl
@[simp] theorem wr_tileMap (s : State) (o : Nat) (f : Fld) (v : Nat) : (wr s o f v).tileMap = s.tileMap := rfl
@[simp] theorem wr_repairRec (s : State) (o : Nat) (f : Fld) (v : Nat) : (wr s o f v).repairRec = s.repairRec := rfl
@[simp] theorem wr_zones (s : State) (o : Nat) (f : Fld) (v : Nat) : (wr s o f v).zones = s.zones := rfl
@[simp] theorem wr_foldB (s : State) (o : Nat) (f : Fld) (v : Nat) : (wr s o f v).foldB = s.foldB := rfl
@[simp] theorem wr_links (s : State) (o : Nat) (f : Fld) (v : Nat) : (wr s o f v).links = s.links := rfl
@[simp] theorem wr_lclk (s : State) (o : Nat) (f : Fld) (v : Nat) : (wr s o f v).lclk = s.lclk := rfl
@[simp] theorem wr_recov (s : State) (o : Nat) (f : Fld) (v : Nat) : (wr s o f v).recov = s.recov := rfl
@[simp] theorem wr_hot (s : State) (o : Nat) (f : Fld) (v : Nat) : (wr s o f v).hot = s.hot := rfl
@[simp] theorem wr_reqq (s : State) (o : Nat) (f : Fld) (v : Nat) : (wr s o f v).reqq = s.reqq := rfl
@[simp] theorem wr_outst (s : State) (o : Nat) (f : Fld) (v : Nat) : (wr s o f v).outst = s.outst := rfl
@[simp] theorem wr_inb (s : State) (o : Nat) (f : Fld) (v : Nat) : (wr s o f v).inb = s.inb := rfl
@[simp] theorem wr_niOut (s : State) (o : Nat) (f : Fld) (v : Nat) : (wr s o f v).niOut = s.niOut := rfl
@[simp] theorem wr_respW (s : State) (o : Nat) (f : Fld) (v : Nat) : (wr s o f v).respW = s.respW := rfl
@[simp] theorem wr_niKey (s : State) (o : Nat) (f : Fld) (v : Nat) : (wr s o f v).niKey = s.niKey := rfl
@[simp] theorem wr_rankC (s : State) (o : Nat) (f : Fld) (v : Nat) : (wr s o f v).rankC = s.rankC := rfl
@[simp] theorem wr_routeC (s : State) (o : Nat) (f : Fld) (v : Nat) : (wr s o f v).routeC = s.routeC := rfl
@[simp] theorem wr_retired (s : State) (o : Nat) (f : Fld) (v : Nat) : (wr s o f v).retired = s.retired := rfl
@[simp] theorem wr_rateWin (s : State) (o : Nat) (f : Fld) (v : Nat) : (wr s o f v).rateWin = s.rateWin := rfl
@[simp] theorem wr_echoed (s : State) (o : Nat) (f : Fld) (v : Nat) : (wr s o f v).echoed = s.echoed := rfl
@[simp] theorem wr_tim (s : State) (o : Nat) (f : Fld) (v : Nat) : (wr s o f v).tim = s.tim := rfl
@[simp] theorem wr_shadow (s : State) (o : Nat) (f : Fld) (v : Nat) : (wr s o f v).shadow = s.shadow := rfl
@[simp] theorem wr_snaps (s : State) (o : Nat) (f : Fld) (v : Nat) : (wr s o f v).snaps = s.snaps := rfl
@[simp] theorem wr_lpUsed (s : State) (o : Nat) (f : Fld) (v : Nat) : (wr s o f v).lpUsed = s.lpUsed := rfl
@[simp] theorem wr_lpPlan (s : State) (o : Nat) (f : Fld) (v : Nat) : (wr s o f v).lpPlan = s.lpPlan := rfl
@[simp] theorem wr_lpOpen (s : State) (o : Nat) (f : Fld) (v : Nat) : (wr s o f v).lpOpen = s.lpOpen := rfl
@[simp] theorem wr_ceNext (s : State) (o : Nat) (f : Fld) (v : Nat) : (wr s o f v).ceNext = s.ceNext := rfl
@[simp] theorem wr_rowErr (s : State) (o : Nat) (f : Fld) (v : Nat) : (wr s o f v).rowErr = s.rowErr := rfl
@[simp] theorem wr_ppr (s : State) (o : Nat) (f : Fld) (v : Nat) : (wr s o f v).ppr = s.ppr := rfl
@[simp] theorem wr_refWin (s : State) (o : Nat) (f : Fld) (v : Nat) : (wr s o f v).refWin = s.refWin := rfl
@[simp] theorem wr_scrubAt (s : State) (o : Nat) (f : Fld) (v : Nat) : (wr s o f v).scrubAt = s.scrubAt := rfl
@[simp] theorem wr_lnkPlan (s : State) (o : Nat) (f : Fld) (v : Nat) : (wr s o f v).lnkPlan = s.lnkPlan := rfl
@[simp] theorem wr_lnkOpen (s : State) (o : Nat) (f : Fld) (v : Nat) : (wr s o f v).lnkOpen = s.lnkOpen := rfl
@[simp] theorem wr_congWin (s : State) (o : Nat) (f : Fld) (v : Nat) : (wr s o f v).congWin = s.congWin := rfl
@[simp] theorem wr_recPhase (s : State) (o : Nat) (f : Fld) (v : Nat) : (wr s o f v).recPhase = s.recPhase := rfl
@[simp] theorem wr_recOpen (s : State) (o : Nat) (f : Fld) (v : Nat) : (wr s o f v).recOpen = s.recOpen := rfl
@[simp] theorem wr_protoMajor (s : State) (o : Nat) (f : Fld) (v : Nat) : (wr s o f v).protoMajor = s.protoMajor := rfl
@[simp] theorem wr_protoMinor (s : State) (o : Nat) (f : Fld) (v : Nat) : (wr s o f v).protoMinor = s.protoMinor := rfl
@[simp] theorem wr_hostMem (s : State) (o : Nat) (f : Fld) (v : Nat) : (wr s o f v).hostMem = s.hostMem := rfl
@[simp] theorem wr_winMem (s : State) (o : Nat) (f : Fld) (v : Nat) : (wr s o f v).winMem = s.winMem := rfl
@[simp] theorem wr_winVf (s : State) (o : Nat) (f : Fld) (v : Nat) : (wr s o f v).winVf = s.winVf := rfl
@[simp] theorem wr_cmds (s : State) (o : Nat) (f : Fld) (v : Nat) : (wr s o f v).cmds = s.cmds := rfl
@[simp] theorem wr_outs (s : State) (o : Nat) (f : Fld) (v : Nat) : (wr s o f v).outs = s.outs := rfl
@[simp] theorem wr_msix (s : State) (o : Nat) (f : Fld) (v : Nat) : (wr s o f v).msix = s.msix := rfl
@[simp] theorem wr_vfApt (s : State) (o : Nat) (f : Fld) (v : Nat) : (wr s o f v).vfApt = s.vfApt := rfl
@[simp] theorem wr_ideKeys (s : State) (o : Nat) (f : Fld) (v : Nat) : (wr s o f v).ideKeys = s.ideKeys := rfl
@[simp] theorem wr_ideBad (s : State) (o : Nat) (f : Fld) (v : Nat) : (wr s o f v).ideBad = s.ideBad := rfl
@[simp] theorem wr_spdmSt (s : State) (o : Nat) (f : Fld) (v : Nat) : (wr s o f v).spdmSt = s.spdmSt := rfl
@[simp] theorem wr_sbd (s : State) (o : Nat) (f : Fld) (v : Nat) : (wr s o f v).sbd = s.sbd := rfl
@[simp] theorem wr_jtag (s : State) (o : Nat) (f : Fld) (v : Nat) : (wr s o f v).jtag = s.jtag := rfl
@[simp] theorem wr_twin (s : State) (o : Nat) (f : Fld) (v : Nat) : (wr s o f v).twin = s.twin := rfl
@[simp] theorem wr_hang (s : State) (o : Nat) (f : Fld) (v : Nat) : (wr s o f v).hang = s.hang := rfl
@[simp] theorem wr_recAt (s : State) (o : Nat) (f : Fld) (v : Nat) : (wr s o f v).recAt = s.recAt := rfl
@[simp] theorem wr_recStep (s : State) (o : Nat) (f : Fld) (v : Nat) : (wr s o f v).recStep = s.recStep := rfl
@[simp] theorem wr_pwr (s : State) (o : Nat) (f : Fld) (v : Nat) : (wr s o f v).pwr = s.pwr := rfl
@[simp] theorem wr_idle (s : State) (o : Nat) (f : Fld) (v : Nat) : (wr s o f v).idle = s.idle := rfl
@[simp] theorem wr_flash (s : State) (o : Nat) (f : Fld) (v : Nat) : (wr s o f v).flash = s.flash := rfl
@[simp] theorem wr_fuse (s : State) (o : Nat) (f : Fld) (v : Nat) : (wr s o f v).fuse = s.fuse := rfl
@[simp] theorem wr_boot (s : State) (o : Nat) (f : Fld) (v : Nat) : (wr s o f v).boot = s.boot := rfl
@[simp] theorem wr_spill (s : State) (o : Nat) (f : Fld) (v : Nat) : (wr s o f v).spill = s.spill := rfl
@[simp] theorem wr_gathered (s : State) (o : Nat) (f : Fld) (v : Nat) : (wr s o f v).gathered = s.gathered := rfl
@[simp] theorem wr_hostAcc (s : State) (o : Nat) (f : Fld) (v : Nat) : (wr s o f v).hostAcc = s.hostAcc := rfl
@[simp] theorem wr_rankQ (s : State) (o : Nat) (f : Fld) (v : Nat) : (wr s o f v).rankQ = s.rankQ := rfl
@[simp] theorem wr_flagAt (s : State) (o : Nat) (f : Fld) (v : Nat) : (wr s o f v).flagAt = s.flagAt := rfl
@[simp] theorem wr_shadowAt (s : State) (o : Nat) (f : Fld) (v : Nat) : (wr s o f v).shadowAt = s.shadowAt := rfl
@[simp] theorem wr_trainStore (s : State) (o : Nat) (f : Fld) (v : Nat) : (wr s o f v).trainStore = s.trainStore := rfl
@[simp] theorem wr_lpTrain (s : State) (o : Nat) (f : Fld) (v : Nat) : (wr s o f v).lpTrain = s.lpTrain := rfl

@[simp] theorem bumpBy_pending (s : State) (o : Nat) (f : Fld) (n : Nat) : (bumpBy s o f n).pending = s.pending := rfl
@[simp] theorem bumpBy_fresh (s : State) (o : Nat) (f : Fld) (n : Nat) : (bumpBy s o f n).fresh = s.fresh := rfl
@[simp] theorem bumpBy_now (s : State) (o : Nat) (f : Fld) (n : Nat) : (bumpBy s o f n).now = s.now := rfl
@[simp] theorem bumpBy_mem (s : State) (o : Nat) (f : Fld) (n : Nat) : (bumpBy s o f n).mem = s.mem := rfl
@[simp] theorem bumpBy_flaw (s : State) (o : Nat) (f : Fld) (n : Nat) : (bumpBy s o f n).flaw = s.flaw := rfl
@[simp] theorem bumpBy_poison (s : State) (o : Nat) (f : Fld) (n : Nat) : (bumpBy s o f n).poison = s.poison := rfl
@[simp] theorem bumpBy_tiles (s : State) (o : Nat) (f : Fld) (n : Nat) : (bumpBy s o f n).tiles = s.tiles := rfl
@[simp] theorem bumpBy_chip (s : State) (o : Nat) (f : Fld) (n : Nat) : (bumpBy s o f n).chip = s.chip := rfl
@[simp] theorem bumpBy_syncNet (s : State) (o : Nat) (f : Fld) (n : Nat) : (bumpBy s o f n).syncNet = s.syncNet := rfl
@[simp] theorem bumpBy_flight (s : State) (o : Nat) (f : Fld) (n : Nat) : (bumpBy s o f n).flight = s.flight := rfl
@[simp] theorem bumpBy_chanW (s : State) (o : Nat) (f : Fld) (n : Nat) : (bumpBy s o f n).chanW = s.chanW := rfl
@[simp] theorem bumpBy_deliv (s : State) (o : Nat) (f : Fld) (n : Nat) : (bumpBy s o f n).deliv = s.deliv := rfl
@[simp] theorem bumpBy_ctxs (s : State) (o : Nat) (f : Fld) (n : Nat) : (bumpBy s o f n).ctxs = s.ctxs := rfl
@[simp] theorem bumpBy_engines (s : State) (o : Nat) (f : Fld) (n : Nat) : (bumpBy s o f n).engines = s.engines := rfl
@[simp] theorem bumpBy_refreshP (s : State) (o : Nat) (f : Fld) (n : Nat) : (bumpBy s o f n).refreshP = s.refreshP := rfl
@[simp] theorem bumpBy_rel (s : State) (o : Nat) (f : Fld) (n : Nat) : (bumpBy s o f n).rel = s.rel := rfl
@[simp] theorem bumpBy_abuf (s : State) (o : Nat) (f : Fld) (n : Nat) : (bumpBy s o f n).abuf = s.abuf := rfl
@[simp] theorem bumpBy_canes (s : State) (o : Nat) (f : Fld) (n : Nat) : (bumpBy s o f n).canes = s.canes := rfl
@[simp] theorem bumpBy_faultHeld (s : State) (o : Nat) (f : Fld) (n : Nat) : (bumpBy s o f n).faultHeld = s.faultHeld := rfl
@[simp] theorem bumpBy_recNext (s : State) (o : Nat) (f : Fld) (n : Nat) : (bumpBy s o f n).recNext = s.recNext := rfl
@[simp] theorem bumpBy_tileMap (s : State) (o : Nat) (f : Fld) (n : Nat) : (bumpBy s o f n).tileMap = s.tileMap := rfl
@[simp] theorem bumpBy_repairRec (s : State) (o : Nat) (f : Fld) (n : Nat) : (bumpBy s o f n).repairRec = s.repairRec := rfl
@[simp] theorem bumpBy_zones (s : State) (o : Nat) (f : Fld) (n : Nat) : (bumpBy s o f n).zones = s.zones := rfl
@[simp] theorem bumpBy_foldB (s : State) (o : Nat) (f : Fld) (n : Nat) : (bumpBy s o f n).foldB = s.foldB := rfl
@[simp] theorem bumpBy_links (s : State) (o : Nat) (f : Fld) (n : Nat) : (bumpBy s o f n).links = s.links := rfl
@[simp] theorem bumpBy_lclk (s : State) (o : Nat) (f : Fld) (n : Nat) : (bumpBy s o f n).lclk = s.lclk := rfl
@[simp] theorem bumpBy_recov (s : State) (o : Nat) (f : Fld) (n : Nat) : (bumpBy s o f n).recov = s.recov := rfl
@[simp] theorem bumpBy_hot (s : State) (o : Nat) (f : Fld) (n : Nat) : (bumpBy s o f n).hot = s.hot := rfl
@[simp] theorem bumpBy_reqq (s : State) (o : Nat) (f : Fld) (n : Nat) : (bumpBy s o f n).reqq = s.reqq := rfl
@[simp] theorem bumpBy_outst (s : State) (o : Nat) (f : Fld) (n : Nat) : (bumpBy s o f n).outst = s.outst := rfl
@[simp] theorem bumpBy_inb (s : State) (o : Nat) (f : Fld) (n : Nat) : (bumpBy s o f n).inb = s.inb := rfl
@[simp] theorem bumpBy_niOut (s : State) (o : Nat) (f : Fld) (n : Nat) : (bumpBy s o f n).niOut = s.niOut := rfl
@[simp] theorem bumpBy_respW (s : State) (o : Nat) (f : Fld) (n : Nat) : (bumpBy s o f n).respW = s.respW := rfl
@[simp] theorem bumpBy_niKey (s : State) (o : Nat) (f : Fld) (n : Nat) : (bumpBy s o f n).niKey = s.niKey := rfl
@[simp] theorem bumpBy_rankC (s : State) (o : Nat) (f : Fld) (n : Nat) : (bumpBy s o f n).rankC = s.rankC := rfl
@[simp] theorem bumpBy_routeC (s : State) (o : Nat) (f : Fld) (n : Nat) : (bumpBy s o f n).routeC = s.routeC := rfl
@[simp] theorem bumpBy_retired (s : State) (o : Nat) (f : Fld) (n : Nat) : (bumpBy s o f n).retired = s.retired := rfl
@[simp] theorem bumpBy_rateWin (s : State) (o : Nat) (f : Fld) (n : Nat) : (bumpBy s o f n).rateWin = s.rateWin := rfl
@[simp] theorem bumpBy_echoed (s : State) (o : Nat) (f : Fld) (n : Nat) : (bumpBy s o f n).echoed = s.echoed := rfl
@[simp] theorem bumpBy_tim (s : State) (o : Nat) (f : Fld) (n : Nat) : (bumpBy s o f n).tim = s.tim := rfl
@[simp] theorem bumpBy_shadow (s : State) (o : Nat) (f : Fld) (n : Nat) : (bumpBy s o f n).shadow = s.shadow := rfl
@[simp] theorem bumpBy_snaps (s : State) (o : Nat) (f : Fld) (n : Nat) : (bumpBy s o f n).snaps = s.snaps := rfl
@[simp] theorem bumpBy_lpUsed (s : State) (o : Nat) (f : Fld) (n : Nat) : (bumpBy s o f n).lpUsed = s.lpUsed := rfl
@[simp] theorem bumpBy_lpPlan (s : State) (o : Nat) (f : Fld) (n : Nat) : (bumpBy s o f n).lpPlan = s.lpPlan := rfl
@[simp] theorem bumpBy_lpOpen (s : State) (o : Nat) (f : Fld) (n : Nat) : (bumpBy s o f n).lpOpen = s.lpOpen := rfl
@[simp] theorem bumpBy_ceNext (s : State) (o : Nat) (f : Fld) (n : Nat) : (bumpBy s o f n).ceNext = s.ceNext := rfl
@[simp] theorem bumpBy_rowErr (s : State) (o : Nat) (f : Fld) (n : Nat) : (bumpBy s o f n).rowErr = s.rowErr := rfl
@[simp] theorem bumpBy_ppr (s : State) (o : Nat) (f : Fld) (n : Nat) : (bumpBy s o f n).ppr = s.ppr := rfl
@[simp] theorem bumpBy_refWin (s : State) (o : Nat) (f : Fld) (n : Nat) : (bumpBy s o f n).refWin = s.refWin := rfl
@[simp] theorem bumpBy_scrubAt (s : State) (o : Nat) (f : Fld) (n : Nat) : (bumpBy s o f n).scrubAt = s.scrubAt := rfl
@[simp] theorem bumpBy_lnkPlan (s : State) (o : Nat) (f : Fld) (n : Nat) : (bumpBy s o f n).lnkPlan = s.lnkPlan := rfl
@[simp] theorem bumpBy_lnkOpen (s : State) (o : Nat) (f : Fld) (n : Nat) : (bumpBy s o f n).lnkOpen = s.lnkOpen := rfl
@[simp] theorem bumpBy_congWin (s : State) (o : Nat) (f : Fld) (n : Nat) : (bumpBy s o f n).congWin = s.congWin := rfl
@[simp] theorem bumpBy_recPhase (s : State) (o : Nat) (f : Fld) (n : Nat) : (bumpBy s o f n).recPhase = s.recPhase := rfl
@[simp] theorem bumpBy_recOpen (s : State) (o : Nat) (f : Fld) (n : Nat) : (bumpBy s o f n).recOpen = s.recOpen := rfl
@[simp] theorem bumpBy_protoMajor (s : State) (o : Nat) (f : Fld) (n : Nat) : (bumpBy s o f n).protoMajor = s.protoMajor := rfl
@[simp] theorem bumpBy_protoMinor (s : State) (o : Nat) (f : Fld) (n : Nat) : (bumpBy s o f n).protoMinor = s.protoMinor := rfl
@[simp] theorem bumpBy_hostMem (s : State) (o : Nat) (f : Fld) (n : Nat) : (bumpBy s o f n).hostMem = s.hostMem := rfl
@[simp] theorem bumpBy_winMem (s : State) (o : Nat) (f : Fld) (n : Nat) : (bumpBy s o f n).winMem = s.winMem := rfl
@[simp] theorem bumpBy_winVf (s : State) (o : Nat) (f : Fld) (n : Nat) : (bumpBy s o f n).winVf = s.winVf := rfl
@[simp] theorem bumpBy_cmds (s : State) (o : Nat) (f : Fld) (n : Nat) : (bumpBy s o f n).cmds = s.cmds := rfl
@[simp] theorem bumpBy_outs (s : State) (o : Nat) (f : Fld) (n : Nat) : (bumpBy s o f n).outs = s.outs := rfl
@[simp] theorem bumpBy_msix (s : State) (o : Nat) (f : Fld) (n : Nat) : (bumpBy s o f n).msix = s.msix := rfl
@[simp] theorem bumpBy_vfApt (s : State) (o : Nat) (f : Fld) (n : Nat) : (bumpBy s o f n).vfApt = s.vfApt := rfl
@[simp] theorem bumpBy_ideKeys (s : State) (o : Nat) (f : Fld) (n : Nat) : (bumpBy s o f n).ideKeys = s.ideKeys := rfl
@[simp] theorem bumpBy_ideBad (s : State) (o : Nat) (f : Fld) (n : Nat) : (bumpBy s o f n).ideBad = s.ideBad := rfl
@[simp] theorem bumpBy_spdmSt (s : State) (o : Nat) (f : Fld) (n : Nat) : (bumpBy s o f n).spdmSt = s.spdmSt := rfl
@[simp] theorem bumpBy_sbd (s : State) (o : Nat) (f : Fld) (n : Nat) : (bumpBy s o f n).sbd = s.sbd := rfl
@[simp] theorem bumpBy_jtag (s : State) (o : Nat) (f : Fld) (n : Nat) : (bumpBy s o f n).jtag = s.jtag := rfl
@[simp] theorem bumpBy_twin (s : State) (o : Nat) (f : Fld) (n : Nat) : (bumpBy s o f n).twin = s.twin := rfl
@[simp] theorem bumpBy_hang (s : State) (o : Nat) (f : Fld) (n : Nat) : (bumpBy s o f n).hang = s.hang := rfl
@[simp] theorem bumpBy_recAt (s : State) (o : Nat) (f : Fld) (n : Nat) : (bumpBy s o f n).recAt = s.recAt := rfl
@[simp] theorem bumpBy_recStep (s : State) (o : Nat) (f : Fld) (n : Nat) : (bumpBy s o f n).recStep = s.recStep := rfl
@[simp] theorem bumpBy_pwr (s : State) (o : Nat) (f : Fld) (n : Nat) : (bumpBy s o f n).pwr = s.pwr := rfl
@[simp] theorem bumpBy_idle (s : State) (o : Nat) (f : Fld) (n : Nat) : (bumpBy s o f n).idle = s.idle := rfl
@[simp] theorem bumpBy_flash (s : State) (o : Nat) (f : Fld) (n : Nat) : (bumpBy s o f n).flash = s.flash := rfl
@[simp] theorem bumpBy_fuse (s : State) (o : Nat) (f : Fld) (n : Nat) : (bumpBy s o f n).fuse = s.fuse := rfl
@[simp] theorem bumpBy_boot (s : State) (o : Nat) (f : Fld) (n : Nat) : (bumpBy s o f n).boot = s.boot := rfl
@[simp] theorem bumpBy_spill (s : State) (o : Nat) (f : Fld) (n : Nat) : (bumpBy s o f n).spill = s.spill := rfl
@[simp] theorem bumpBy_gathered (s : State) (o : Nat) (f : Fld) (n : Nat) : (bumpBy s o f n).gathered = s.gathered := rfl
@[simp] theorem bumpBy_hostAcc (s : State) (o : Nat) (f : Fld) (n : Nat) : (bumpBy s o f n).hostAcc = s.hostAcc := rfl
@[simp] theorem bumpBy_rankQ (s : State) (o : Nat) (f : Fld) (n : Nat) : (bumpBy s o f n).rankQ = s.rankQ := rfl
@[simp] theorem bumpBy_flagAt (s : State) (o : Nat) (f : Fld) (n : Nat) : (bumpBy s o f n).flagAt = s.flagAt := rfl
@[simp] theorem bumpBy_shadowAt (s : State) (o : Nat) (f : Fld) (n : Nat) : (bumpBy s o f n).shadowAt = s.shadowAt := rfl
@[simp] theorem bumpBy_trainStore (s : State) (o : Nat) (f : Fld) (n : Nat) : (bumpBy s o f n).trainStore = s.trainStore := rfl
@[simp] theorem bumpBy_lpTrain (s : State) (o : Nat) (f : Fld) (n : Nat) : (bumpBy s o f n).lpTrain = s.lpTrain := rfl

@[simp] theorem bump_pending (s : State) (o : Nat) (f : Fld) : (bump s o f).pending = s.pending := rfl
@[simp] theorem bump_fresh (s : State) (o : Nat) (f : Fld) : (bump s o f).fresh = s.fresh := rfl
@[simp] theorem bump_now (s : State) (o : Nat) (f : Fld) : (bump s o f).now = s.now := rfl
@[simp] theorem bump_mem (s : State) (o : Nat) (f : Fld) : (bump s o f).mem = s.mem := rfl
@[simp] theorem bump_flaw (s : State) (o : Nat) (f : Fld) : (bump s o f).flaw = s.flaw := rfl
@[simp] theorem bump_poison (s : State) (o : Nat) (f : Fld) : (bump s o f).poison = s.poison := rfl
@[simp] theorem bump_tiles (s : State) (o : Nat) (f : Fld) : (bump s o f).tiles = s.tiles := rfl
@[simp] theorem bump_chip (s : State) (o : Nat) (f : Fld) : (bump s o f).chip = s.chip := rfl
@[simp] theorem bump_syncNet (s : State) (o : Nat) (f : Fld) : (bump s o f).syncNet = s.syncNet := rfl
@[simp] theorem bump_flight (s : State) (o : Nat) (f : Fld) : (bump s o f).flight = s.flight := rfl
@[simp] theorem bump_chanW (s : State) (o : Nat) (f : Fld) : (bump s o f).chanW = s.chanW := rfl
@[simp] theorem bump_deliv (s : State) (o : Nat) (f : Fld) : (bump s o f).deliv = s.deliv := rfl
@[simp] theorem bump_ctxs (s : State) (o : Nat) (f : Fld) : (bump s o f).ctxs = s.ctxs := rfl
@[simp] theorem bump_engines (s : State) (o : Nat) (f : Fld) : (bump s o f).engines = s.engines := rfl
@[simp] theorem bump_refreshP (s : State) (o : Nat) (f : Fld) : (bump s o f).refreshP = s.refreshP := rfl
@[simp] theorem bump_rel (s : State) (o : Nat) (f : Fld) : (bump s o f).rel = s.rel := rfl
@[simp] theorem bump_abuf (s : State) (o : Nat) (f : Fld) : (bump s o f).abuf = s.abuf := rfl
@[simp] theorem bump_canes (s : State) (o : Nat) (f : Fld) : (bump s o f).canes = s.canes := rfl
@[simp] theorem bump_faultHeld (s : State) (o : Nat) (f : Fld) : (bump s o f).faultHeld = s.faultHeld := rfl
@[simp] theorem bump_recNext (s : State) (o : Nat) (f : Fld) : (bump s o f).recNext = s.recNext := rfl
@[simp] theorem bump_tileMap (s : State) (o : Nat) (f : Fld) : (bump s o f).tileMap = s.tileMap := rfl
@[simp] theorem bump_repairRec (s : State) (o : Nat) (f : Fld) : (bump s o f).repairRec = s.repairRec := rfl
@[simp] theorem bump_zones (s : State) (o : Nat) (f : Fld) : (bump s o f).zones = s.zones := rfl
@[simp] theorem bump_foldB (s : State) (o : Nat) (f : Fld) : (bump s o f).foldB = s.foldB := rfl
@[simp] theorem bump_links (s : State) (o : Nat) (f : Fld) : (bump s o f).links = s.links := rfl
@[simp] theorem bump_lclk (s : State) (o : Nat) (f : Fld) : (bump s o f).lclk = s.lclk := rfl
@[simp] theorem bump_recov (s : State) (o : Nat) (f : Fld) : (bump s o f).recov = s.recov := rfl
@[simp] theorem bump_hot (s : State) (o : Nat) (f : Fld) : (bump s o f).hot = s.hot := rfl
@[simp] theorem bump_reqq (s : State) (o : Nat) (f : Fld) : (bump s o f).reqq = s.reqq := rfl
@[simp] theorem bump_outst (s : State) (o : Nat) (f : Fld) : (bump s o f).outst = s.outst := rfl
@[simp] theorem bump_inb (s : State) (o : Nat) (f : Fld) : (bump s o f).inb = s.inb := rfl
@[simp] theorem bump_niOut (s : State) (o : Nat) (f : Fld) : (bump s o f).niOut = s.niOut := rfl
@[simp] theorem bump_respW (s : State) (o : Nat) (f : Fld) : (bump s o f).respW = s.respW := rfl
@[simp] theorem bump_niKey (s : State) (o : Nat) (f : Fld) : (bump s o f).niKey = s.niKey := rfl
@[simp] theorem bump_rankC (s : State) (o : Nat) (f : Fld) : (bump s o f).rankC = s.rankC := rfl
@[simp] theorem bump_routeC (s : State) (o : Nat) (f : Fld) : (bump s o f).routeC = s.routeC := rfl
@[simp] theorem bump_retired (s : State) (o : Nat) (f : Fld) : (bump s o f).retired = s.retired := rfl
@[simp] theorem bump_rateWin (s : State) (o : Nat) (f : Fld) : (bump s o f).rateWin = s.rateWin := rfl
@[simp] theorem bump_echoed (s : State) (o : Nat) (f : Fld) : (bump s o f).echoed = s.echoed := rfl
@[simp] theorem bump_tim (s : State) (o : Nat) (f : Fld) : (bump s o f).tim = s.tim := rfl
@[simp] theorem bump_shadow (s : State) (o : Nat) (f : Fld) : (bump s o f).shadow = s.shadow := rfl
@[simp] theorem bump_snaps (s : State) (o : Nat) (f : Fld) : (bump s o f).snaps = s.snaps := rfl
@[simp] theorem bump_lpUsed (s : State) (o : Nat) (f : Fld) : (bump s o f).lpUsed = s.lpUsed := rfl
@[simp] theorem bump_lpPlan (s : State) (o : Nat) (f : Fld) : (bump s o f).lpPlan = s.lpPlan := rfl
@[simp] theorem bump_lpOpen (s : State) (o : Nat) (f : Fld) : (bump s o f).lpOpen = s.lpOpen := rfl
@[simp] theorem bump_ceNext (s : State) (o : Nat) (f : Fld) : (bump s o f).ceNext = s.ceNext := rfl
@[simp] theorem bump_rowErr (s : State) (o : Nat) (f : Fld) : (bump s o f).rowErr = s.rowErr := rfl
@[simp] theorem bump_ppr (s : State) (o : Nat) (f : Fld) : (bump s o f).ppr = s.ppr := rfl
@[simp] theorem bump_refWin (s : State) (o : Nat) (f : Fld) : (bump s o f).refWin = s.refWin := rfl
@[simp] theorem bump_scrubAt (s : State) (o : Nat) (f : Fld) : (bump s o f).scrubAt = s.scrubAt := rfl
@[simp] theorem bump_lnkPlan (s : State) (o : Nat) (f : Fld) : (bump s o f).lnkPlan = s.lnkPlan := rfl
@[simp] theorem bump_lnkOpen (s : State) (o : Nat) (f : Fld) : (bump s o f).lnkOpen = s.lnkOpen := rfl
@[simp] theorem bump_congWin (s : State) (o : Nat) (f : Fld) : (bump s o f).congWin = s.congWin := rfl
@[simp] theorem bump_recPhase (s : State) (o : Nat) (f : Fld) : (bump s o f).recPhase = s.recPhase := rfl
@[simp] theorem bump_recOpen (s : State) (o : Nat) (f : Fld) : (bump s o f).recOpen = s.recOpen := rfl
@[simp] theorem bump_protoMajor (s : State) (o : Nat) (f : Fld) : (bump s o f).protoMajor = s.protoMajor := rfl
@[simp] theorem bump_protoMinor (s : State) (o : Nat) (f : Fld) : (bump s o f).protoMinor = s.protoMinor := rfl
@[simp] theorem bump_hostMem (s : State) (o : Nat) (f : Fld) : (bump s o f).hostMem = s.hostMem := rfl
@[simp] theorem bump_winMem (s : State) (o : Nat) (f : Fld) : (bump s o f).winMem = s.winMem := rfl
@[simp] theorem bump_winVf (s : State) (o : Nat) (f : Fld) : (bump s o f).winVf = s.winVf := rfl
@[simp] theorem bump_cmds (s : State) (o : Nat) (f : Fld) : (bump s o f).cmds = s.cmds := rfl
@[simp] theorem bump_outs (s : State) (o : Nat) (f : Fld) : (bump s o f).outs = s.outs := rfl
@[simp] theorem bump_msix (s : State) (o : Nat) (f : Fld) : (bump s o f).msix = s.msix := rfl
@[simp] theorem bump_vfApt (s : State) (o : Nat) (f : Fld) : (bump s o f).vfApt = s.vfApt := rfl
@[simp] theorem bump_ideKeys (s : State) (o : Nat) (f : Fld) : (bump s o f).ideKeys = s.ideKeys := rfl
@[simp] theorem bump_ideBad (s : State) (o : Nat) (f : Fld) : (bump s o f).ideBad = s.ideBad := rfl
@[simp] theorem bump_spdmSt (s : State) (o : Nat) (f : Fld) : (bump s o f).spdmSt = s.spdmSt := rfl
@[simp] theorem bump_sbd (s : State) (o : Nat) (f : Fld) : (bump s o f).sbd = s.sbd := rfl
@[simp] theorem bump_jtag (s : State) (o : Nat) (f : Fld) : (bump s o f).jtag = s.jtag := rfl
@[simp] theorem bump_twin (s : State) (o : Nat) (f : Fld) : (bump s o f).twin = s.twin := rfl
@[simp] theorem bump_hang (s : State) (o : Nat) (f : Fld) : (bump s o f).hang = s.hang := rfl
@[simp] theorem bump_recAt (s : State) (o : Nat) (f : Fld) : (bump s o f).recAt = s.recAt := rfl
@[simp] theorem bump_recStep (s : State) (o : Nat) (f : Fld) : (bump s o f).recStep = s.recStep := rfl
@[simp] theorem bump_pwr (s : State) (o : Nat) (f : Fld) : (bump s o f).pwr = s.pwr := rfl
@[simp] theorem bump_idle (s : State) (o : Nat) (f : Fld) : (bump s o f).idle = s.idle := rfl
@[simp] theorem bump_flash (s : State) (o : Nat) (f : Fld) : (bump s o f).flash = s.flash := rfl
@[simp] theorem bump_fuse (s : State) (o : Nat) (f : Fld) : (bump s o f).fuse = s.fuse := rfl
@[simp] theorem bump_boot (s : State) (o : Nat) (f : Fld) : (bump s o f).boot = s.boot := rfl
@[simp] theorem bump_spill (s : State) (o : Nat) (f : Fld) : (bump s o f).spill = s.spill := rfl
@[simp] theorem bump_gathered (s : State) (o : Nat) (f : Fld) : (bump s o f).gathered = s.gathered := rfl
@[simp] theorem bump_hostAcc (s : State) (o : Nat) (f : Fld) : (bump s o f).hostAcc = s.hostAcc := rfl
@[simp] theorem bump_rankQ (s : State) (o : Nat) (f : Fld) : (bump s o f).rankQ = s.rankQ := rfl
@[simp] theorem bump_flagAt (s : State) (o : Nat) (f : Fld) : (bump s o f).flagAt = s.flagAt := rfl
@[simp] theorem bump_shadowAt (s : State) (o : Nat) (f : Fld) : (bump s o f).shadowAt = s.shadowAt := rfl
@[simp] theorem bump_trainStore (s : State) (o : Nat) (f : Fld) : (bump s o f).trainStore = s.trainStore := rfl
@[simp] theorem bump_lpTrain (s : State) (o : Nat) (f : Fld) : (bump s o f).lpTrain = s.lpTrain := rfl

@[simp] theorem setTile_pending (s : State) (t : Nat) (x : Tile) : (setTile s t x).pending = s.pending := rfl
@[simp] theorem setTile_fresh (s : State) (t : Nat) (x : Tile) : (setTile s t x).fresh = s.fresh := rfl
@[simp] theorem setTile_now (s : State) (t : Nat) (x : Tile) : (setTile s t x).now = s.now := rfl
@[simp] theorem setTile_mem (s : State) (t : Nat) (x : Tile) : (setTile s t x).mem = s.mem := rfl
@[simp] theorem setTile_flaw (s : State) (t : Nat) (x : Tile) : (setTile s t x).flaw = s.flaw := rfl
@[simp] theorem setTile_poison (s : State) (t : Nat) (x : Tile) : (setTile s t x).poison = s.poison := rfl
@[simp] theorem setTile_regs (s : State) (t : Nat) (x : Tile) : (setTile s t x).regs = s.regs := rfl
@[simp] theorem setTile_chip (s : State) (t : Nat) (x : Tile) : (setTile s t x).chip = s.chip := rfl
@[simp] theorem setTile_syncNet (s : State) (t : Nat) (x : Tile) : (setTile s t x).syncNet = s.syncNet := rfl
@[simp] theorem setTile_flight (s : State) (t : Nat) (x : Tile) : (setTile s t x).flight = s.flight := rfl
@[simp] theorem setTile_chanW (s : State) (t : Nat) (x : Tile) : (setTile s t x).chanW = s.chanW := rfl
@[simp] theorem setTile_deliv (s : State) (t : Nat) (x : Tile) : (setTile s t x).deliv = s.deliv := rfl
@[simp] theorem setTile_ctxs (s : State) (t : Nat) (x : Tile) : (setTile s t x).ctxs = s.ctxs := rfl
@[simp] theorem setTile_engines (s : State) (t : Nat) (x : Tile) : (setTile s t x).engines = s.engines := rfl
@[simp] theorem setTile_refreshP (s : State) (t : Nat) (x : Tile) : (setTile s t x).refreshP = s.refreshP := rfl
@[simp] theorem setTile_rel (s : State) (t : Nat) (x : Tile) : (setTile s t x).rel = s.rel := rfl
@[simp] theorem setTile_abuf (s : State) (t : Nat) (x : Tile) : (setTile s t x).abuf = s.abuf := rfl
@[simp] theorem setTile_canes (s : State) (t : Nat) (x : Tile) : (setTile s t x).canes = s.canes := rfl
@[simp] theorem setTile_faultHeld (s : State) (t : Nat) (x : Tile) : (setTile s t x).faultHeld = s.faultHeld := rfl
@[simp] theorem setTile_recNext (s : State) (t : Nat) (x : Tile) : (setTile s t x).recNext = s.recNext := rfl
@[simp] theorem setTile_tileMap (s : State) (t : Nat) (x : Tile) : (setTile s t x).tileMap = s.tileMap := rfl
@[simp] theorem setTile_repairRec (s : State) (t : Nat) (x : Tile) : (setTile s t x).repairRec = s.repairRec := rfl
@[simp] theorem setTile_zones (s : State) (t : Nat) (x : Tile) : (setTile s t x).zones = s.zones := rfl
@[simp] theorem setTile_foldB (s : State) (t : Nat) (x : Tile) : (setTile s t x).foldB = s.foldB := rfl
@[simp] theorem setTile_links (s : State) (t : Nat) (x : Tile) : (setTile s t x).links = s.links := rfl
@[simp] theorem setTile_lclk (s : State) (t : Nat) (x : Tile) : (setTile s t x).lclk = s.lclk := rfl
@[simp] theorem setTile_recov (s : State) (t : Nat) (x : Tile) : (setTile s t x).recov = s.recov := rfl
@[simp] theorem setTile_hot (s : State) (t : Nat) (x : Tile) : (setTile s t x).hot = s.hot := rfl
@[simp] theorem setTile_reqq (s : State) (t : Nat) (x : Tile) : (setTile s t x).reqq = s.reqq := rfl
@[simp] theorem setTile_outst (s : State) (t : Nat) (x : Tile) : (setTile s t x).outst = s.outst := rfl
@[simp] theorem setTile_inb (s : State) (t : Nat) (x : Tile) : (setTile s t x).inb = s.inb := rfl
@[simp] theorem setTile_niOut (s : State) (t : Nat) (x : Tile) : (setTile s t x).niOut = s.niOut := rfl
@[simp] theorem setTile_respW (s : State) (t : Nat) (x : Tile) : (setTile s t x).respW = s.respW := rfl
@[simp] theorem setTile_niKey (s : State) (t : Nat) (x : Tile) : (setTile s t x).niKey = s.niKey := rfl
@[simp] theorem setTile_rankC (s : State) (t : Nat) (x : Tile) : (setTile s t x).rankC = s.rankC := rfl
@[simp] theorem setTile_routeC (s : State) (t : Nat) (x : Tile) : (setTile s t x).routeC = s.routeC := rfl
@[simp] theorem setTile_retired (s : State) (t : Nat) (x : Tile) : (setTile s t x).retired = s.retired := rfl
@[simp] theorem setTile_rateWin (s : State) (t : Nat) (x : Tile) : (setTile s t x).rateWin = s.rateWin := rfl
@[simp] theorem setTile_echoed (s : State) (t : Nat) (x : Tile) : (setTile s t x).echoed = s.echoed := rfl
@[simp] theorem setTile_tim (s : State) (t : Nat) (x : Tile) : (setTile s t x).tim = s.tim := rfl
@[simp] theorem setTile_shadow (s : State) (t : Nat) (x : Tile) : (setTile s t x).shadow = s.shadow := rfl
@[simp] theorem setTile_snaps (s : State) (t : Nat) (x : Tile) : (setTile s t x).snaps = s.snaps := rfl
@[simp] theorem setTile_lpUsed (s : State) (t : Nat) (x : Tile) : (setTile s t x).lpUsed = s.lpUsed := rfl
@[simp] theorem setTile_lpPlan (s : State) (t : Nat) (x : Tile) : (setTile s t x).lpPlan = s.lpPlan := rfl
@[simp] theorem setTile_lpOpen (s : State) (t : Nat) (x : Tile) : (setTile s t x).lpOpen = s.lpOpen := rfl
@[simp] theorem setTile_ceNext (s : State) (t : Nat) (x : Tile) : (setTile s t x).ceNext = s.ceNext := rfl
@[simp] theorem setTile_rowErr (s : State) (t : Nat) (x : Tile) : (setTile s t x).rowErr = s.rowErr := rfl
@[simp] theorem setTile_ppr (s : State) (t : Nat) (x : Tile) : (setTile s t x).ppr = s.ppr := rfl
@[simp] theorem setTile_refWin (s : State) (t : Nat) (x : Tile) : (setTile s t x).refWin = s.refWin := rfl
@[simp] theorem setTile_scrubAt (s : State) (t : Nat) (x : Tile) : (setTile s t x).scrubAt = s.scrubAt := rfl
@[simp] theorem setTile_lnkPlan (s : State) (t : Nat) (x : Tile) : (setTile s t x).lnkPlan = s.lnkPlan := rfl
@[simp] theorem setTile_lnkOpen (s : State) (t : Nat) (x : Tile) : (setTile s t x).lnkOpen = s.lnkOpen := rfl
@[simp] theorem setTile_congWin (s : State) (t : Nat) (x : Tile) : (setTile s t x).congWin = s.congWin := rfl
@[simp] theorem setTile_recPhase (s : State) (t : Nat) (x : Tile) : (setTile s t x).recPhase = s.recPhase := rfl
@[simp] theorem setTile_recOpen (s : State) (t : Nat) (x : Tile) : (setTile s t x).recOpen = s.recOpen := rfl
@[simp] theorem setTile_protoMajor (s : State) (t : Nat) (x : Tile) : (setTile s t x).protoMajor = s.protoMajor := rfl
@[simp] theorem setTile_protoMinor (s : State) (t : Nat) (x : Tile) : (setTile s t x).protoMinor = s.protoMinor := rfl
@[simp] theorem setTile_hostMem (s : State) (t : Nat) (x : Tile) : (setTile s t x).hostMem = s.hostMem := rfl
@[simp] theorem setTile_winMem (s : State) (t : Nat) (x : Tile) : (setTile s t x).winMem = s.winMem := rfl
@[simp] theorem setTile_winVf (s : State) (t : Nat) (x : Tile) : (setTile s t x).winVf = s.winVf := rfl
@[simp] theorem setTile_cmds (s : State) (t : Nat) (x : Tile) : (setTile s t x).cmds = s.cmds := rfl
@[simp] theorem setTile_outs (s : State) (t : Nat) (x : Tile) : (setTile s t x).outs = s.outs := rfl
@[simp] theorem setTile_msix (s : State) (t : Nat) (x : Tile) : (setTile s t x).msix = s.msix := rfl
@[simp] theorem setTile_vfApt (s : State) (t : Nat) (x : Tile) : (setTile s t x).vfApt = s.vfApt := rfl
@[simp] theorem setTile_ideKeys (s : State) (t : Nat) (x : Tile) : (setTile s t x).ideKeys = s.ideKeys := rfl
@[simp] theorem setTile_ideBad (s : State) (t : Nat) (x : Tile) : (setTile s t x).ideBad = s.ideBad := rfl
@[simp] theorem setTile_spdmSt (s : State) (t : Nat) (x : Tile) : (setTile s t x).spdmSt = s.spdmSt := rfl
@[simp] theorem setTile_sbd (s : State) (t : Nat) (x : Tile) : (setTile s t x).sbd = s.sbd := rfl
@[simp] theorem setTile_jtag (s : State) (t : Nat) (x : Tile) : (setTile s t x).jtag = s.jtag := rfl
@[simp] theorem setTile_twin (s : State) (t : Nat) (x : Tile) : (setTile s t x).twin = s.twin := rfl
@[simp] theorem setTile_hang (s : State) (t : Nat) (x : Tile) : (setTile s t x).hang = s.hang := rfl
@[simp] theorem setTile_recAt (s : State) (t : Nat) (x : Tile) : (setTile s t x).recAt = s.recAt := rfl
@[simp] theorem setTile_recStep (s : State) (t : Nat) (x : Tile) : (setTile s t x).recStep = s.recStep := rfl
@[simp] theorem setTile_pwr (s : State) (t : Nat) (x : Tile) : (setTile s t x).pwr = s.pwr := rfl
@[simp] theorem setTile_idle (s : State) (t : Nat) (x : Tile) : (setTile s t x).idle = s.idle := rfl
@[simp] theorem setTile_flash (s : State) (t : Nat) (x : Tile) : (setTile s t x).flash = s.flash := rfl
@[simp] theorem setTile_fuse (s : State) (t : Nat) (x : Tile) : (setTile s t x).fuse = s.fuse := rfl
@[simp] theorem setTile_boot (s : State) (t : Nat) (x : Tile) : (setTile s t x).boot = s.boot := rfl
@[simp] theorem setTile_spill (s : State) (t : Nat) (x : Tile) : (setTile s t x).spill = s.spill := rfl
@[simp] theorem setTile_gathered (s : State) (t : Nat) (x : Tile) : (setTile s t x).gathered = s.gathered := rfl
@[simp] theorem setTile_hostAcc (s : State) (t : Nat) (x : Tile) : (setTile s t x).hostAcc = s.hostAcc := rfl
@[simp] theorem setTile_rankQ (s : State) (t : Nat) (x : Tile) : (setTile s t x).rankQ = s.rankQ := rfl
@[simp] theorem setTile_flagAt (s : State) (t : Nat) (x : Tile) : (setTile s t x).flagAt = s.flagAt := rfl
@[simp] theorem setTile_shadowAt (s : State) (t : Nat) (x : Tile) : (setTile s t x).shadowAt = s.shadowAt := rfl
@[simp] theorem setTile_trainStore (s : State) (t : Nat) (x : Tile) : (setTile s t x).trainStore = s.trainStore := rfl
@[simp] theorem setTile_lpTrain (s : State) (t : Nat) (x : Tile) : (setTile s t x).lpTrain = s.lpTrain := rfl

@[simp] theorem modTile_pending (s : State) (t : Nat) (f : Tile → Tile) : (modTile s t f).pending = s.pending := rfl
@[simp] theorem modTile_fresh (s : State) (t : Nat) (f : Tile → Tile) : (modTile s t f).fresh = s.fresh := rfl
@[simp] theorem modTile_now (s : State) (t : Nat) (f : Tile → Tile) : (modTile s t f).now = s.now := rfl
@[simp] theorem modTile_mem (s : State) (t : Nat) (f : Tile → Tile) : (modTile s t f).mem = s.mem := rfl
@[simp] theorem modTile_flaw (s : State) (t : Nat) (f : Tile → Tile) : (modTile s t f).flaw = s.flaw := rfl
@[simp] theorem modTile_poison (s : State) (t : Nat) (f : Tile → Tile) : (modTile s t f).poison = s.poison := rfl
@[simp] theorem modTile_regs (s : State) (t : Nat) (f : Tile → Tile) : (modTile s t f).regs = s.regs := rfl
@[simp] theorem modTile_chip (s : State) (t : Nat) (f : Tile → Tile) : (modTile s t f).chip = s.chip := rfl
@[simp] theorem modTile_syncNet (s : State) (t : Nat) (f : Tile → Tile) : (modTile s t f).syncNet = s.syncNet := rfl
@[simp] theorem modTile_flight (s : State) (t : Nat) (f : Tile → Tile) : (modTile s t f).flight = s.flight := rfl
@[simp] theorem modTile_chanW (s : State) (t : Nat) (f : Tile → Tile) : (modTile s t f).chanW = s.chanW := rfl
@[simp] theorem modTile_deliv (s : State) (t : Nat) (f : Tile → Tile) : (modTile s t f).deliv = s.deliv := rfl
@[simp] theorem modTile_ctxs (s : State) (t : Nat) (f : Tile → Tile) : (modTile s t f).ctxs = s.ctxs := rfl
@[simp] theorem modTile_engines (s : State) (t : Nat) (f : Tile → Tile) : (modTile s t f).engines = s.engines := rfl
@[simp] theorem modTile_refreshP (s : State) (t : Nat) (f : Tile → Tile) : (modTile s t f).refreshP = s.refreshP := rfl
@[simp] theorem modTile_rel (s : State) (t : Nat) (f : Tile → Tile) : (modTile s t f).rel = s.rel := rfl
@[simp] theorem modTile_abuf (s : State) (t : Nat) (f : Tile → Tile) : (modTile s t f).abuf = s.abuf := rfl
@[simp] theorem modTile_canes (s : State) (t : Nat) (f : Tile → Tile) : (modTile s t f).canes = s.canes := rfl
@[simp] theorem modTile_faultHeld (s : State) (t : Nat) (f : Tile → Tile) : (modTile s t f).faultHeld = s.faultHeld := rfl
@[simp] theorem modTile_recNext (s : State) (t : Nat) (f : Tile → Tile) : (modTile s t f).recNext = s.recNext := rfl
@[simp] theorem modTile_tileMap (s : State) (t : Nat) (f : Tile → Tile) : (modTile s t f).tileMap = s.tileMap := rfl
@[simp] theorem modTile_repairRec (s : State) (t : Nat) (f : Tile → Tile) : (modTile s t f).repairRec = s.repairRec := rfl
@[simp] theorem modTile_zones (s : State) (t : Nat) (f : Tile → Tile) : (modTile s t f).zones = s.zones := rfl
@[simp] theorem modTile_foldB (s : State) (t : Nat) (f : Tile → Tile) : (modTile s t f).foldB = s.foldB := rfl
@[simp] theorem modTile_links (s : State) (t : Nat) (f : Tile → Tile) : (modTile s t f).links = s.links := rfl
@[simp] theorem modTile_lclk (s : State) (t : Nat) (f : Tile → Tile) : (modTile s t f).lclk = s.lclk := rfl
@[simp] theorem modTile_recov (s : State) (t : Nat) (f : Tile → Tile) : (modTile s t f).recov = s.recov := rfl
@[simp] theorem modTile_hot (s : State) (t : Nat) (f : Tile → Tile) : (modTile s t f).hot = s.hot := rfl
@[simp] theorem modTile_reqq (s : State) (t : Nat) (f : Tile → Tile) : (modTile s t f).reqq = s.reqq := rfl
@[simp] theorem modTile_outst (s : State) (t : Nat) (f : Tile → Tile) : (modTile s t f).outst = s.outst := rfl
@[simp] theorem modTile_inb (s : State) (t : Nat) (f : Tile → Tile) : (modTile s t f).inb = s.inb := rfl
@[simp] theorem modTile_niOut (s : State) (t : Nat) (f : Tile → Tile) : (modTile s t f).niOut = s.niOut := rfl
@[simp] theorem modTile_respW (s : State) (t : Nat) (f : Tile → Tile) : (modTile s t f).respW = s.respW := rfl
@[simp] theorem modTile_niKey (s : State) (t : Nat) (f : Tile → Tile) : (modTile s t f).niKey = s.niKey := rfl
@[simp] theorem modTile_rankC (s : State) (t : Nat) (f : Tile → Tile) : (modTile s t f).rankC = s.rankC := rfl
@[simp] theorem modTile_routeC (s : State) (t : Nat) (f : Tile → Tile) : (modTile s t f).routeC = s.routeC := rfl
@[simp] theorem modTile_retired (s : State) (t : Nat) (f : Tile → Tile) : (modTile s t f).retired = s.retired := rfl
@[simp] theorem modTile_rateWin (s : State) (t : Nat) (f : Tile → Tile) : (modTile s t f).rateWin = s.rateWin := rfl
@[simp] theorem modTile_echoed (s : State) (t : Nat) (f : Tile → Tile) : (modTile s t f).echoed = s.echoed := rfl
@[simp] theorem modTile_tim (s : State) (t : Nat) (f : Tile → Tile) : (modTile s t f).tim = s.tim := rfl
@[simp] theorem modTile_shadow (s : State) (t : Nat) (f : Tile → Tile) : (modTile s t f).shadow = s.shadow := rfl
@[simp] theorem modTile_snaps (s : State) (t : Nat) (f : Tile → Tile) : (modTile s t f).snaps = s.snaps := rfl
@[simp] theorem modTile_lpUsed (s : State) (t : Nat) (f : Tile → Tile) : (modTile s t f).lpUsed = s.lpUsed := rfl
@[simp] theorem modTile_lpPlan (s : State) (t : Nat) (f : Tile → Tile) : (modTile s t f).lpPlan = s.lpPlan := rfl
@[simp] theorem modTile_lpOpen (s : State) (t : Nat) (f : Tile → Tile) : (modTile s t f).lpOpen = s.lpOpen := rfl
@[simp] theorem modTile_ceNext (s : State) (t : Nat) (f : Tile → Tile) : (modTile s t f).ceNext = s.ceNext := rfl
@[simp] theorem modTile_rowErr (s : State) (t : Nat) (f : Tile → Tile) : (modTile s t f).rowErr = s.rowErr := rfl
@[simp] theorem modTile_ppr (s : State) (t : Nat) (f : Tile → Tile) : (modTile s t f).ppr = s.ppr := rfl
@[simp] theorem modTile_refWin (s : State) (t : Nat) (f : Tile → Tile) : (modTile s t f).refWin = s.refWin := rfl
@[simp] theorem modTile_scrubAt (s : State) (t : Nat) (f : Tile → Tile) : (modTile s t f).scrubAt = s.scrubAt := rfl
@[simp] theorem modTile_lnkPlan (s : State) (t : Nat) (f : Tile → Tile) : (modTile s t f).lnkPlan = s.lnkPlan := rfl
@[simp] theorem modTile_lnkOpen (s : State) (t : Nat) (f : Tile → Tile) : (modTile s t f).lnkOpen = s.lnkOpen := rfl
@[simp] theorem modTile_congWin (s : State) (t : Nat) (f : Tile → Tile) : (modTile s t f).congWin = s.congWin := rfl
@[simp] theorem modTile_recPhase (s : State) (t : Nat) (f : Tile → Tile) : (modTile s t f).recPhase = s.recPhase := rfl
@[simp] theorem modTile_recOpen (s : State) (t : Nat) (f : Tile → Tile) : (modTile s t f).recOpen = s.recOpen := rfl
@[simp] theorem modTile_protoMajor (s : State) (t : Nat) (f : Tile → Tile) : (modTile s t f).protoMajor = s.protoMajor := rfl
@[simp] theorem modTile_protoMinor (s : State) (t : Nat) (f : Tile → Tile) : (modTile s t f).protoMinor = s.protoMinor := rfl
@[simp] theorem modTile_hostMem (s : State) (t : Nat) (f : Tile → Tile) : (modTile s t f).hostMem = s.hostMem := rfl
@[simp] theorem modTile_winMem (s : State) (t : Nat) (f : Tile → Tile) : (modTile s t f).winMem = s.winMem := rfl
@[simp] theorem modTile_winVf (s : State) (t : Nat) (f : Tile → Tile) : (modTile s t f).winVf = s.winVf := rfl
@[simp] theorem modTile_cmds (s : State) (t : Nat) (f : Tile → Tile) : (modTile s t f).cmds = s.cmds := rfl
@[simp] theorem modTile_outs (s : State) (t : Nat) (f : Tile → Tile) : (modTile s t f).outs = s.outs := rfl
@[simp] theorem modTile_msix (s : State) (t : Nat) (f : Tile → Tile) : (modTile s t f).msix = s.msix := rfl
@[simp] theorem modTile_vfApt (s : State) (t : Nat) (f : Tile → Tile) : (modTile s t f).vfApt = s.vfApt := rfl
@[simp] theorem modTile_ideKeys (s : State) (t : Nat) (f : Tile → Tile) : (modTile s t f).ideKeys = s.ideKeys := rfl
@[simp] theorem modTile_ideBad (s : State) (t : Nat) (f : Tile → Tile) : (modTile s t f).ideBad = s.ideBad := rfl
@[simp] theorem modTile_spdmSt (s : State) (t : Nat) (f : Tile → Tile) : (modTile s t f).spdmSt = s.spdmSt := rfl
@[simp] theorem modTile_sbd (s : State) (t : Nat) (f : Tile → Tile) : (modTile s t f).sbd = s.sbd := rfl
@[simp] theorem modTile_jtag (s : State) (t : Nat) (f : Tile → Tile) : (modTile s t f).jtag = s.jtag := rfl
@[simp] theorem modTile_twin (s : State) (t : Nat) (f : Tile → Tile) : (modTile s t f).twin = s.twin := rfl
@[simp] theorem modTile_hang (s : State) (t : Nat) (f : Tile → Tile) : (modTile s t f).hang = s.hang := rfl
@[simp] theorem modTile_recAt (s : State) (t : Nat) (f : Tile → Tile) : (modTile s t f).recAt = s.recAt := rfl
@[simp] theorem modTile_recStep (s : State) (t : Nat) (f : Tile → Tile) : (modTile s t f).recStep = s.recStep := rfl
@[simp] theorem modTile_pwr (s : State) (t : Nat) (f : Tile → Tile) : (modTile s t f).pwr = s.pwr := rfl
@[simp] theorem modTile_idle (s : State) (t : Nat) (f : Tile → Tile) : (modTile s t f).idle = s.idle := rfl
@[simp] theorem modTile_flash (s : State) (t : Nat) (f : Tile → Tile) : (modTile s t f).flash = s.flash := rfl
@[simp] theorem modTile_fuse (s : State) (t : Nat) (f : Tile → Tile) : (modTile s t f).fuse = s.fuse := rfl
@[simp] theorem modTile_boot (s : State) (t : Nat) (f : Tile → Tile) : (modTile s t f).boot = s.boot := rfl
@[simp] theorem modTile_spill (s : State) (t : Nat) (f : Tile → Tile) : (modTile s t f).spill = s.spill := rfl
@[simp] theorem modTile_gathered (s : State) (t : Nat) (f : Tile → Tile) : (modTile s t f).gathered = s.gathered := rfl
@[simp] theorem modTile_hostAcc (s : State) (t : Nat) (f : Tile → Tile) : (modTile s t f).hostAcc = s.hostAcc := rfl
@[simp] theorem modTile_rankQ (s : State) (t : Nat) (f : Tile → Tile) : (modTile s t f).rankQ = s.rankQ := rfl
@[simp] theorem modTile_flagAt (s : State) (t : Nat) (f : Tile → Tile) : (modTile s t f).flagAt = s.flagAt := rfl
@[simp] theorem modTile_shadowAt (s : State) (t : Nat) (f : Tile → Tile) : (modTile s t f).shadowAt = s.shadowAt := rfl
@[simp] theorem modTile_trainStore (s : State) (t : Nat) (f : Tile → Tile) : (modTile s t f).trainStore = s.trainStore := rfl
@[simp] theorem modTile_lpTrain (s : State) (t : Nat) (f : Tile → Tile) : (modTile s t f).lpTrain = s.lpTrain := rfl

@[simp] theorem setCtx_pending (s : State) (c : Nat) (x : Ctx) : (setCtx s c x).pending = s.pending := rfl
@[simp] theorem setCtx_fresh (s : State) (c : Nat) (x : Ctx) : (setCtx s c x).fresh = s.fresh := rfl
@[simp] theorem setCtx_now (s : State) (c : Nat) (x : Ctx) : (setCtx s c x).now = s.now := rfl
@[simp] theorem setCtx_mem (s : State) (c : Nat) (x : Ctx) : (setCtx s c x).mem = s.mem := rfl
@[simp] theorem setCtx_flaw (s : State) (c : Nat) (x : Ctx) : (setCtx s c x).flaw = s.flaw := rfl
@[simp] theorem setCtx_poison (s : State) (c : Nat) (x : Ctx) : (setCtx s c x).poison = s.poison := rfl
@[simp] theorem setCtx_regs (s : State) (c : Nat) (x : Ctx) : (setCtx s c x).regs = s.regs := rfl
@[simp] theorem setCtx_tiles (s : State) (c : Nat) (x : Ctx) : (setCtx s c x).tiles = s.tiles := rfl
@[simp] theorem setCtx_chip (s : State) (c : Nat) (x : Ctx) : (setCtx s c x).chip = s.chip := rfl
@[simp] theorem setCtx_syncNet (s : State) (c : Nat) (x : Ctx) : (setCtx s c x).syncNet = s.syncNet := rfl
@[simp] theorem setCtx_flight (s : State) (c : Nat) (x : Ctx) : (setCtx s c x).flight = s.flight := rfl
@[simp] theorem setCtx_chanW (s : State) (c : Nat) (x : Ctx) : (setCtx s c x).chanW = s.chanW := rfl
@[simp] theorem setCtx_deliv (s : State) (c : Nat) (x : Ctx) : (setCtx s c x).deliv = s.deliv := rfl
@[simp] theorem setCtx_engines (s : State) (c : Nat) (x : Ctx) : (setCtx s c x).engines = s.engines := rfl
@[simp] theorem setCtx_refreshP (s : State) (c : Nat) (x : Ctx) : (setCtx s c x).refreshP = s.refreshP := rfl
@[simp] theorem setCtx_rel (s : State) (c : Nat) (x : Ctx) : (setCtx s c x).rel = s.rel := rfl
@[simp] theorem setCtx_abuf (s : State) (c : Nat) (x : Ctx) : (setCtx s c x).abuf = s.abuf := rfl
@[simp] theorem setCtx_canes (s : State) (c : Nat) (x : Ctx) : (setCtx s c x).canes = s.canes := rfl
@[simp] theorem setCtx_faultHeld (s : State) (c : Nat) (x : Ctx) : (setCtx s c x).faultHeld = s.faultHeld := rfl
@[simp] theorem setCtx_recNext (s : State) (c : Nat) (x : Ctx) : (setCtx s c x).recNext = s.recNext := rfl
@[simp] theorem setCtx_tileMap (s : State) (c : Nat) (x : Ctx) : (setCtx s c x).tileMap = s.tileMap := rfl
@[simp] theorem setCtx_repairRec (s : State) (c : Nat) (x : Ctx) : (setCtx s c x).repairRec = s.repairRec := rfl
@[simp] theorem setCtx_zones (s : State) (c : Nat) (x : Ctx) : (setCtx s c x).zones = s.zones := rfl
@[simp] theorem setCtx_foldB (s : State) (c : Nat) (x : Ctx) : (setCtx s c x).foldB = s.foldB := rfl
@[simp] theorem setCtx_links (s : State) (c : Nat) (x : Ctx) : (setCtx s c x).links = s.links := rfl
@[simp] theorem setCtx_lclk (s : State) (c : Nat) (x : Ctx) : (setCtx s c x).lclk = s.lclk := rfl
@[simp] theorem setCtx_recov (s : State) (c : Nat) (x : Ctx) : (setCtx s c x).recov = s.recov := rfl
@[simp] theorem setCtx_hot (s : State) (c : Nat) (x : Ctx) : (setCtx s c x).hot = s.hot := rfl
@[simp] theorem setCtx_reqq (s : State) (c : Nat) (x : Ctx) : (setCtx s c x).reqq = s.reqq := rfl
@[simp] theorem setCtx_outst (s : State) (c : Nat) (x : Ctx) : (setCtx s c x).outst = s.outst := rfl
@[simp] theorem setCtx_inb (s : State) (c : Nat) (x : Ctx) : (setCtx s c x).inb = s.inb := rfl
@[simp] theorem setCtx_niOut (s : State) (c : Nat) (x : Ctx) : (setCtx s c x).niOut = s.niOut := rfl
@[simp] theorem setCtx_respW (s : State) (c : Nat) (x : Ctx) : (setCtx s c x).respW = s.respW := rfl
@[simp] theorem setCtx_niKey (s : State) (c : Nat) (x : Ctx) : (setCtx s c x).niKey = s.niKey := rfl
@[simp] theorem setCtx_rankC (s : State) (c : Nat) (x : Ctx) : (setCtx s c x).rankC = s.rankC := rfl
@[simp] theorem setCtx_routeC (s : State) (c : Nat) (x : Ctx) : (setCtx s c x).routeC = s.routeC := rfl
@[simp] theorem setCtx_retired (s : State) (c : Nat) (x : Ctx) : (setCtx s c x).retired = s.retired := rfl
@[simp] theorem setCtx_rateWin (s : State) (c : Nat) (x : Ctx) : (setCtx s c x).rateWin = s.rateWin := rfl
@[simp] theorem setCtx_echoed (s : State) (c : Nat) (x : Ctx) : (setCtx s c x).echoed = s.echoed := rfl
@[simp] theorem setCtx_tim (s : State) (c : Nat) (x : Ctx) : (setCtx s c x).tim = s.tim := rfl
@[simp] theorem setCtx_shadow (s : State) (c : Nat) (x : Ctx) : (setCtx s c x).shadow = s.shadow := rfl
@[simp] theorem setCtx_snaps (s : State) (c : Nat) (x : Ctx) : (setCtx s c x).snaps = s.snaps := rfl
@[simp] theorem setCtx_lpUsed (s : State) (c : Nat) (x : Ctx) : (setCtx s c x).lpUsed = s.lpUsed := rfl
@[simp] theorem setCtx_lpPlan (s : State) (c : Nat) (x : Ctx) : (setCtx s c x).lpPlan = s.lpPlan := rfl
@[simp] theorem setCtx_lpOpen (s : State) (c : Nat) (x : Ctx) : (setCtx s c x).lpOpen = s.lpOpen := rfl
@[simp] theorem setCtx_ceNext (s : State) (c : Nat) (x : Ctx) : (setCtx s c x).ceNext = s.ceNext := rfl
@[simp] theorem setCtx_rowErr (s : State) (c : Nat) (x : Ctx) : (setCtx s c x).rowErr = s.rowErr := rfl
@[simp] theorem setCtx_ppr (s : State) (c : Nat) (x : Ctx) : (setCtx s c x).ppr = s.ppr := rfl
@[simp] theorem setCtx_refWin (s : State) (c : Nat) (x : Ctx) : (setCtx s c x).refWin = s.refWin := rfl
@[simp] theorem setCtx_scrubAt (s : State) (c : Nat) (x : Ctx) : (setCtx s c x).scrubAt = s.scrubAt := rfl
@[simp] theorem setCtx_lnkPlan (s : State) (c : Nat) (x : Ctx) : (setCtx s c x).lnkPlan = s.lnkPlan := rfl
@[simp] theorem setCtx_lnkOpen (s : State) (c : Nat) (x : Ctx) : (setCtx s c x).lnkOpen = s.lnkOpen := rfl
@[simp] theorem setCtx_congWin (s : State) (c : Nat) (x : Ctx) : (setCtx s c x).congWin = s.congWin := rfl
@[simp] theorem setCtx_recPhase (s : State) (c : Nat) (x : Ctx) : (setCtx s c x).recPhase = s.recPhase := rfl
@[simp] theorem setCtx_recOpen (s : State) (c : Nat) (x : Ctx) : (setCtx s c x).recOpen = s.recOpen := rfl
@[simp] theorem setCtx_protoMajor (s : State) (c : Nat) (x : Ctx) : (setCtx s c x).protoMajor = s.protoMajor := rfl
@[simp] theorem setCtx_protoMinor (s : State) (c : Nat) (x : Ctx) : (setCtx s c x).protoMinor = s.protoMinor := rfl
@[simp] theorem setCtx_hostMem (s : State) (c : Nat) (x : Ctx) : (setCtx s c x).hostMem = s.hostMem := rfl
@[simp] theorem setCtx_winMem (s : State) (c : Nat) (x : Ctx) : (setCtx s c x).winMem = s.winMem := rfl
@[simp] theorem setCtx_winVf (s : State) (c : Nat) (x : Ctx) : (setCtx s c x).winVf = s.winVf := rfl
@[simp] theorem setCtx_cmds (s : State) (c : Nat) (x : Ctx) : (setCtx s c x).cmds = s.cmds := rfl
@[simp] theorem setCtx_outs (s : State) (c : Nat) (x : Ctx) : (setCtx s c x).outs = s.outs := rfl
@[simp] theorem setCtx_msix (s : State) (c : Nat) (x : Ctx) : (setCtx s c x).msix = s.msix := rfl
@[simp] theorem setCtx_vfApt (s : State) (c : Nat) (x : Ctx) : (setCtx s c x).vfApt = s.vfApt := rfl
@[simp] theorem setCtx_ideKeys (s : State) (c : Nat) (x : Ctx) : (setCtx s c x).ideKeys = s.ideKeys := rfl
@[simp] theorem setCtx_ideBad (s : State) (c : Nat) (x : Ctx) : (setCtx s c x).ideBad = s.ideBad := rfl
@[simp] theorem setCtx_spdmSt (s : State) (c : Nat) (x : Ctx) : (setCtx s c x).spdmSt = s.spdmSt := rfl
@[simp] theorem setCtx_sbd (s : State) (c : Nat) (x : Ctx) : (setCtx s c x).sbd = s.sbd := rfl
@[simp] theorem setCtx_jtag (s : State) (c : Nat) (x : Ctx) : (setCtx s c x).jtag = s.jtag := rfl
@[simp] theorem setCtx_twin (s : State) (c : Nat) (x : Ctx) : (setCtx s c x).twin = s.twin := rfl
@[simp] theorem setCtx_hang (s : State) (c : Nat) (x : Ctx) : (setCtx s c x).hang = s.hang := rfl
@[simp] theorem setCtx_recAt (s : State) (c : Nat) (x : Ctx) : (setCtx s c x).recAt = s.recAt := rfl
@[simp] theorem setCtx_recStep (s : State) (c : Nat) (x : Ctx) : (setCtx s c x).recStep = s.recStep := rfl
@[simp] theorem setCtx_pwr (s : State) (c : Nat) (x : Ctx) : (setCtx s c x).pwr = s.pwr := rfl
@[simp] theorem setCtx_idle (s : State) (c : Nat) (x : Ctx) : (setCtx s c x).idle = s.idle := rfl
@[simp] theorem setCtx_flash (s : State) (c : Nat) (x : Ctx) : (setCtx s c x).flash = s.flash := rfl
@[simp] theorem setCtx_fuse (s : State) (c : Nat) (x : Ctx) : (setCtx s c x).fuse = s.fuse := rfl
@[simp] theorem setCtx_boot (s : State) (c : Nat) (x : Ctx) : (setCtx s c x).boot = s.boot := rfl
@[simp] theorem setCtx_spill (s : State) (c : Nat) (x : Ctx) : (setCtx s c x).spill = s.spill := rfl
@[simp] theorem setCtx_gathered (s : State) (c : Nat) (x : Ctx) : (setCtx s c x).gathered = s.gathered := rfl
@[simp] theorem setCtx_hostAcc (s : State) (c : Nat) (x : Ctx) : (setCtx s c x).hostAcc = s.hostAcc := rfl
@[simp] theorem setCtx_rankQ (s : State) (c : Nat) (x : Ctx) : (setCtx s c x).rankQ = s.rankQ := rfl
@[simp] theorem setCtx_flagAt (s : State) (c : Nat) (x : Ctx) : (setCtx s c x).flagAt = s.flagAt := rfl
@[simp] theorem setCtx_shadowAt (s : State) (c : Nat) (x : Ctx) : (setCtx s c x).shadowAt = s.shadowAt := rfl
@[simp] theorem setCtx_trainStore (s : State) (c : Nat) (x : Ctx) : (setCtx s c x).trainStore = s.trainStore := rfl
@[simp] theorem setCtx_lpTrain (s : State) (c : Nat) (x : Ctx) : (setCtx s c x).lpTrain = s.lpTrain := rfl

@[simp] theorem modCtx_pending (s : State) (c : Nat) (f : Ctx → Ctx) : (modCtx s c f).pending = s.pending := rfl
@[simp] theorem modCtx_fresh (s : State) (c : Nat) (f : Ctx → Ctx) : (modCtx s c f).fresh = s.fresh := rfl
@[simp] theorem modCtx_now (s : State) (c : Nat) (f : Ctx → Ctx) : (modCtx s c f).now = s.now := rfl
@[simp] theorem modCtx_mem (s : State) (c : Nat) (f : Ctx → Ctx) : (modCtx s c f).mem = s.mem := rfl
@[simp] theorem modCtx_flaw (s : State) (c : Nat) (f : Ctx → Ctx) : (modCtx s c f).flaw = s.flaw := rfl
@[simp] theorem modCtx_poison (s : State) (c : Nat) (f : Ctx → Ctx) : (modCtx s c f).poison = s.poison := rfl
@[simp] theorem modCtx_regs (s : State) (c : Nat) (f : Ctx → Ctx) : (modCtx s c f).regs = s.regs := rfl
@[simp] theorem modCtx_tiles (s : State) (c : Nat) (f : Ctx → Ctx) : (modCtx s c f).tiles = s.tiles := rfl
@[simp] theorem modCtx_chip (s : State) (c : Nat) (f : Ctx → Ctx) : (modCtx s c f).chip = s.chip := rfl
@[simp] theorem modCtx_syncNet (s : State) (c : Nat) (f : Ctx → Ctx) : (modCtx s c f).syncNet = s.syncNet := rfl
@[simp] theorem modCtx_flight (s : State) (c : Nat) (f : Ctx → Ctx) : (modCtx s c f).flight = s.flight := rfl
@[simp] theorem modCtx_chanW (s : State) (c : Nat) (f : Ctx → Ctx) : (modCtx s c f).chanW = s.chanW := rfl
@[simp] theorem modCtx_deliv (s : State) (c : Nat) (f : Ctx → Ctx) : (modCtx s c f).deliv = s.deliv := rfl
@[simp] theorem modCtx_engines (s : State) (c : Nat) (f : Ctx → Ctx) : (modCtx s c f).engines = s.engines := rfl
@[simp] theorem modCtx_refreshP (s : State) (c : Nat) (f : Ctx → Ctx) : (modCtx s c f).refreshP = s.refreshP := rfl
@[simp] theorem modCtx_rel (s : State) (c : Nat) (f : Ctx → Ctx) : (modCtx s c f).rel = s.rel := rfl
@[simp] theorem modCtx_abuf (s : State) (c : Nat) (f : Ctx → Ctx) : (modCtx s c f).abuf = s.abuf := rfl
@[simp] theorem modCtx_canes (s : State) (c : Nat) (f : Ctx → Ctx) : (modCtx s c f).canes = s.canes := rfl
@[simp] theorem modCtx_faultHeld (s : State) (c : Nat) (f : Ctx → Ctx) : (modCtx s c f).faultHeld = s.faultHeld := rfl
@[simp] theorem modCtx_recNext (s : State) (c : Nat) (f : Ctx → Ctx) : (modCtx s c f).recNext = s.recNext := rfl
@[simp] theorem modCtx_tileMap (s : State) (c : Nat) (f : Ctx → Ctx) : (modCtx s c f).tileMap = s.tileMap := rfl
@[simp] theorem modCtx_repairRec (s : State) (c : Nat) (f : Ctx → Ctx) : (modCtx s c f).repairRec = s.repairRec := rfl
@[simp] theorem modCtx_zones (s : State) (c : Nat) (f : Ctx → Ctx) : (modCtx s c f).zones = s.zones := rfl
@[simp] theorem modCtx_foldB (s : State) (c : Nat) (f : Ctx → Ctx) : (modCtx s c f).foldB = s.foldB := rfl
@[simp] theorem modCtx_links (s : State) (c : Nat) (f : Ctx → Ctx) : (modCtx s c f).links = s.links := rfl
@[simp] theorem modCtx_lclk (s : State) (c : Nat) (f : Ctx → Ctx) : (modCtx s c f).lclk = s.lclk := rfl
@[simp] theorem modCtx_recov (s : State) (c : Nat) (f : Ctx → Ctx) : (modCtx s c f).recov = s.recov := rfl
@[simp] theorem modCtx_hot (s : State) (c : Nat) (f : Ctx → Ctx) : (modCtx s c f).hot = s.hot := rfl
@[simp] theorem modCtx_reqq (s : State) (c : Nat) (f : Ctx → Ctx) : (modCtx s c f).reqq = s.reqq := rfl
@[simp] theorem modCtx_outst (s : State) (c : Nat) (f : Ctx → Ctx) : (modCtx s c f).outst = s.outst := rfl
@[simp] theorem modCtx_inb (s : State) (c : Nat) (f : Ctx → Ctx) : (modCtx s c f).inb = s.inb := rfl
@[simp] theorem modCtx_niOut (s : State) (c : Nat) (f : Ctx → Ctx) : (modCtx s c f).niOut = s.niOut := rfl
@[simp] theorem modCtx_respW (s : State) (c : Nat) (f : Ctx → Ctx) : (modCtx s c f).respW = s.respW := rfl
@[simp] theorem modCtx_niKey (s : State) (c : Nat) (f : Ctx → Ctx) : (modCtx s c f).niKey = s.niKey := rfl
@[simp] theorem modCtx_rankC (s : State) (c : Nat) (f : Ctx → Ctx) : (modCtx s c f).rankC = s.rankC := rfl
@[simp] theorem modCtx_routeC (s : State) (c : Nat) (f : Ctx → Ctx) : (modCtx s c f).routeC = s.routeC := rfl
@[simp] theorem modCtx_retired (s : State) (c : Nat) (f : Ctx → Ctx) : (modCtx s c f).retired = s.retired := rfl
@[simp] theorem modCtx_rateWin (s : State) (c : Nat) (f : Ctx → Ctx) : (modCtx s c f).rateWin = s.rateWin := rfl
@[simp] theorem modCtx_echoed (s : State) (c : Nat) (f : Ctx → Ctx) : (modCtx s c f).echoed = s.echoed := rfl
@[simp] theorem modCtx_tim (s : State) (c : Nat) (f : Ctx → Ctx) : (modCtx s c f).tim = s.tim := rfl
@[simp] theorem modCtx_shadow (s : State) (c : Nat) (f : Ctx → Ctx) : (modCtx s c f).shadow = s.shadow := rfl
@[simp] theorem modCtx_snaps (s : State) (c : Nat) (f : Ctx → Ctx) : (modCtx s c f).snaps = s.snaps := rfl
@[simp] theorem modCtx_lpUsed (s : State) (c : Nat) (f : Ctx → Ctx) : (modCtx s c f).lpUsed = s.lpUsed := rfl
@[simp] theorem modCtx_lpPlan (s : State) (c : Nat) (f : Ctx → Ctx) : (modCtx s c f).lpPlan = s.lpPlan := rfl
@[simp] theorem modCtx_lpOpen (s : State) (c : Nat) (f : Ctx → Ctx) : (modCtx s c f).lpOpen = s.lpOpen := rfl
@[simp] theorem modCtx_ceNext (s : State) (c : Nat) (f : Ctx → Ctx) : (modCtx s c f).ceNext = s.ceNext := rfl
@[simp] theorem modCtx_rowErr (s : State) (c : Nat) (f : Ctx → Ctx) : (modCtx s c f).rowErr = s.rowErr := rfl
@[simp] theorem modCtx_ppr (s : State) (c : Nat) (f : Ctx → Ctx) : (modCtx s c f).ppr = s.ppr := rfl
@[simp] theorem modCtx_refWin (s : State) (c : Nat) (f : Ctx → Ctx) : (modCtx s c f).refWin = s.refWin := rfl
@[simp] theorem modCtx_scrubAt (s : State) (c : Nat) (f : Ctx → Ctx) : (modCtx s c f).scrubAt = s.scrubAt := rfl
@[simp] theorem modCtx_lnkPlan (s : State) (c : Nat) (f : Ctx → Ctx) : (modCtx s c f).lnkPlan = s.lnkPlan := rfl
@[simp] theorem modCtx_lnkOpen (s : State) (c : Nat) (f : Ctx → Ctx) : (modCtx s c f).lnkOpen = s.lnkOpen := rfl
@[simp] theorem modCtx_congWin (s : State) (c : Nat) (f : Ctx → Ctx) : (modCtx s c f).congWin = s.congWin := rfl
@[simp] theorem modCtx_recPhase (s : State) (c : Nat) (f : Ctx → Ctx) : (modCtx s c f).recPhase = s.recPhase := rfl
@[simp] theorem modCtx_recOpen (s : State) (c : Nat) (f : Ctx → Ctx) : (modCtx s c f).recOpen = s.recOpen := rfl
@[simp] theorem modCtx_protoMajor (s : State) (c : Nat) (f : Ctx → Ctx) : (modCtx s c f).protoMajor = s.protoMajor := rfl
@[simp] theorem modCtx_protoMinor (s : State) (c : Nat) (f : Ctx → Ctx) : (modCtx s c f).protoMinor = s.protoMinor := rfl
@[simp] theorem modCtx_hostMem (s : State) (c : Nat) (f : Ctx → Ctx) : (modCtx s c f).hostMem = s.hostMem := rfl
@[simp] theorem modCtx_winMem (s : State) (c : Nat) (f : Ctx → Ctx) : (modCtx s c f).winMem = s.winMem := rfl
@[simp] theorem modCtx_winVf (s : State) (c : Nat) (f : Ctx → Ctx) : (modCtx s c f).winVf = s.winVf := rfl
@[simp] theorem modCtx_cmds (s : State) (c : Nat) (f : Ctx → Ctx) : (modCtx s c f).cmds = s.cmds := rfl
@[simp] theorem modCtx_outs (s : State) (c : Nat) (f : Ctx → Ctx) : (modCtx s c f).outs = s.outs := rfl
@[simp] theorem modCtx_msix (s : State) (c : Nat) (f : Ctx → Ctx) : (modCtx s c f).msix = s.msix := rfl
@[simp] theorem modCtx_vfApt (s : State) (c : Nat) (f : Ctx → Ctx) : (modCtx s c f).vfApt = s.vfApt := rfl
@[simp] theorem modCtx_ideKeys (s : State) (c : Nat) (f : Ctx → Ctx) : (modCtx s c f).ideKeys = s.ideKeys := rfl
@[simp] theorem modCtx_ideBad (s : State) (c : Nat) (f : Ctx → Ctx) : (modCtx s c f).ideBad = s.ideBad := rfl
@[simp] theorem modCtx_spdmSt (s : State) (c : Nat) (f : Ctx → Ctx) : (modCtx s c f).spdmSt = s.spdmSt := rfl
@[simp] theorem modCtx_sbd (s : State) (c : Nat) (f : Ctx → Ctx) : (modCtx s c f).sbd = s.sbd := rfl
@[simp] theorem modCtx_jtag (s : State) (c : Nat) (f : Ctx → Ctx) : (modCtx s c f).jtag = s.jtag := rfl
@[simp] theorem modCtx_twin (s : State) (c : Nat) (f : Ctx → Ctx) : (modCtx s c f).twin = s.twin := rfl
@[simp] theorem modCtx_hang (s : State) (c : Nat) (f : Ctx → Ctx) : (modCtx s c f).hang = s.hang := rfl
@[simp] theorem modCtx_recAt (s : State) (c : Nat) (f : Ctx → Ctx) : (modCtx s c f).recAt = s.recAt := rfl
@[simp] theorem modCtx_recStep (s : State) (c : Nat) (f : Ctx → Ctx) : (modCtx s c f).recStep = s.recStep := rfl
@[simp] theorem modCtx_pwr (s : State) (c : Nat) (f : Ctx → Ctx) : (modCtx s c f).pwr = s.pwr := rfl
@[simp] theorem modCtx_idle (s : State) (c : Nat) (f : Ctx → Ctx) : (modCtx s c f).idle = s.idle := rfl
@[simp] theorem modCtx_flash (s : State) (c : Nat) (f : Ctx → Ctx) : (modCtx s c f).flash = s.flash := rfl
@[simp] theorem modCtx_fuse (s : State) (c : Nat) (f : Ctx → Ctx) : (modCtx s c f).fuse = s.fuse := rfl
@[simp] theorem modCtx_boot (s : State) (c : Nat) (f : Ctx → Ctx) : (modCtx s c f).boot = s.boot := rfl
@[simp] theorem modCtx_spill (s : State) (c : Nat) (f : Ctx → Ctx) : (modCtx s c f).spill = s.spill := rfl
@[simp] theorem modCtx_gathered (s : State) (c : Nat) (f : Ctx → Ctx) : (modCtx s c f).gathered = s.gathered := rfl
@[simp] theorem modCtx_hostAcc (s : State) (c : Nat) (f : Ctx → Ctx) : (modCtx s c f).hostAcc = s.hostAcc := rfl
@[simp] theorem modCtx_rankQ (s : State) (c : Nat) (f : Ctx → Ctx) : (modCtx s c f).rankQ = s.rankQ := rfl
@[simp] theorem modCtx_flagAt (s : State) (c : Nat) (f : Ctx → Ctx) : (modCtx s c f).flagAt = s.flagAt := rfl
@[simp] theorem modCtx_shadowAt (s : State) (c : Nat) (f : Ctx → Ctx) : (modCtx s c f).shadowAt = s.shadowAt := rfl
@[simp] theorem modCtx_trainStore (s : State) (c : Nat) (f : Ctx → Ctx) : (modCtx s c f).trainStore = s.trainStore := rfl
@[simp] theorem modCtx_lpTrain (s : State) (c : Nat) (f : Ctx → Ctx) : (modCtx s c f).lpTrain = s.lpTrain := rfl

@[simp] theorem setEng_pending (s : State) (g : Nat) (x : Engine) : (setEng s g x).pending = s.pending := rfl
@[simp] theorem setEng_fresh (s : State) (g : Nat) (x : Engine) : (setEng s g x).fresh = s.fresh := rfl
@[simp] theorem setEng_now (s : State) (g : Nat) (x : Engine) : (setEng s g x).now = s.now := rfl
@[simp] theorem setEng_mem (s : State) (g : Nat) (x : Engine) : (setEng s g x).mem = s.mem := rfl
@[simp] theorem setEng_flaw (s : State) (g : Nat) (x : Engine) : (setEng s g x).flaw = s.flaw := rfl
@[simp] theorem setEng_poison (s : State) (g : Nat) (x : Engine) : (setEng s g x).poison = s.poison := rfl
@[simp] theorem setEng_regs (s : State) (g : Nat) (x : Engine) : (setEng s g x).regs = s.regs := rfl
@[simp] theorem setEng_tiles (s : State) (g : Nat) (x : Engine) : (setEng s g x).tiles = s.tiles := rfl
@[simp] theorem setEng_chip (s : State) (g : Nat) (x : Engine) : (setEng s g x).chip = s.chip := rfl
@[simp] theorem setEng_syncNet (s : State) (g : Nat) (x : Engine) : (setEng s g x).syncNet = s.syncNet := rfl
@[simp] theorem setEng_flight (s : State) (g : Nat) (x : Engine) : (setEng s g x).flight = s.flight := rfl
@[simp] theorem setEng_chanW (s : State) (g : Nat) (x : Engine) : (setEng s g x).chanW = s.chanW := rfl
@[simp] theorem setEng_deliv (s : State) (g : Nat) (x : Engine) : (setEng s g x).deliv = s.deliv := rfl
@[simp] theorem setEng_ctxs (s : State) (g : Nat) (x : Engine) : (setEng s g x).ctxs = s.ctxs := rfl
@[simp] theorem setEng_refreshP (s : State) (g : Nat) (x : Engine) : (setEng s g x).refreshP = s.refreshP := rfl
@[simp] theorem setEng_rel (s : State) (g : Nat) (x : Engine) : (setEng s g x).rel = s.rel := rfl
@[simp] theorem setEng_abuf (s : State) (g : Nat) (x : Engine) : (setEng s g x).abuf = s.abuf := rfl
@[simp] theorem setEng_canes (s : State) (g : Nat) (x : Engine) : (setEng s g x).canes = s.canes := rfl
@[simp] theorem setEng_faultHeld (s : State) (g : Nat) (x : Engine) : (setEng s g x).faultHeld = s.faultHeld := rfl
@[simp] theorem setEng_recNext (s : State) (g : Nat) (x : Engine) : (setEng s g x).recNext = s.recNext := rfl
@[simp] theorem setEng_tileMap (s : State) (g : Nat) (x : Engine) : (setEng s g x).tileMap = s.tileMap := rfl
@[simp] theorem setEng_repairRec (s : State) (g : Nat) (x : Engine) : (setEng s g x).repairRec = s.repairRec := rfl
@[simp] theorem setEng_zones (s : State) (g : Nat) (x : Engine) : (setEng s g x).zones = s.zones := rfl
@[simp] theorem setEng_foldB (s : State) (g : Nat) (x : Engine) : (setEng s g x).foldB = s.foldB := rfl
@[simp] theorem setEng_links (s : State) (g : Nat) (x : Engine) : (setEng s g x).links = s.links := rfl
@[simp] theorem setEng_lclk (s : State) (g : Nat) (x : Engine) : (setEng s g x).lclk = s.lclk := rfl
@[simp] theorem setEng_recov (s : State) (g : Nat) (x : Engine) : (setEng s g x).recov = s.recov := rfl
@[simp] theorem setEng_hot (s : State) (g : Nat) (x : Engine) : (setEng s g x).hot = s.hot := rfl
@[simp] theorem setEng_reqq (s : State) (g : Nat) (x : Engine) : (setEng s g x).reqq = s.reqq := rfl
@[simp] theorem setEng_outst (s : State) (g : Nat) (x : Engine) : (setEng s g x).outst = s.outst := rfl
@[simp] theorem setEng_inb (s : State) (g : Nat) (x : Engine) : (setEng s g x).inb = s.inb := rfl
@[simp] theorem setEng_niOut (s : State) (g : Nat) (x : Engine) : (setEng s g x).niOut = s.niOut := rfl
@[simp] theorem setEng_respW (s : State) (g : Nat) (x : Engine) : (setEng s g x).respW = s.respW := rfl
@[simp] theorem setEng_niKey (s : State) (g : Nat) (x : Engine) : (setEng s g x).niKey = s.niKey := rfl
@[simp] theorem setEng_rankC (s : State) (g : Nat) (x : Engine) : (setEng s g x).rankC = s.rankC := rfl
@[simp] theorem setEng_routeC (s : State) (g : Nat) (x : Engine) : (setEng s g x).routeC = s.routeC := rfl
@[simp] theorem setEng_retired (s : State) (g : Nat) (x : Engine) : (setEng s g x).retired = s.retired := rfl
@[simp] theorem setEng_rateWin (s : State) (g : Nat) (x : Engine) : (setEng s g x).rateWin = s.rateWin := rfl
@[simp] theorem setEng_echoed (s : State) (g : Nat) (x : Engine) : (setEng s g x).echoed = s.echoed := rfl
@[simp] theorem setEng_tim (s : State) (g : Nat) (x : Engine) : (setEng s g x).tim = s.tim := rfl
@[simp] theorem setEng_shadow (s : State) (g : Nat) (x : Engine) : (setEng s g x).shadow = s.shadow := rfl
@[simp] theorem setEng_snaps (s : State) (g : Nat) (x : Engine) : (setEng s g x).snaps = s.snaps := rfl
@[simp] theorem setEng_lpUsed (s : State) (g : Nat) (x : Engine) : (setEng s g x).lpUsed = s.lpUsed := rfl
@[simp] theorem setEng_lpPlan (s : State) (g : Nat) (x : Engine) : (setEng s g x).lpPlan = s.lpPlan := rfl
@[simp] theorem setEng_lpOpen (s : State) (g : Nat) (x : Engine) : (setEng s g x).lpOpen = s.lpOpen := rfl
@[simp] theorem setEng_ceNext (s : State) (g : Nat) (x : Engine) : (setEng s g x).ceNext = s.ceNext := rfl
@[simp] theorem setEng_rowErr (s : State) (g : Nat) (x : Engine) : (setEng s g x).rowErr = s.rowErr := rfl
@[simp] theorem setEng_ppr (s : State) (g : Nat) (x : Engine) : (setEng s g x).ppr = s.ppr := rfl
@[simp] theorem setEng_refWin (s : State) (g : Nat) (x : Engine) : (setEng s g x).refWin = s.refWin := rfl
@[simp] theorem setEng_scrubAt (s : State) (g : Nat) (x : Engine) : (setEng s g x).scrubAt = s.scrubAt := rfl
@[simp] theorem setEng_lnkPlan (s : State) (g : Nat) (x : Engine) : (setEng s g x).lnkPlan = s.lnkPlan := rfl
@[simp] theorem setEng_lnkOpen (s : State) (g : Nat) (x : Engine) : (setEng s g x).lnkOpen = s.lnkOpen := rfl
@[simp] theorem setEng_congWin (s : State) (g : Nat) (x : Engine) : (setEng s g x).congWin = s.congWin := rfl
@[simp] theorem setEng_recPhase (s : State) (g : Nat) (x : Engine) : (setEng s g x).recPhase = s.recPhase := rfl
@[simp] theorem setEng_recOpen (s : State) (g : Nat) (x : Engine) : (setEng s g x).recOpen = s.recOpen := rfl
@[simp] theorem setEng_protoMajor (s : State) (g : Nat) (x : Engine) : (setEng s g x).protoMajor = s.protoMajor := rfl
@[simp] theorem setEng_protoMinor (s : State) (g : Nat) (x : Engine) : (setEng s g x).protoMinor = s.protoMinor := rfl
@[simp] theorem setEng_hostMem (s : State) (g : Nat) (x : Engine) : (setEng s g x).hostMem = s.hostMem := rfl
@[simp] theorem setEng_winMem (s : State) (g : Nat) (x : Engine) : (setEng s g x).winMem = s.winMem := rfl
@[simp] theorem setEng_winVf (s : State) (g : Nat) (x : Engine) : (setEng s g x).winVf = s.winVf := rfl
@[simp] theorem setEng_cmds (s : State) (g : Nat) (x : Engine) : (setEng s g x).cmds = s.cmds := rfl
@[simp] theorem setEng_outs (s : State) (g : Nat) (x : Engine) : (setEng s g x).outs = s.outs := rfl
@[simp] theorem setEng_msix (s : State) (g : Nat) (x : Engine) : (setEng s g x).msix = s.msix := rfl
@[simp] theorem setEng_vfApt (s : State) (g : Nat) (x : Engine) : (setEng s g x).vfApt = s.vfApt := rfl
@[simp] theorem setEng_ideKeys (s : State) (g : Nat) (x : Engine) : (setEng s g x).ideKeys = s.ideKeys := rfl
@[simp] theorem setEng_ideBad (s : State) (g : Nat) (x : Engine) : (setEng s g x).ideBad = s.ideBad := rfl
@[simp] theorem setEng_spdmSt (s : State) (g : Nat) (x : Engine) : (setEng s g x).spdmSt = s.spdmSt := rfl
@[simp] theorem setEng_sbd (s : State) (g : Nat) (x : Engine) : (setEng s g x).sbd = s.sbd := rfl
@[simp] theorem setEng_jtag (s : State) (g : Nat) (x : Engine) : (setEng s g x).jtag = s.jtag := rfl
@[simp] theorem setEng_twin (s : State) (g : Nat) (x : Engine) : (setEng s g x).twin = s.twin := rfl
@[simp] theorem setEng_hang (s : State) (g : Nat) (x : Engine) : (setEng s g x).hang = s.hang := rfl
@[simp] theorem setEng_recAt (s : State) (g : Nat) (x : Engine) : (setEng s g x).recAt = s.recAt := rfl
@[simp] theorem setEng_recStep (s : State) (g : Nat) (x : Engine) : (setEng s g x).recStep = s.recStep := rfl
@[simp] theorem setEng_pwr (s : State) (g : Nat) (x : Engine) : (setEng s g x).pwr = s.pwr := rfl
@[simp] theorem setEng_idle (s : State) (g : Nat) (x : Engine) : (setEng s g x).idle = s.idle := rfl
@[simp] theorem setEng_flash (s : State) (g : Nat) (x : Engine) : (setEng s g x).flash = s.flash := rfl
@[simp] theorem setEng_fuse (s : State) (g : Nat) (x : Engine) : (setEng s g x).fuse = s.fuse := rfl
@[simp] theorem setEng_boot (s : State) (g : Nat) (x : Engine) : (setEng s g x).boot = s.boot := rfl
@[simp] theorem setEng_spill (s : State) (g : Nat) (x : Engine) : (setEng s g x).spill = s.spill := rfl
@[simp] theorem setEng_gathered (s : State) (g : Nat) (x : Engine) : (setEng s g x).gathered = s.gathered := rfl
@[simp] theorem setEng_hostAcc (s : State) (g : Nat) (x : Engine) : (setEng s g x).hostAcc = s.hostAcc := rfl
@[simp] theorem setEng_rankQ (s : State) (g : Nat) (x : Engine) : (setEng s g x).rankQ = s.rankQ := rfl
@[simp] theorem setEng_flagAt (s : State) (g : Nat) (x : Engine) : (setEng s g x).flagAt = s.flagAt := rfl
@[simp] theorem setEng_shadowAt (s : State) (g : Nat) (x : Engine) : (setEng s g x).shadowAt = s.shadowAt := rfl
@[simp] theorem setEng_trainStore (s : State) (g : Nat) (x : Engine) : (setEng s g x).trainStore = s.trainStore := rfl
@[simp] theorem setEng_lpTrain (s : State) (g : Nat) (x : Engine) : (setEng s g x).lpTrain = s.lpTrain := rfl

@[simp] theorem modEng_pending (s : State) (g : Nat) (f : Engine → Engine) : (modEng s g f).pending = s.pending := rfl
@[simp] theorem modEng_fresh (s : State) (g : Nat) (f : Engine → Engine) : (modEng s g f).fresh = s.fresh := rfl
@[simp] theorem modEng_now (s : State) (g : Nat) (f : Engine → Engine) : (modEng s g f).now = s.now := rfl
@[simp] theorem modEng_mem (s : State) (g : Nat) (f : Engine → Engine) : (modEng s g f).mem = s.mem := rfl
@[simp] theorem modEng_flaw (s : State) (g : Nat) (f : Engine → Engine) : (modEng s g f).flaw = s.flaw := rfl
@[simp] theorem modEng_poison (s : State) (g : Nat) (f : Engine → Engine) : (modEng s g f).poison = s.poison := rfl
@[simp] theorem modEng_regs (s : State) (g : Nat) (f : Engine → Engine) : (modEng s g f).regs = s.regs := rfl
@[simp] theorem modEng_tiles (s : State) (g : Nat) (f : Engine → Engine) : (modEng s g f).tiles = s.tiles := rfl
@[simp] theorem modEng_chip (s : State) (g : Nat) (f : Engine → Engine) : (modEng s g f).chip = s.chip := rfl
@[simp] theorem modEng_syncNet (s : State) (g : Nat) (f : Engine → Engine) : (modEng s g f).syncNet = s.syncNet := rfl
@[simp] theorem modEng_flight (s : State) (g : Nat) (f : Engine → Engine) : (modEng s g f).flight = s.flight := rfl
@[simp] theorem modEng_chanW (s : State) (g : Nat) (f : Engine → Engine) : (modEng s g f).chanW = s.chanW := rfl
@[simp] theorem modEng_deliv (s : State) (g : Nat) (f : Engine → Engine) : (modEng s g f).deliv = s.deliv := rfl
@[simp] theorem modEng_ctxs (s : State) (g : Nat) (f : Engine → Engine) : (modEng s g f).ctxs = s.ctxs := rfl
@[simp] theorem modEng_refreshP (s : State) (g : Nat) (f : Engine → Engine) : (modEng s g f).refreshP = s.refreshP := rfl
@[simp] theorem modEng_rel (s : State) (g : Nat) (f : Engine → Engine) : (modEng s g f).rel = s.rel := rfl
@[simp] theorem modEng_abuf (s : State) (g : Nat) (f : Engine → Engine) : (modEng s g f).abuf = s.abuf := rfl
@[simp] theorem modEng_canes (s : State) (g : Nat) (f : Engine → Engine) : (modEng s g f).canes = s.canes := rfl
@[simp] theorem modEng_faultHeld (s : State) (g : Nat) (f : Engine → Engine) : (modEng s g f).faultHeld = s.faultHeld := rfl
@[simp] theorem modEng_recNext (s : State) (g : Nat) (f : Engine → Engine) : (modEng s g f).recNext = s.recNext := rfl
@[simp] theorem modEng_tileMap (s : State) (g : Nat) (f : Engine → Engine) : (modEng s g f).tileMap = s.tileMap := rfl
@[simp] theorem modEng_repairRec (s : State) (g : Nat) (f : Engine → Engine) : (modEng s g f).repairRec = s.repairRec := rfl
@[simp] theorem modEng_zones (s : State) (g : Nat) (f : Engine → Engine) : (modEng s g f).zones = s.zones := rfl
@[simp] theorem modEng_foldB (s : State) (g : Nat) (f : Engine → Engine) : (modEng s g f).foldB = s.foldB := rfl
@[simp] theorem modEng_links (s : State) (g : Nat) (f : Engine → Engine) : (modEng s g f).links = s.links := rfl
@[simp] theorem modEng_lclk (s : State) (g : Nat) (f : Engine → Engine) : (modEng s g f).lclk = s.lclk := rfl
@[simp] theorem modEng_recov (s : State) (g : Nat) (f : Engine → Engine) : (modEng s g f).recov = s.recov := rfl
@[simp] theorem modEng_hot (s : State) (g : Nat) (f : Engine → Engine) : (modEng s g f).hot = s.hot := rfl
@[simp] theorem modEng_reqq (s : State) (g : Nat) (f : Engine → Engine) : (modEng s g f).reqq = s.reqq := rfl
@[simp] theorem modEng_outst (s : State) (g : Nat) (f : Engine → Engine) : (modEng s g f).outst = s.outst := rfl
@[simp] theorem modEng_inb (s : State) (g : Nat) (f : Engine → Engine) : (modEng s g f).inb = s.inb := rfl
@[simp] theorem modEng_niOut (s : State) (g : Nat) (f : Engine → Engine) : (modEng s g f).niOut = s.niOut := rfl
@[simp] theorem modEng_respW (s : State) (g : Nat) (f : Engine → Engine) : (modEng s g f).respW = s.respW := rfl
@[simp] theorem modEng_niKey (s : State) (g : Nat) (f : Engine → Engine) : (modEng s g f).niKey = s.niKey := rfl
@[simp] theorem modEng_rankC (s : State) (g : Nat) (f : Engine → Engine) : (modEng s g f).rankC = s.rankC := rfl
@[simp] theorem modEng_routeC (s : State) (g : Nat) (f : Engine → Engine) : (modEng s g f).routeC = s.routeC := rfl
@[simp] theorem modEng_retired (s : State) (g : Nat) (f : Engine → Engine) : (modEng s g f).retired = s.retired := rfl
@[simp] theorem modEng_rateWin (s : State) (g : Nat) (f : Engine → Engine) : (modEng s g f).rateWin = s.rateWin := rfl
@[simp] theorem modEng_echoed (s : State) (g : Nat) (f : Engine → Engine) : (modEng s g f).echoed = s.echoed := rfl
@[simp] theorem modEng_tim (s : State) (g : Nat) (f : Engine → Engine) : (modEng s g f).tim = s.tim := rfl
@[simp] theorem modEng_shadow (s : State) (g : Nat) (f : Engine → Engine) : (modEng s g f).shadow = s.shadow := rfl
@[simp] theorem modEng_snaps (s : State) (g : Nat) (f : Engine → Engine) : (modEng s g f).snaps = s.snaps := rfl
@[simp] theorem modEng_lpUsed (s : State) (g : Nat) (f : Engine → Engine) : (modEng s g f).lpUsed = s.lpUsed := rfl
@[simp] theorem modEng_lpPlan (s : State) (g : Nat) (f : Engine → Engine) : (modEng s g f).lpPlan = s.lpPlan := rfl
@[simp] theorem modEng_lpOpen (s : State) (g : Nat) (f : Engine → Engine) : (modEng s g f).lpOpen = s.lpOpen := rfl
@[simp] theorem modEng_ceNext (s : State) (g : Nat) (f : Engine → Engine) : (modEng s g f).ceNext = s.ceNext := rfl
@[simp] theorem modEng_rowErr (s : State) (g : Nat) (f : Engine → Engine) : (modEng s g f).rowErr = s.rowErr := rfl
@[simp] theorem modEng_ppr (s : State) (g : Nat) (f : Engine → Engine) : (modEng s g f).ppr = s.ppr := rfl
@[simp] theorem modEng_refWin (s : State) (g : Nat) (f : Engine → Engine) : (modEng s g f).refWin = s.refWin := rfl
@[simp] theorem modEng_scrubAt (s : State) (g : Nat) (f : Engine → Engine) : (modEng s g f).scrubAt = s.scrubAt := rfl
@[simp] theorem modEng_lnkPlan (s : State) (g : Nat) (f : Engine → Engine) : (modEng s g f).lnkPlan = s.lnkPlan := rfl
@[simp] theorem modEng_lnkOpen (s : State) (g : Nat) (f : Engine → Engine) : (modEng s g f).lnkOpen = s.lnkOpen := rfl
@[simp] theorem modEng_congWin (s : State) (g : Nat) (f : Engine → Engine) : (modEng s g f).congWin = s.congWin := rfl
@[simp] theorem modEng_recPhase (s : State) (g : Nat) (f : Engine → Engine) : (modEng s g f).recPhase = s.recPhase := rfl
@[simp] theorem modEng_recOpen (s : State) (g : Nat) (f : Engine → Engine) : (modEng s g f).recOpen = s.recOpen := rfl
@[simp] theorem modEng_protoMajor (s : State) (g : Nat) (f : Engine → Engine) : (modEng s g f).protoMajor = s.protoMajor := rfl
@[simp] theorem modEng_protoMinor (s : State) (g : Nat) (f : Engine → Engine) : (modEng s g f).protoMinor = s.protoMinor := rfl
@[simp] theorem modEng_hostMem (s : State) (g : Nat) (f : Engine → Engine) : (modEng s g f).hostMem = s.hostMem := rfl
@[simp] theorem modEng_winMem (s : State) (g : Nat) (f : Engine → Engine) : (modEng s g f).winMem = s.winMem := rfl
@[simp] theorem modEng_winVf (s : State) (g : Nat) (f : Engine → Engine) : (modEng s g f).winVf = s.winVf := rfl
@[simp] theorem modEng_cmds (s : State) (g : Nat) (f : Engine → Engine) : (modEng s g f).cmds = s.cmds := rfl
@[simp] theorem modEng_outs (s : State) (g : Nat) (f : Engine → Engine) : (modEng s g f).outs = s.outs := rfl
@[simp] theorem modEng_msix (s : State) (g : Nat) (f : Engine → Engine) : (modEng s g f).msix = s.msix := rfl
@[simp] theorem modEng_vfApt (s : State) (g : Nat) (f : Engine → Engine) : (modEng s g f).vfApt = s.vfApt := rfl
@[simp] theorem modEng_ideKeys (s : State) (g : Nat) (f : Engine → Engine) : (modEng s g f).ideKeys = s.ideKeys := rfl
@[simp] theorem modEng_ideBad (s : State) (g : Nat) (f : Engine → Engine) : (modEng s g f).ideBad = s.ideBad := rfl
@[simp] theorem modEng_spdmSt (s : State) (g : Nat) (f : Engine → Engine) : (modEng s g f).spdmSt = s.spdmSt := rfl
@[simp] theorem modEng_sbd (s : State) (g : Nat) (f : Engine → Engine) : (modEng s g f).sbd = s.sbd := rfl
@[simp] theorem modEng_jtag (s : State) (g : Nat) (f : Engine → Engine) : (modEng s g f).jtag = s.jtag := rfl
@[simp] theorem modEng_twin (s : State) (g : Nat) (f : Engine → Engine) : (modEng s g f).twin = s.twin := rfl
@[simp] theorem modEng_hang (s : State) (g : Nat) (f : Engine → Engine) : (modEng s g f).hang = s.hang := rfl
@[simp] theorem modEng_recAt (s : State) (g : Nat) (f : Engine → Engine) : (modEng s g f).recAt = s.recAt := rfl
@[simp] theorem modEng_recStep (s : State) (g : Nat) (f : Engine → Engine) : (modEng s g f).recStep = s.recStep := rfl
@[simp] theorem modEng_pwr (s : State) (g : Nat) (f : Engine → Engine) : (modEng s g f).pwr = s.pwr := rfl
@[simp] theorem modEng_idle (s : State) (g : Nat) (f : Engine → Engine) : (modEng s g f).idle = s.idle := rfl
@[simp] theorem modEng_flash (s : State) (g : Nat) (f : Engine → Engine) : (modEng s g f).flash = s.flash := rfl
@[simp] theorem modEng_fuse (s : State) (g : Nat) (f : Engine → Engine) : (modEng s g f).fuse = s.fuse := rfl
@[simp] theorem modEng_boot (s : State) (g : Nat) (f : Engine → Engine) : (modEng s g f).boot = s.boot := rfl
@[simp] theorem modEng_spill (s : State) (g : Nat) (f : Engine → Engine) : (modEng s g f).spill = s.spill := rfl
@[simp] theorem modEng_gathered (s : State) (g : Nat) (f : Engine → Engine) : (modEng s g f).gathered = s.gathered := rfl
@[simp] theorem modEng_hostAcc (s : State) (g : Nat) (f : Engine → Engine) : (modEng s g f).hostAcc = s.hostAcc := rfl
@[simp] theorem modEng_rankQ (s : State) (g : Nat) (f : Engine → Engine) : (modEng s g f).rankQ = s.rankQ := rfl
@[simp] theorem modEng_flagAt (s : State) (g : Nat) (f : Engine → Engine) : (modEng s g f).flagAt = s.flagAt := rfl
@[simp] theorem modEng_shadowAt (s : State) (g : Nat) (f : Engine → Engine) : (modEng s g f).shadowAt = s.shadowAt := rfl
@[simp] theorem modEng_trainStore (s : State) (g : Nat) (f : Engine → Engine) : (modEng s g f).trainStore = s.trainStore := rfl
@[simp] theorem modEng_lpTrain (s : State) (g : Nat) (f : Engine → Engine) : (modEng s g f).lpTrain = s.lpTrain := rfl

@[simp] theorem setZone_pending (s : State) (z : Nat) (x : Zone) : (setZone s z x).pending = s.pending := rfl
@[simp] theorem setZone_fresh (s : State) (z : Nat) (x : Zone) : (setZone s z x).fresh = s.fresh := rfl
@[simp] theorem setZone_now (s : State) (z : Nat) (x : Zone) : (setZone s z x).now = s.now := rfl
@[simp] theorem setZone_mem (s : State) (z : Nat) (x : Zone) : (setZone s z x).mem = s.mem := rfl
@[simp] theorem setZone_flaw (s : State) (z : Nat) (x : Zone) : (setZone s z x).flaw = s.flaw := rfl
@[simp] theorem setZone_poison (s : State) (z : Nat) (x : Zone) : (setZone s z x).poison = s.poison := rfl
@[simp] theorem setZone_regs (s : State) (z : Nat) (x : Zone) : (setZone s z x).regs = s.regs := rfl
@[simp] theorem setZone_tiles (s : State) (z : Nat) (x : Zone) : (setZone s z x).tiles = s.tiles := rfl
@[simp] theorem setZone_chip (s : State) (z : Nat) (x : Zone) : (setZone s z x).chip = s.chip := rfl
@[simp] theorem setZone_syncNet (s : State) (z : Nat) (x : Zone) : (setZone s z x).syncNet = s.syncNet := rfl
@[simp] theorem setZone_flight (s : State) (z : Nat) (x : Zone) : (setZone s z x).flight = s.flight := rfl
@[simp] theorem setZone_chanW (s : State) (z : Nat) (x : Zone) : (setZone s z x).chanW = s.chanW := rfl
@[simp] theorem setZone_deliv (s : State) (z : Nat) (x : Zone) : (setZone s z x).deliv = s.deliv := rfl
@[simp] theorem setZone_ctxs (s : State) (z : Nat) (x : Zone) : (setZone s z x).ctxs = s.ctxs := rfl
@[simp] theorem setZone_engines (s : State) (z : Nat) (x : Zone) : (setZone s z x).engines = s.engines := rfl
@[simp] theorem setZone_refreshP (s : State) (z : Nat) (x : Zone) : (setZone s z x).refreshP = s.refreshP := rfl
@[simp] theorem setZone_rel (s : State) (z : Nat) (x : Zone) : (setZone s z x).rel = s.rel := rfl
@[simp] theorem setZone_abuf (s : State) (z : Nat) (x : Zone) : (setZone s z x).abuf = s.abuf := rfl
@[simp] theorem setZone_canes (s : State) (z : Nat) (x : Zone) : (setZone s z x).canes = s.canes := rfl
@[simp] theorem setZone_faultHeld (s : State) (z : Nat) (x : Zone) : (setZone s z x).faultHeld = s.faultHeld := rfl
@[simp] theorem setZone_recNext (s : State) (z : Nat) (x : Zone) : (setZone s z x).recNext = s.recNext := rfl
@[simp] theorem setZone_tileMap (s : State) (z : Nat) (x : Zone) : (setZone s z x).tileMap = s.tileMap := rfl
@[simp] theorem setZone_repairRec (s : State) (z : Nat) (x : Zone) : (setZone s z x).repairRec = s.repairRec := rfl
@[simp] theorem setZone_foldB (s : State) (z : Nat) (x : Zone) : (setZone s z x).foldB = s.foldB := rfl
@[simp] theorem setZone_links (s : State) (z : Nat) (x : Zone) : (setZone s z x).links = s.links := rfl
@[simp] theorem setZone_lclk (s : State) (z : Nat) (x : Zone) : (setZone s z x).lclk = s.lclk := rfl
@[simp] theorem setZone_recov (s : State) (z : Nat) (x : Zone) : (setZone s z x).recov = s.recov := rfl
@[simp] theorem setZone_hot (s : State) (z : Nat) (x : Zone) : (setZone s z x).hot = s.hot := rfl
@[simp] theorem setZone_reqq (s : State) (z : Nat) (x : Zone) : (setZone s z x).reqq = s.reqq := rfl
@[simp] theorem setZone_outst (s : State) (z : Nat) (x : Zone) : (setZone s z x).outst = s.outst := rfl
@[simp] theorem setZone_inb (s : State) (z : Nat) (x : Zone) : (setZone s z x).inb = s.inb := rfl
@[simp] theorem setZone_niOut (s : State) (z : Nat) (x : Zone) : (setZone s z x).niOut = s.niOut := rfl
@[simp] theorem setZone_respW (s : State) (z : Nat) (x : Zone) : (setZone s z x).respW = s.respW := rfl
@[simp] theorem setZone_niKey (s : State) (z : Nat) (x : Zone) : (setZone s z x).niKey = s.niKey := rfl
@[simp] theorem setZone_rankC (s : State) (z : Nat) (x : Zone) : (setZone s z x).rankC = s.rankC := rfl
@[simp] theorem setZone_routeC (s : State) (z : Nat) (x : Zone) : (setZone s z x).routeC = s.routeC := rfl
@[simp] theorem setZone_retired (s : State) (z : Nat) (x : Zone) : (setZone s z x).retired = s.retired := rfl
@[simp] theorem setZone_rateWin (s : State) (z : Nat) (x : Zone) : (setZone s z x).rateWin = s.rateWin := rfl
@[simp] theorem setZone_echoed (s : State) (z : Nat) (x : Zone) : (setZone s z x).echoed = s.echoed := rfl
@[simp] theorem setZone_tim (s : State) (z : Nat) (x : Zone) : (setZone s z x).tim = s.tim := rfl
@[simp] theorem setZone_shadow (s : State) (z : Nat) (x : Zone) : (setZone s z x).shadow = s.shadow := rfl
@[simp] theorem setZone_snaps (s : State) (z : Nat) (x : Zone) : (setZone s z x).snaps = s.snaps := rfl
@[simp] theorem setZone_lpUsed (s : State) (z : Nat) (x : Zone) : (setZone s z x).lpUsed = s.lpUsed := rfl
@[simp] theorem setZone_lpPlan (s : State) (z : Nat) (x : Zone) : (setZone s z x).lpPlan = s.lpPlan := rfl
@[simp] theorem setZone_lpOpen (s : State) (z : Nat) (x : Zone) : (setZone s z x).lpOpen = s.lpOpen := rfl
@[simp] theorem setZone_ceNext (s : State) (z : Nat) (x : Zone) : (setZone s z x).ceNext = s.ceNext := rfl
@[simp] theorem setZone_rowErr (s : State) (z : Nat) (x : Zone) : (setZone s z x).rowErr = s.rowErr := rfl
@[simp] theorem setZone_ppr (s : State) (z : Nat) (x : Zone) : (setZone s z x).ppr = s.ppr := rfl
@[simp] theorem setZone_refWin (s : State) (z : Nat) (x : Zone) : (setZone s z x).refWin = s.refWin := rfl
@[simp] theorem setZone_scrubAt (s : State) (z : Nat) (x : Zone) : (setZone s z x).scrubAt = s.scrubAt := rfl
@[simp] theorem setZone_lnkPlan (s : State) (z : Nat) (x : Zone) : (setZone s z x).lnkPlan = s.lnkPlan := rfl
@[simp] theorem setZone_lnkOpen (s : State) (z : Nat) (x : Zone) : (setZone s z x).lnkOpen = s.lnkOpen := rfl
@[simp] theorem setZone_congWin (s : State) (z : Nat) (x : Zone) : (setZone s z x).congWin = s.congWin := rfl
@[simp] theorem setZone_recPhase (s : State) (z : Nat) (x : Zone) : (setZone s z x).recPhase = s.recPhase := rfl
@[simp] theorem setZone_recOpen (s : State) (z : Nat) (x : Zone) : (setZone s z x).recOpen = s.recOpen := rfl
@[simp] theorem setZone_protoMajor (s : State) (z : Nat) (x : Zone) : (setZone s z x).protoMajor = s.protoMajor := rfl
@[simp] theorem setZone_protoMinor (s : State) (z : Nat) (x : Zone) : (setZone s z x).protoMinor = s.protoMinor := rfl
@[simp] theorem setZone_hostMem (s : State) (z : Nat) (x : Zone) : (setZone s z x).hostMem = s.hostMem := rfl
@[simp] theorem setZone_winMem (s : State) (z : Nat) (x : Zone) : (setZone s z x).winMem = s.winMem := rfl
@[simp] theorem setZone_winVf (s : State) (z : Nat) (x : Zone) : (setZone s z x).winVf = s.winVf := rfl
@[simp] theorem setZone_cmds (s : State) (z : Nat) (x : Zone) : (setZone s z x).cmds = s.cmds := rfl
@[simp] theorem setZone_outs (s : State) (z : Nat) (x : Zone) : (setZone s z x).outs = s.outs := rfl
@[simp] theorem setZone_msix (s : State) (z : Nat) (x : Zone) : (setZone s z x).msix = s.msix := rfl
@[simp] theorem setZone_vfApt (s : State) (z : Nat) (x : Zone) : (setZone s z x).vfApt = s.vfApt := rfl
@[simp] theorem setZone_ideKeys (s : State) (z : Nat) (x : Zone) : (setZone s z x).ideKeys = s.ideKeys := rfl
@[simp] theorem setZone_ideBad (s : State) (z : Nat) (x : Zone) : (setZone s z x).ideBad = s.ideBad := rfl
@[simp] theorem setZone_spdmSt (s : State) (z : Nat) (x : Zone) : (setZone s z x).spdmSt = s.spdmSt := rfl
@[simp] theorem setZone_sbd (s : State) (z : Nat) (x : Zone) : (setZone s z x).sbd = s.sbd := rfl
@[simp] theorem setZone_jtag (s : State) (z : Nat) (x : Zone) : (setZone s z x).jtag = s.jtag := rfl
@[simp] theorem setZone_twin (s : State) (z : Nat) (x : Zone) : (setZone s z x).twin = s.twin := rfl
@[simp] theorem setZone_hang (s : State) (z : Nat) (x : Zone) : (setZone s z x).hang = s.hang := rfl
@[simp] theorem setZone_recAt (s : State) (z : Nat) (x : Zone) : (setZone s z x).recAt = s.recAt := rfl
@[simp] theorem setZone_recStep (s : State) (z : Nat) (x : Zone) : (setZone s z x).recStep = s.recStep := rfl
@[simp] theorem setZone_pwr (s : State) (z : Nat) (x : Zone) : (setZone s z x).pwr = s.pwr := rfl
@[simp] theorem setZone_idle (s : State) (z : Nat) (x : Zone) : (setZone s z x).idle = s.idle := rfl
@[simp] theorem setZone_flash (s : State) (z : Nat) (x : Zone) : (setZone s z x).flash = s.flash := rfl
@[simp] theorem setZone_fuse (s : State) (z : Nat) (x : Zone) : (setZone s z x).fuse = s.fuse := rfl
@[simp] theorem setZone_boot (s : State) (z : Nat) (x : Zone) : (setZone s z x).boot = s.boot := rfl
@[simp] theorem setZone_spill (s : State) (z : Nat) (x : Zone) : (setZone s z x).spill = s.spill := rfl
@[simp] theorem setZone_gathered (s : State) (z : Nat) (x : Zone) : (setZone s z x).gathered = s.gathered := rfl
@[simp] theorem setZone_hostAcc (s : State) (z : Nat) (x : Zone) : (setZone s z x).hostAcc = s.hostAcc := rfl
@[simp] theorem setZone_rankQ (s : State) (z : Nat) (x : Zone) : (setZone s z x).rankQ = s.rankQ := rfl
@[simp] theorem setZone_flagAt (s : State) (z : Nat) (x : Zone) : (setZone s z x).flagAt = s.flagAt := rfl
@[simp] theorem setZone_shadowAt (s : State) (z : Nat) (x : Zone) : (setZone s z x).shadowAt = s.shadowAt := rfl
@[simp] theorem setZone_trainStore (s : State) (z : Nat) (x : Zone) : (setZone s z x).trainStore = s.trainStore := rfl
@[simp] theorem setZone_lpTrain (s : State) (z : Nat) (x : Zone) : (setZone s z x).lpTrain = s.lpTrain := rfl

@[simp] theorem modZone_pending (s : State) (z : Nat) (f : Zone → Zone) : (modZone s z f).pending = s.pending := rfl
@[simp] theorem modZone_fresh (s : State) (z : Nat) (f : Zone → Zone) : (modZone s z f).fresh = s.fresh := rfl
@[simp] theorem modZone_now (s : State) (z : Nat) (f : Zone → Zone) : (modZone s z f).now = s.now := rfl
@[simp] theorem modZone_mem (s : State) (z : Nat) (f : Zone → Zone) : (modZone s z f).mem = s.mem := rfl
@[simp] theorem modZone_flaw (s : State) (z : Nat) (f : Zone → Zone) : (modZone s z f).flaw = s.flaw := rfl
@[simp] theorem modZone_poison (s : State) (z : Nat) (f : Zone → Zone) : (modZone s z f).poison = s.poison := rfl
@[simp] theorem modZone_regs (s : State) (z : Nat) (f : Zone → Zone) : (modZone s z f).regs = s.regs := rfl
@[simp] theorem modZone_tiles (s : State) (z : Nat) (f : Zone → Zone) : (modZone s z f).tiles = s.tiles := rfl
@[simp] theorem modZone_chip (s : State) (z : Nat) (f : Zone → Zone) : (modZone s z f).chip = s.chip := rfl
@[simp] theorem modZone_syncNet (s : State) (z : Nat) (f : Zone → Zone) : (modZone s z f).syncNet = s.syncNet := rfl
@[simp] theorem modZone_flight (s : State) (z : Nat) (f : Zone → Zone) : (modZone s z f).flight = s.flight := rfl
@[simp] theorem modZone_chanW (s : State) (z : Nat) (f : Zone → Zone) : (modZone s z f).chanW = s.chanW := rfl
@[simp] theorem modZone_deliv (s : State) (z : Nat) (f : Zone → Zone) : (modZone s z f).deliv = s.deliv := rfl
@[simp] theorem modZone_ctxs (s : State) (z : Nat) (f : Zone → Zone) : (modZone s z f).ctxs = s.ctxs := rfl
@[simp] theorem modZone_engines (s : State) (z : Nat) (f : Zone → Zone) : (modZone s z f).engines = s.engines := rfl
@[simp] theorem modZone_refreshP (s : State) (z : Nat) (f : Zone → Zone) : (modZone s z f).refreshP = s.refreshP := rfl
@[simp] theorem modZone_rel (s : State) (z : Nat) (f : Zone → Zone) : (modZone s z f).rel = s.rel := rfl
@[simp] theorem modZone_abuf (s : State) (z : Nat) (f : Zone → Zone) : (modZone s z f).abuf = s.abuf := rfl
@[simp] theorem modZone_canes (s : State) (z : Nat) (f : Zone → Zone) : (modZone s z f).canes = s.canes := rfl
@[simp] theorem modZone_faultHeld (s : State) (z : Nat) (f : Zone → Zone) : (modZone s z f).faultHeld = s.faultHeld := rfl
@[simp] theorem modZone_recNext (s : State) (z : Nat) (f : Zone → Zone) : (modZone s z f).recNext = s.recNext := rfl
@[simp] theorem modZone_tileMap (s : State) (z : Nat) (f : Zone → Zone) : (modZone s z f).tileMap = s.tileMap := rfl
@[simp] theorem modZone_repairRec (s : State) (z : Nat) (f : Zone → Zone) : (modZone s z f).repairRec = s.repairRec := rfl
@[simp] theorem modZone_foldB (s : State) (z : Nat) (f : Zone → Zone) : (modZone s z f).foldB = s.foldB := rfl
@[simp] theorem modZone_links (s : State) (z : Nat) (f : Zone → Zone) : (modZone s z f).links = s.links := rfl
@[simp] theorem modZone_lclk (s : State) (z : Nat) (f : Zone → Zone) : (modZone s z f).lclk = s.lclk := rfl
@[simp] theorem modZone_recov (s : State) (z : Nat) (f : Zone → Zone) : (modZone s z f).recov = s.recov := rfl
@[simp] theorem modZone_hot (s : State) (z : Nat) (f : Zone → Zone) : (modZone s z f).hot = s.hot := rfl
@[simp] theorem modZone_reqq (s : State) (z : Nat) (f : Zone → Zone) : (modZone s z f).reqq = s.reqq := rfl
@[simp] theorem modZone_outst (s : State) (z : Nat) (f : Zone → Zone) : (modZone s z f).outst = s.outst := rfl
@[simp] theorem modZone_inb (s : State) (z : Nat) (f : Zone → Zone) : (modZone s z f).inb = s.inb := rfl
@[simp] theorem modZone_niOut (s : State) (z : Nat) (f : Zone → Zone) : (modZone s z f).niOut = s.niOut := rfl
@[simp] theorem modZone_respW (s : State) (z : Nat) (f : Zone → Zone) : (modZone s z f).respW = s.respW := rfl
@[simp] theorem modZone_niKey (s : State) (z : Nat) (f : Zone → Zone) : (modZone s z f).niKey = s.niKey := rfl
@[simp] theorem modZone_rankC (s : State) (z : Nat) (f : Zone → Zone) : (modZone s z f).rankC = s.rankC := rfl
@[simp] theorem modZone_routeC (s : State) (z : Nat) (f : Zone → Zone) : (modZone s z f).routeC = s.routeC := rfl
@[simp] theorem modZone_retired (s : State) (z : Nat) (f : Zone → Zone) : (modZone s z f).retired = s.retired := rfl
@[simp] theorem modZone_rateWin (s : State) (z : Nat) (f : Zone → Zone) : (modZone s z f).rateWin = s.rateWin := rfl
@[simp] theorem modZone_echoed (s : State) (z : Nat) (f : Zone → Zone) : (modZone s z f).echoed = s.echoed := rfl
@[simp] theorem modZone_tim (s : State) (z : Nat) (f : Zone → Zone) : (modZone s z f).tim = s.tim := rfl
@[simp] theorem modZone_shadow (s : State) (z : Nat) (f : Zone → Zone) : (modZone s z f).shadow = s.shadow := rfl
@[simp] theorem modZone_snaps (s : State) (z : Nat) (f : Zone → Zone) : (modZone s z f).snaps = s.snaps := rfl
@[simp] theorem modZone_lpUsed (s : State) (z : Nat) (f : Zone → Zone) : (modZone s z f).lpUsed = s.lpUsed := rfl
@[simp] theorem modZone_lpPlan (s : State) (z : Nat) (f : Zone → Zone) : (modZone s z f).lpPlan = s.lpPlan := rfl
@[simp] theorem modZone_lpOpen (s : State) (z : Nat) (f : Zone → Zone) : (modZone s z f).lpOpen = s.lpOpen := rfl
@[simp] theorem modZone_ceNext (s : State) (z : Nat) (f : Zone → Zone) : (modZone s z f).ceNext = s.ceNext := rfl
@[simp] theorem modZone_rowErr (s : State) (z : Nat) (f : Zone → Zone) : (modZone s z f).rowErr = s.rowErr := rfl
@[simp] theorem modZone_ppr (s : State) (z : Nat) (f : Zone → Zone) : (modZone s z f).ppr = s.ppr := rfl
@[simp] theorem modZone_refWin (s : State) (z : Nat) (f : Zone → Zone) : (modZone s z f).refWin = s.refWin := rfl
@[simp] theorem modZone_scrubAt (s : State) (z : Nat) (f : Zone → Zone) : (modZone s z f).scrubAt = s.scrubAt := rfl
@[simp] theorem modZone_lnkPlan (s : State) (z : Nat) (f : Zone → Zone) : (modZone s z f).lnkPlan = s.lnkPlan := rfl
@[simp] theorem modZone_lnkOpen (s : State) (z : Nat) (f : Zone → Zone) : (modZone s z f).lnkOpen = s.lnkOpen := rfl
@[simp] theorem modZone_congWin (s : State) (z : Nat) (f : Zone → Zone) : (modZone s z f).congWin = s.congWin := rfl
@[simp] theorem modZone_recPhase (s : State) (z : Nat) (f : Zone → Zone) : (modZone s z f).recPhase = s.recPhase := rfl
@[simp] theorem modZone_recOpen (s : State) (z : Nat) (f : Zone → Zone) : (modZone s z f).recOpen = s.recOpen := rfl
@[simp] theorem modZone_protoMajor (s : State) (z : Nat) (f : Zone → Zone) : (modZone s z f).protoMajor = s.protoMajor := rfl
@[simp] theorem modZone_protoMinor (s : State) (z : Nat) (f : Zone → Zone) : (modZone s z f).protoMinor = s.protoMinor := rfl
@[simp] theorem modZone_hostMem (s : State) (z : Nat) (f : Zone → Zone) : (modZone s z f).hostMem = s.hostMem := rfl
@[simp] theorem modZone_winMem (s : State) (z : Nat) (f : Zone → Zone) : (modZone s z f).winMem = s.winMem := rfl
@[simp] theorem modZone_winVf (s : State) (z : Nat) (f : Zone → Zone) : (modZone s z f).winVf = s.winVf := rfl
@[simp] theorem modZone_cmds (s : State) (z : Nat) (f : Zone → Zone) : (modZone s z f).cmds = s.cmds := rfl
@[simp] theorem modZone_outs (s : State) (z : Nat) (f : Zone → Zone) : (modZone s z f).outs = s.outs := rfl
@[simp] theorem modZone_msix (s : State) (z : Nat) (f : Zone → Zone) : (modZone s z f).msix = s.msix := rfl
@[simp] theorem modZone_vfApt (s : State) (z : Nat) (f : Zone → Zone) : (modZone s z f).vfApt = s.vfApt := rfl
@[simp] theorem modZone_ideKeys (s : State) (z : Nat) (f : Zone → Zone) : (modZone s z f).ideKeys = s.ideKeys := rfl
@[simp] theorem modZone_ideBad (s : State) (z : Nat) (f : Zone → Zone) : (modZone s z f).ideBad = s.ideBad := rfl
@[simp] theorem modZone_spdmSt (s : State) (z : Nat) (f : Zone → Zone) : (modZone s z f).spdmSt = s.spdmSt := rfl
@[simp] theorem modZone_sbd (s : State) (z : Nat) (f : Zone → Zone) : (modZone s z f).sbd = s.sbd := rfl
@[simp] theorem modZone_jtag (s : State) (z : Nat) (f : Zone → Zone) : (modZone s z f).jtag = s.jtag := rfl
@[simp] theorem modZone_twin (s : State) (z : Nat) (f : Zone → Zone) : (modZone s z f).twin = s.twin := rfl
@[simp] theorem modZone_hang (s : State) (z : Nat) (f : Zone → Zone) : (modZone s z f).hang = s.hang := rfl
@[simp] theorem modZone_recAt (s : State) (z : Nat) (f : Zone → Zone) : (modZone s z f).recAt = s.recAt := rfl
@[simp] theorem modZone_recStep (s : State) (z : Nat) (f : Zone → Zone) : (modZone s z f).recStep = s.recStep := rfl
@[simp] theorem modZone_pwr (s : State) (z : Nat) (f : Zone → Zone) : (modZone s z f).pwr = s.pwr := rfl
@[simp] theorem modZone_idle (s : State) (z : Nat) (f : Zone → Zone) : (modZone s z f).idle = s.idle := rfl
@[simp] theorem modZone_flash (s : State) (z : Nat) (f : Zone → Zone) : (modZone s z f).flash = s.flash := rfl
@[simp] theorem modZone_fuse (s : State) (z : Nat) (f : Zone → Zone) : (modZone s z f).fuse = s.fuse := rfl
@[simp] theorem modZone_boot (s : State) (z : Nat) (f : Zone → Zone) : (modZone s z f).boot = s.boot := rfl
@[simp] theorem modZone_spill (s : State) (z : Nat) (f : Zone → Zone) : (modZone s z f).spill = s.spill := rfl
@[simp] theorem modZone_gathered (s : State) (z : Nat) (f : Zone → Zone) : (modZone s z f).gathered = s.gathered := rfl
@[simp] theorem modZone_hostAcc (s : State) (z : Nat) (f : Zone → Zone) : (modZone s z f).hostAcc = s.hostAcc := rfl
@[simp] theorem modZone_rankQ (s : State) (z : Nat) (f : Zone → Zone) : (modZone s z f).rankQ = s.rankQ := rfl
@[simp] theorem modZone_flagAt (s : State) (z : Nat) (f : Zone → Zone) : (modZone s z f).flagAt = s.flagAt := rfl
@[simp] theorem modZone_shadowAt (s : State) (z : Nat) (f : Zone → Zone) : (modZone s z f).shadowAt = s.shadowAt := rfl
@[simp] theorem modZone_trainStore (s : State) (z : Nat) (f : Zone → Zone) : (modZone s z f).trainStore = s.trainStore := rfl
@[simp] theorem modZone_lpTrain (s : State) (z : Nat) (f : Zone → Zone) : (modZone s z f).lpTrain = s.lpTrain := rfl

@[simp] theorem setLink_pending (s : State) (l : Nat) (x : Link) : (setLink s l x).pending = s.pending := rfl
@[simp] theorem setLink_fresh (s : State) (l : Nat) (x : Link) : (setLink s l x).fresh = s.fresh := rfl
@[simp] theorem setLink_now (s : State) (l : Nat) (x : Link) : (setLink s l x).now = s.now := rfl
@[simp] theorem setLink_mem (s : State) (l : Nat) (x : Link) : (setLink s l x).mem = s.mem := rfl
@[simp] theorem setLink_flaw (s : State) (l : Nat) (x : Link) : (setLink s l x).flaw = s.flaw := rfl
@[simp] theorem setLink_poison (s : State) (l : Nat) (x : Link) : (setLink s l x).poison = s.poison := rfl
@[simp] theorem setLink_regs (s : State) (l : Nat) (x : Link) : (setLink s l x).regs = s.regs := rfl
@[simp] theorem setLink_tiles (s : State) (l : Nat) (x : Link) : (setLink s l x).tiles = s.tiles := rfl
@[simp] theorem setLink_chip (s : State) (l : Nat) (x : Link) : (setLink s l x).chip = s.chip := rfl
@[simp] theorem setLink_syncNet (s : State) (l : Nat) (x : Link) : (setLink s l x).syncNet = s.syncNet := rfl
@[simp] theorem setLink_flight (s : State) (l : Nat) (x : Link) : (setLink s l x).flight = s.flight := rfl
@[simp] theorem setLink_chanW (s : State) (l : Nat) (x : Link) : (setLink s l x).chanW = s.chanW := rfl
@[simp] theorem setLink_deliv (s : State) (l : Nat) (x : Link) : (setLink s l x).deliv = s.deliv := rfl
@[simp] theorem setLink_ctxs (s : State) (l : Nat) (x : Link) : (setLink s l x).ctxs = s.ctxs := rfl
@[simp] theorem setLink_engines (s : State) (l : Nat) (x : Link) : (setLink s l x).engines = s.engines := rfl
@[simp] theorem setLink_refreshP (s : State) (l : Nat) (x : Link) : (setLink s l x).refreshP = s.refreshP := rfl
@[simp] theorem setLink_rel (s : State) (l : Nat) (x : Link) : (setLink s l x).rel = s.rel := rfl
@[simp] theorem setLink_abuf (s : State) (l : Nat) (x : Link) : (setLink s l x).abuf = s.abuf := rfl
@[simp] theorem setLink_canes (s : State) (l : Nat) (x : Link) : (setLink s l x).canes = s.canes := rfl
@[simp] theorem setLink_faultHeld (s : State) (l : Nat) (x : Link) : (setLink s l x).faultHeld = s.faultHeld := rfl
@[simp] theorem setLink_recNext (s : State) (l : Nat) (x : Link) : (setLink s l x).recNext = s.recNext := rfl
@[simp] theorem setLink_tileMap (s : State) (l : Nat) (x : Link) : (setLink s l x).tileMap = s.tileMap := rfl
@[simp] theorem setLink_repairRec (s : State) (l : Nat) (x : Link) : (setLink s l x).repairRec = s.repairRec := rfl
@[simp] theorem setLink_zones (s : State) (l : Nat) (x : Link) : (setLink s l x).zones = s.zones := rfl
@[simp] theorem setLink_foldB (s : State) (l : Nat) (x : Link) : (setLink s l x).foldB = s.foldB := rfl
@[simp] theorem setLink_lclk (s : State) (l : Nat) (x : Link) : (setLink s l x).lclk = s.lclk := rfl
@[simp] theorem setLink_recov (s : State) (l : Nat) (x : Link) : (setLink s l x).recov = s.recov := rfl
@[simp] theorem setLink_hot (s : State) (l : Nat) (x : Link) : (setLink s l x).hot = s.hot := rfl
@[simp] theorem setLink_reqq (s : State) (l : Nat) (x : Link) : (setLink s l x).reqq = s.reqq := rfl
@[simp] theorem setLink_outst (s : State) (l : Nat) (x : Link) : (setLink s l x).outst = s.outst := rfl
@[simp] theorem setLink_inb (s : State) (l : Nat) (x : Link) : (setLink s l x).inb = s.inb := rfl
@[simp] theorem setLink_niOut (s : State) (l : Nat) (x : Link) : (setLink s l x).niOut = s.niOut := rfl
@[simp] theorem setLink_respW (s : State) (l : Nat) (x : Link) : (setLink s l x).respW = s.respW := rfl
@[simp] theorem setLink_niKey (s : State) (l : Nat) (x : Link) : (setLink s l x).niKey = s.niKey := rfl
@[simp] theorem setLink_rankC (s : State) (l : Nat) (x : Link) : (setLink s l x).rankC = s.rankC := rfl
@[simp] theorem setLink_routeC (s : State) (l : Nat) (x : Link) : (setLink s l x).routeC = s.routeC := rfl
@[simp] theorem setLink_retired (s : State) (l : Nat) (x : Link) : (setLink s l x).retired = s.retired := rfl
@[simp] theorem setLink_rateWin (s : State) (l : Nat) (x : Link) : (setLink s l x).rateWin = s.rateWin := rfl
@[simp] theorem setLink_echoed (s : State) (l : Nat) (x : Link) : (setLink s l x).echoed = s.echoed := rfl
@[simp] theorem setLink_tim (s : State) (l : Nat) (x : Link) : (setLink s l x).tim = s.tim := rfl
@[simp] theorem setLink_shadow (s : State) (l : Nat) (x : Link) : (setLink s l x).shadow = s.shadow := rfl
@[simp] theorem setLink_snaps (s : State) (l : Nat) (x : Link) : (setLink s l x).snaps = s.snaps := rfl
@[simp] theorem setLink_lpUsed (s : State) (l : Nat) (x : Link) : (setLink s l x).lpUsed = s.lpUsed := rfl
@[simp] theorem setLink_lpPlan (s : State) (l : Nat) (x : Link) : (setLink s l x).lpPlan = s.lpPlan := rfl
@[simp] theorem setLink_lpOpen (s : State) (l : Nat) (x : Link) : (setLink s l x).lpOpen = s.lpOpen := rfl
@[simp] theorem setLink_ceNext (s : State) (l : Nat) (x : Link) : (setLink s l x).ceNext = s.ceNext := rfl
@[simp] theorem setLink_rowErr (s : State) (l : Nat) (x : Link) : (setLink s l x).rowErr = s.rowErr := rfl
@[simp] theorem setLink_ppr (s : State) (l : Nat) (x : Link) : (setLink s l x).ppr = s.ppr := rfl
@[simp] theorem setLink_refWin (s : State) (l : Nat) (x : Link) : (setLink s l x).refWin = s.refWin := rfl
@[simp] theorem setLink_scrubAt (s : State) (l : Nat) (x : Link) : (setLink s l x).scrubAt = s.scrubAt := rfl
@[simp] theorem setLink_lnkPlan (s : State) (l : Nat) (x : Link) : (setLink s l x).lnkPlan = s.lnkPlan := rfl
@[simp] theorem setLink_lnkOpen (s : State) (l : Nat) (x : Link) : (setLink s l x).lnkOpen = s.lnkOpen := rfl
@[simp] theorem setLink_congWin (s : State) (l : Nat) (x : Link) : (setLink s l x).congWin = s.congWin := rfl
@[simp] theorem setLink_recPhase (s : State) (l : Nat) (x : Link) : (setLink s l x).recPhase = s.recPhase := rfl
@[simp] theorem setLink_recOpen (s : State) (l : Nat) (x : Link) : (setLink s l x).recOpen = s.recOpen := rfl
@[simp] theorem setLink_protoMajor (s : State) (l : Nat) (x : Link) : (setLink s l x).protoMajor = s.protoMajor := rfl
@[simp] theorem setLink_protoMinor (s : State) (l : Nat) (x : Link) : (setLink s l x).protoMinor = s.protoMinor := rfl
@[simp] theorem setLink_hostMem (s : State) (l : Nat) (x : Link) : (setLink s l x).hostMem = s.hostMem := rfl
@[simp] theorem setLink_winMem (s : State) (l : Nat) (x : Link) : (setLink s l x).winMem = s.winMem := rfl
@[simp] theorem setLink_winVf (s : State) (l : Nat) (x : Link) : (setLink s l x).winVf = s.winVf := rfl
@[simp] theorem setLink_cmds (s : State) (l : Nat) (x : Link) : (setLink s l x).cmds = s.cmds := rfl
@[simp] theorem setLink_outs (s : State) (l : Nat) (x : Link) : (setLink s l x).outs = s.outs := rfl
@[simp] theorem setLink_msix (s : State) (l : Nat) (x : Link) : (setLink s l x).msix = s.msix := rfl
@[simp] theorem setLink_vfApt (s : State) (l : Nat) (x : Link) : (setLink s l x).vfApt = s.vfApt := rfl
@[simp] theorem setLink_ideKeys (s : State) (l : Nat) (x : Link) : (setLink s l x).ideKeys = s.ideKeys := rfl
@[simp] theorem setLink_ideBad (s : State) (l : Nat) (x : Link) : (setLink s l x).ideBad = s.ideBad := rfl
@[simp] theorem setLink_spdmSt (s : State) (l : Nat) (x : Link) : (setLink s l x).spdmSt = s.spdmSt := rfl
@[simp] theorem setLink_sbd (s : State) (l : Nat) (x : Link) : (setLink s l x).sbd = s.sbd := rfl
@[simp] theorem setLink_jtag (s : State) (l : Nat) (x : Link) : (setLink s l x).jtag = s.jtag := rfl
@[simp] theorem setLink_twin (s : State) (l : Nat) (x : Link) : (setLink s l x).twin = s.twin := rfl
@[simp] theorem setLink_hang (s : State) (l : Nat) (x : Link) : (setLink s l x).hang = s.hang := rfl
@[simp] theorem setLink_recAt (s : State) (l : Nat) (x : Link) : (setLink s l x).recAt = s.recAt := rfl
@[simp] theorem setLink_recStep (s : State) (l : Nat) (x : Link) : (setLink s l x).recStep = s.recStep := rfl
@[simp] theorem setLink_pwr (s : State) (l : Nat) (x : Link) : (setLink s l x).pwr = s.pwr := rfl
@[simp] theorem setLink_idle (s : State) (l : Nat) (x : Link) : (setLink s l x).idle = s.idle := rfl
@[simp] theorem setLink_flash (s : State) (l : Nat) (x : Link) : (setLink s l x).flash = s.flash := rfl
@[simp] theorem setLink_fuse (s : State) (l : Nat) (x : Link) : (setLink s l x).fuse = s.fuse := rfl
@[simp] theorem setLink_boot (s : State) (l : Nat) (x : Link) : (setLink s l x).boot = s.boot := rfl
@[simp] theorem setLink_spill (s : State) (l : Nat) (x : Link) : (setLink s l x).spill = s.spill := rfl
@[simp] theorem setLink_gathered (s : State) (l : Nat) (x : Link) : (setLink s l x).gathered = s.gathered := rfl
@[simp] theorem setLink_hostAcc (s : State) (l : Nat) (x : Link) : (setLink s l x).hostAcc = s.hostAcc := rfl
@[simp] theorem setLink_rankQ (s : State) (l : Nat) (x : Link) : (setLink s l x).rankQ = s.rankQ := rfl
@[simp] theorem setLink_flagAt (s : State) (l : Nat) (x : Link) : (setLink s l x).flagAt = s.flagAt := rfl
@[simp] theorem setLink_shadowAt (s : State) (l : Nat) (x : Link) : (setLink s l x).shadowAt = s.shadowAt := rfl
@[simp] theorem setLink_trainStore (s : State) (l : Nat) (x : Link) : (setLink s l x).trainStore = s.trainStore := rfl
@[simp] theorem setLink_lpTrain (s : State) (l : Nat) (x : Link) : (setLink s l x).lpTrain = s.lpTrain := rfl

@[simp] theorem modLink_pending (s : State) (l : Nat) (f : Link → Link) : (modLink s l f).pending = s.pending := rfl
@[simp] theorem modLink_fresh (s : State) (l : Nat) (f : Link → Link) : (modLink s l f).fresh = s.fresh := rfl
@[simp] theorem modLink_now (s : State) (l : Nat) (f : Link → Link) : (modLink s l f).now = s.now := rfl
@[simp] theorem modLink_mem (s : State) (l : Nat) (f : Link → Link) : (modLink s l f).mem = s.mem := rfl
@[simp] theorem modLink_flaw (s : State) (l : Nat) (f : Link → Link) : (modLink s l f).flaw = s.flaw := rfl
@[simp] theorem modLink_poison (s : State) (l : Nat) (f : Link → Link) : (modLink s l f).poison = s.poison := rfl
@[simp] theorem modLink_regs (s : State) (l : Nat) (f : Link → Link) : (modLink s l f).regs = s.regs := rfl
@[simp] theorem modLink_tiles (s : State) (l : Nat) (f : Link → Link) : (modLink s l f).tiles = s.tiles := rfl
@[simp] theorem modLink_chip (s : State) (l : Nat) (f : Link → Link) : (modLink s l f).chip = s.chip := rfl
@[simp] theorem modLink_syncNet (s : State) (l : Nat) (f : Link → Link) : (modLink s l f).syncNet = s.syncNet := rfl
@[simp] theorem modLink_flight (s : State) (l : Nat) (f : Link → Link) : (modLink s l f).flight = s.flight := rfl
@[simp] theorem modLink_chanW (s : State) (l : Nat) (f : Link → Link) : (modLink s l f).chanW = s.chanW := rfl
@[simp] theorem modLink_deliv (s : State) (l : Nat) (f : Link → Link) : (modLink s l f).deliv = s.deliv := rfl
@[simp] theorem modLink_ctxs (s : State) (l : Nat) (f : Link → Link) : (modLink s l f).ctxs = s.ctxs := rfl
@[simp] theorem modLink_engines (s : State) (l : Nat) (f : Link → Link) : (modLink s l f).engines = s.engines := rfl
@[simp] theorem modLink_refreshP (s : State) (l : Nat) (f : Link → Link) : (modLink s l f).refreshP = s.refreshP := rfl
@[simp] theorem modLink_rel (s : State) (l : Nat) (f : Link → Link) : (modLink s l f).rel = s.rel := rfl
@[simp] theorem modLink_abuf (s : State) (l : Nat) (f : Link → Link) : (modLink s l f).abuf = s.abuf := rfl
@[simp] theorem modLink_canes (s : State) (l : Nat) (f : Link → Link) : (modLink s l f).canes = s.canes := rfl
@[simp] theorem modLink_faultHeld (s : State) (l : Nat) (f : Link → Link) : (modLink s l f).faultHeld = s.faultHeld := rfl
@[simp] theorem modLink_recNext (s : State) (l : Nat) (f : Link → Link) : (modLink s l f).recNext = s.recNext := rfl
@[simp] theorem modLink_tileMap (s : State) (l : Nat) (f : Link → Link) : (modLink s l f).tileMap = s.tileMap := rfl
@[simp] theorem modLink_repairRec (s : State) (l : Nat) (f : Link → Link) : (modLink s l f).repairRec = s.repairRec := rfl
@[simp] theorem modLink_zones (s : State) (l : Nat) (f : Link → Link) : (modLink s l f).zones = s.zones := rfl
@[simp] theorem modLink_foldB (s : State) (l : Nat) (f : Link → Link) : (modLink s l f).foldB = s.foldB := rfl
@[simp] theorem modLink_lclk (s : State) (l : Nat) (f : Link → Link) : (modLink s l f).lclk = s.lclk := rfl
@[simp] theorem modLink_recov (s : State) (l : Nat) (f : Link → Link) : (modLink s l f).recov = s.recov := rfl
@[simp] theorem modLink_hot (s : State) (l : Nat) (f : Link → Link) : (modLink s l f).hot = s.hot := rfl
@[simp] theorem modLink_reqq (s : State) (l : Nat) (f : Link → Link) : (modLink s l f).reqq = s.reqq := rfl
@[simp] theorem modLink_outst (s : State) (l : Nat) (f : Link → Link) : (modLink s l f).outst = s.outst := rfl
@[simp] theorem modLink_inb (s : State) (l : Nat) (f : Link → Link) : (modLink s l f).inb = s.inb := rfl
@[simp] theorem modLink_niOut (s : State) (l : Nat) (f : Link → Link) : (modLink s l f).niOut = s.niOut := rfl
@[simp] theorem modLink_respW (s : State) (l : Nat) (f : Link → Link) : (modLink s l f).respW = s.respW := rfl
@[simp] theorem modLink_niKey (s : State) (l : Nat) (f : Link → Link) : (modLink s l f).niKey = s.niKey := rfl
@[simp] theorem modLink_rankC (s : State) (l : Nat) (f : Link → Link) : (modLink s l f).rankC = s.rankC := rfl
@[simp] theorem modLink_routeC (s : State) (l : Nat) (f : Link → Link) : (modLink s l f).routeC = s.routeC := rfl
@[simp] theorem modLink_retired (s : State) (l : Nat) (f : Link → Link) : (modLink s l f).retired = s.retired := rfl
@[simp] theorem modLink_rateWin (s : State) (l : Nat) (f : Link → Link) : (modLink s l f).rateWin = s.rateWin := rfl
@[simp] theorem modLink_echoed (s : State) (l : Nat) (f : Link → Link) : (modLink s l f).echoed = s.echoed := rfl
@[simp] theorem modLink_tim (s : State) (l : Nat) (f : Link → Link) : (modLink s l f).tim = s.tim := rfl
@[simp] theorem modLink_shadow (s : State) (l : Nat) (f : Link → Link) : (modLink s l f).shadow = s.shadow := rfl
@[simp] theorem modLink_snaps (s : State) (l : Nat) (f : Link → Link) : (modLink s l f).snaps = s.snaps := rfl
@[simp] theorem modLink_lpUsed (s : State) (l : Nat) (f : Link → Link) : (modLink s l f).lpUsed = s.lpUsed := rfl
@[simp] theorem modLink_lpPlan (s : State) (l : Nat) (f : Link → Link) : (modLink s l f).lpPlan = s.lpPlan := rfl
@[simp] theorem modLink_lpOpen (s : State) (l : Nat) (f : Link → Link) : (modLink s l f).lpOpen = s.lpOpen := rfl
@[simp] theorem modLink_ceNext (s : State) (l : Nat) (f : Link → Link) : (modLink s l f).ceNext = s.ceNext := rfl
@[simp] theorem modLink_rowErr (s : State) (l : Nat) (f : Link → Link) : (modLink s l f).rowErr = s.rowErr := rfl
@[simp] theorem modLink_ppr (s : State) (l : Nat) (f : Link → Link) : (modLink s l f).ppr = s.ppr := rfl
@[simp] theorem modLink_refWin (s : State) (l : Nat) (f : Link → Link) : (modLink s l f).refWin = s.refWin := rfl
@[simp] theorem modLink_scrubAt (s : State) (l : Nat) (f : Link → Link) : (modLink s l f).scrubAt = s.scrubAt := rfl
@[simp] theorem modLink_lnkPlan (s : State) (l : Nat) (f : Link → Link) : (modLink s l f).lnkPlan = s.lnkPlan := rfl
@[simp] theorem modLink_lnkOpen (s : State) (l : Nat) (f : Link → Link) : (modLink s l f).lnkOpen = s.lnkOpen := rfl
@[simp] theorem modLink_congWin (s : State) (l : Nat) (f : Link → Link) : (modLink s l f).congWin = s.congWin := rfl
@[simp] theorem modLink_recPhase (s : State) (l : Nat) (f : Link → Link) : (modLink s l f).recPhase = s.recPhase := rfl
@[simp] theorem modLink_recOpen (s : State) (l : Nat) (f : Link → Link) : (modLink s l f).recOpen = s.recOpen := rfl
@[simp] theorem modLink_protoMajor (s : State) (l : Nat) (f : Link → Link) : (modLink s l f).protoMajor = s.protoMajor := rfl
@[simp] theorem modLink_protoMinor (s : State) (l : Nat) (f : Link → Link) : (modLink s l f).protoMinor = s.protoMinor := rfl
@[simp] theorem modLink_hostMem (s : State) (l : Nat) (f : Link → Link) : (modLink s l f).hostMem = s.hostMem := rfl
@[simp] theorem modLink_winMem (s : State) (l : Nat) (f : Link → Link) : (modLink s l f).winMem = s.winMem := rfl
@[simp] theorem modLink_winVf (s : State) (l : Nat) (f : Link → Link) : (modLink s l f).winVf = s.winVf := rfl
@[simp] theorem modLink_cmds (s : State) (l : Nat) (f : Link → Link) : (modLink s l f).cmds = s.cmds := rfl
@[simp] theorem modLink_outs (s : State) (l : Nat) (f : Link → Link) : (modLink s l f).outs = s.outs := rfl
@[simp] theorem modLink_msix (s : State) (l : Nat) (f : Link → Link) : (modLink s l f).msix = s.msix := rfl
@[simp] theorem modLink_vfApt (s : State) (l : Nat) (f : Link → Link) : (modLink s l f).vfApt = s.vfApt := rfl
@[simp] theorem modLink_ideKeys (s : State) (l : Nat) (f : Link → Link) : (modLink s l f).ideKeys = s.ideKeys := rfl
@[simp] theorem modLink_ideBad (s : State) (l : Nat) (f : Link → Link) : (modLink s l f).ideBad = s.ideBad := rfl
@[simp] theorem modLink_spdmSt (s : State) (l : Nat) (f : Link → Link) : (modLink s l f).spdmSt = s.spdmSt := rfl
@[simp] theorem modLink_sbd (s : State) (l : Nat) (f : Link → Link) : (modLink s l f).sbd = s.sbd := rfl
@[simp] theorem modLink_jtag (s : State) (l : Nat) (f : Link → Link) : (modLink s l f).jtag = s.jtag := rfl
@[simp] theorem modLink_twin (s : State) (l : Nat) (f : Link → Link) : (modLink s l f).twin = s.twin := rfl
@[simp] theorem modLink_hang (s : State) (l : Nat) (f : Link → Link) : (modLink s l f).hang = s.hang := rfl
@[simp] theorem modLink_recAt (s : State) (l : Nat) (f : Link → Link) : (modLink s l f).recAt = s.recAt := rfl
@[simp] theorem modLink_recStep (s : State) (l : Nat) (f : Link → Link) : (modLink s l f).recStep = s.recStep := rfl
@[simp] theorem modLink_pwr (s : State) (l : Nat) (f : Link → Link) : (modLink s l f).pwr = s.pwr := rfl
@[simp] theorem modLink_idle (s : State) (l : Nat) (f : Link → Link) : (modLink s l f).idle = s.idle := rfl
@[simp] theorem modLink_flash (s : State) (l : Nat) (f : Link → Link) : (modLink s l f).flash = s.flash := rfl
@[simp] theorem modLink_fuse (s : State) (l : Nat) (f : Link → Link) : (modLink s l f).fuse = s.fuse := rfl
@[simp] theorem modLink_boot (s : State) (l : Nat) (f : Link → Link) : (modLink s l f).boot = s.boot := rfl
@[simp] theorem modLink_spill (s : State) (l : Nat) (f : Link → Link) : (modLink s l f).spill = s.spill := rfl
@[simp] theorem modLink_gathered (s : State) (l : Nat) (f : Link → Link) : (modLink s l f).gathered = s.gathered := rfl
@[simp] theorem modLink_hostAcc (s : State) (l : Nat) (f : Link → Link) : (modLink s l f).hostAcc = s.hostAcc := rfl
@[simp] theorem modLink_rankQ (s : State) (l : Nat) (f : Link → Link) : (modLink s l f).rankQ = s.rankQ := rfl
@[simp] theorem modLink_flagAt (s : State) (l : Nat) (f : Link → Link) : (modLink s l f).flagAt = s.flagAt := rfl
@[simp] theorem modLink_shadowAt (s : State) (l : Nat) (f : Link → Link) : (modLink s l f).shadowAt = s.shadowAt := rfl
@[simp] theorem modLink_trainStore (s : State) (l : Nat) (f : Link → Link) : (modLink s l f).trainStore = s.trainStore := rfl
@[simp] theorem modLink_lpTrain (s : State) (l : Nat) (f : Link → Link) : (modLink s l f).lpTrain = s.lpTrain := rfl

@[simp] theorem setCane_pending (s : State) (i : Nat) (x : Cane) : (setCane s i x).pending = s.pending := rfl
@[simp] theorem setCane_fresh (s : State) (i : Nat) (x : Cane) : (setCane s i x).fresh = s.fresh := rfl
@[simp] theorem setCane_now (s : State) (i : Nat) (x : Cane) : (setCane s i x).now = s.now := rfl
@[simp] theorem setCane_mem (s : State) (i : Nat) (x : Cane) : (setCane s i x).mem = s.mem := rfl
@[simp] theorem setCane_flaw (s : State) (i : Nat) (x : Cane) : (setCane s i x).flaw = s.flaw := rfl
@[simp] theorem setCane_poison (s : State) (i : Nat) (x : Cane) : (setCane s i x).poison = s.poison := rfl
@[simp] theorem setCane_regs (s : State) (i : Nat) (x : Cane) : (setCane s i x).regs = s.regs := rfl
@[simp] theorem setCane_tiles (s : State) (i : Nat) (x : Cane) : (setCane s i x).tiles = s.tiles := rfl
@[simp] theorem setCane_chip (s : State) (i : Nat) (x : Cane) : (setCane s i x).chip = s.chip := rfl
@[simp] theorem setCane_syncNet (s : State) (i : Nat) (x : Cane) : (setCane s i x).syncNet = s.syncNet := rfl
@[simp] theorem setCane_flight (s : State) (i : Nat) (x : Cane) : (setCane s i x).flight = s.flight := rfl
@[simp] theorem setCane_chanW (s : State) (i : Nat) (x : Cane) : (setCane s i x).chanW = s.chanW := rfl
@[simp] theorem setCane_deliv (s : State) (i : Nat) (x : Cane) : (setCane s i x).deliv = s.deliv := rfl
@[simp] theorem setCane_ctxs (s : State) (i : Nat) (x : Cane) : (setCane s i x).ctxs = s.ctxs := rfl
@[simp] theorem setCane_engines (s : State) (i : Nat) (x : Cane) : (setCane s i x).engines = s.engines := rfl
@[simp] theorem setCane_refreshP (s : State) (i : Nat) (x : Cane) : (setCane s i x).refreshP = s.refreshP := rfl
@[simp] theorem setCane_rel (s : State) (i : Nat) (x : Cane) : (setCane s i x).rel = s.rel := rfl
@[simp] theorem setCane_abuf (s : State) (i : Nat) (x : Cane) : (setCane s i x).abuf = s.abuf := rfl
@[simp] theorem setCane_faultHeld (s : State) (i : Nat) (x : Cane) : (setCane s i x).faultHeld = s.faultHeld := rfl
@[simp] theorem setCane_recNext (s : State) (i : Nat) (x : Cane) : (setCane s i x).recNext = s.recNext := rfl
@[simp] theorem setCane_tileMap (s : State) (i : Nat) (x : Cane) : (setCane s i x).tileMap = s.tileMap := rfl
@[simp] theorem setCane_repairRec (s : State) (i : Nat) (x : Cane) : (setCane s i x).repairRec = s.repairRec := rfl
@[simp] theorem setCane_zones (s : State) (i : Nat) (x : Cane) : (setCane s i x).zones = s.zones := rfl
@[simp] theorem setCane_foldB (s : State) (i : Nat) (x : Cane) : (setCane s i x).foldB = s.foldB := rfl
@[simp] theorem setCane_links (s : State) (i : Nat) (x : Cane) : (setCane s i x).links = s.links := rfl
@[simp] theorem setCane_lclk (s : State) (i : Nat) (x : Cane) : (setCane s i x).lclk = s.lclk := rfl
@[simp] theorem setCane_recov (s : State) (i : Nat) (x : Cane) : (setCane s i x).recov = s.recov := rfl
@[simp] theorem setCane_hot (s : State) (i : Nat) (x : Cane) : (setCane s i x).hot = s.hot := rfl
@[simp] theorem setCane_reqq (s : State) (i : Nat) (x : Cane) : (setCane s i x).reqq = s.reqq := rfl
@[simp] theorem setCane_outst (s : State) (i : Nat) (x : Cane) : (setCane s i x).outst = s.outst := rfl
@[simp] theorem setCane_inb (s : State) (i : Nat) (x : Cane) : (setCane s i x).inb = s.inb := rfl
@[simp] theorem setCane_niOut (s : State) (i : Nat) (x : Cane) : (setCane s i x).niOut = s.niOut := rfl
@[simp] theorem setCane_respW (s : State) (i : Nat) (x : Cane) : (setCane s i x).respW = s.respW := rfl
@[simp] theorem setCane_niKey (s : State) (i : Nat) (x : Cane) : (setCane s i x).niKey = s.niKey := rfl
@[simp] theorem setCane_rankC (s : State) (i : Nat) (x : Cane) : (setCane s i x).rankC = s.rankC := rfl
@[simp] theorem setCane_routeC (s : State) (i : Nat) (x : Cane) : (setCane s i x).routeC = s.routeC := rfl
@[simp] theorem setCane_retired (s : State) (i : Nat) (x : Cane) : (setCane s i x).retired = s.retired := rfl
@[simp] theorem setCane_rateWin (s : State) (i : Nat) (x : Cane) : (setCane s i x).rateWin = s.rateWin := rfl
@[simp] theorem setCane_echoed (s : State) (i : Nat) (x : Cane) : (setCane s i x).echoed = s.echoed := rfl
@[simp] theorem setCane_tim (s : State) (i : Nat) (x : Cane) : (setCane s i x).tim = s.tim := rfl
@[simp] theorem setCane_shadow (s : State) (i : Nat) (x : Cane) : (setCane s i x).shadow = s.shadow := rfl
@[simp] theorem setCane_snaps (s : State) (i : Nat) (x : Cane) : (setCane s i x).snaps = s.snaps := rfl
@[simp] theorem setCane_lpUsed (s : State) (i : Nat) (x : Cane) : (setCane s i x).lpUsed = s.lpUsed := rfl
@[simp] theorem setCane_lpPlan (s : State) (i : Nat) (x : Cane) : (setCane s i x).lpPlan = s.lpPlan := rfl
@[simp] theorem setCane_lpOpen (s : State) (i : Nat) (x : Cane) : (setCane s i x).lpOpen = s.lpOpen := rfl
@[simp] theorem setCane_ceNext (s : State) (i : Nat) (x : Cane) : (setCane s i x).ceNext = s.ceNext := rfl
@[simp] theorem setCane_rowErr (s : State) (i : Nat) (x : Cane) : (setCane s i x).rowErr = s.rowErr := rfl
@[simp] theorem setCane_ppr (s : State) (i : Nat) (x : Cane) : (setCane s i x).ppr = s.ppr := rfl
@[simp] theorem setCane_refWin (s : State) (i : Nat) (x : Cane) : (setCane s i x).refWin = s.refWin := rfl
@[simp] theorem setCane_scrubAt (s : State) (i : Nat) (x : Cane) : (setCane s i x).scrubAt = s.scrubAt := rfl
@[simp] theorem setCane_lnkPlan (s : State) (i : Nat) (x : Cane) : (setCane s i x).lnkPlan = s.lnkPlan := rfl
@[simp] theorem setCane_lnkOpen (s : State) (i : Nat) (x : Cane) : (setCane s i x).lnkOpen = s.lnkOpen := rfl
@[simp] theorem setCane_congWin (s : State) (i : Nat) (x : Cane) : (setCane s i x).congWin = s.congWin := rfl
@[simp] theorem setCane_recPhase (s : State) (i : Nat) (x : Cane) : (setCane s i x).recPhase = s.recPhase := rfl
@[simp] theorem setCane_recOpen (s : State) (i : Nat) (x : Cane) : (setCane s i x).recOpen = s.recOpen := rfl
@[simp] theorem setCane_protoMajor (s : State) (i : Nat) (x : Cane) : (setCane s i x).protoMajor = s.protoMajor := rfl
@[simp] theorem setCane_protoMinor (s : State) (i : Nat) (x : Cane) : (setCane s i x).protoMinor = s.protoMinor := rfl
@[simp] theorem setCane_hostMem (s : State) (i : Nat) (x : Cane) : (setCane s i x).hostMem = s.hostMem := rfl
@[simp] theorem setCane_winMem (s : State) (i : Nat) (x : Cane) : (setCane s i x).winMem = s.winMem := rfl
@[simp] theorem setCane_winVf (s : State) (i : Nat) (x : Cane) : (setCane s i x).winVf = s.winVf := rfl
@[simp] theorem setCane_cmds (s : State) (i : Nat) (x : Cane) : (setCane s i x).cmds = s.cmds := rfl
@[simp] theorem setCane_outs (s : State) (i : Nat) (x : Cane) : (setCane s i x).outs = s.outs := rfl
@[simp] theorem setCane_msix (s : State) (i : Nat) (x : Cane) : (setCane s i x).msix = s.msix := rfl
@[simp] theorem setCane_vfApt (s : State) (i : Nat) (x : Cane) : (setCane s i x).vfApt = s.vfApt := rfl
@[simp] theorem setCane_ideKeys (s : State) (i : Nat) (x : Cane) : (setCane s i x).ideKeys = s.ideKeys := rfl
@[simp] theorem setCane_ideBad (s : State) (i : Nat) (x : Cane) : (setCane s i x).ideBad = s.ideBad := rfl
@[simp] theorem setCane_spdmSt (s : State) (i : Nat) (x : Cane) : (setCane s i x).spdmSt = s.spdmSt := rfl
@[simp] theorem setCane_sbd (s : State) (i : Nat) (x : Cane) : (setCane s i x).sbd = s.sbd := rfl
@[simp] theorem setCane_jtag (s : State) (i : Nat) (x : Cane) : (setCane s i x).jtag = s.jtag := rfl
@[simp] theorem setCane_twin (s : State) (i : Nat) (x : Cane) : (setCane s i x).twin = s.twin := rfl
@[simp] theorem setCane_hang (s : State) (i : Nat) (x : Cane) : (setCane s i x).hang = s.hang := rfl
@[simp] theorem setCane_recAt (s : State) (i : Nat) (x : Cane) : (setCane s i x).recAt = s.recAt := rfl
@[simp] theorem setCane_recStep (s : State) (i : Nat) (x : Cane) : (setCane s i x).recStep = s.recStep := rfl
@[simp] theorem setCane_pwr (s : State) (i : Nat) (x : Cane) : (setCane s i x).pwr = s.pwr := rfl
@[simp] theorem setCane_idle (s : State) (i : Nat) (x : Cane) : (setCane s i x).idle = s.idle := rfl
@[simp] theorem setCane_flash (s : State) (i : Nat) (x : Cane) : (setCane s i x).flash = s.flash := rfl
@[simp] theorem setCane_fuse (s : State) (i : Nat) (x : Cane) : (setCane s i x).fuse = s.fuse := rfl
@[simp] theorem setCane_boot (s : State) (i : Nat) (x : Cane) : (setCane s i x).boot = s.boot := rfl
@[simp] theorem setCane_spill (s : State) (i : Nat) (x : Cane) : (setCane s i x).spill = s.spill := rfl
@[simp] theorem setCane_gathered (s : State) (i : Nat) (x : Cane) : (setCane s i x).gathered = s.gathered := rfl
@[simp] theorem setCane_hostAcc (s : State) (i : Nat) (x : Cane) : (setCane s i x).hostAcc = s.hostAcc := rfl
@[simp] theorem setCane_rankQ (s : State) (i : Nat) (x : Cane) : (setCane s i x).rankQ = s.rankQ := rfl
@[simp] theorem setCane_flagAt (s : State) (i : Nat) (x : Cane) : (setCane s i x).flagAt = s.flagAt := rfl
@[simp] theorem setCane_shadowAt (s : State) (i : Nat) (x : Cane) : (setCane s i x).shadowAt = s.shadowAt := rfl
@[simp] theorem setCane_trainStore (s : State) (i : Nat) (x : Cane) : (setCane s i x).trainStore = s.trainStore := rfl
@[simp] theorem setCane_lpTrain (s : State) (i : Nat) (x : Cane) : (setCane s i x).lpTrain = s.lpTrain := rfl

@[simp] theorem syncPush_pending (s : State) (e : Nat) (r : CtrRef) (op : PunOp) : (syncPush s e r op).pending = s.pending := rfl
@[simp] theorem syncPush_fresh (s : State) (e : Nat) (r : CtrRef) (op : PunOp) : (syncPush s e r op).fresh = s.fresh := rfl
@[simp] theorem syncPush_now (s : State) (e : Nat) (r : CtrRef) (op : PunOp) : (syncPush s e r op).now = s.now := rfl
@[simp] theorem syncPush_mem (s : State) (e : Nat) (r : CtrRef) (op : PunOp) : (syncPush s e r op).mem = s.mem := rfl
@[simp] theorem syncPush_flaw (s : State) (e : Nat) (r : CtrRef) (op : PunOp) : (syncPush s e r op).flaw = s.flaw := rfl
@[simp] theorem syncPush_poison (s : State) (e : Nat) (r : CtrRef) (op : PunOp) : (syncPush s e r op).poison = s.poison := rfl
@[simp] theorem syncPush_regs (s : State) (e : Nat) (r : CtrRef) (op : PunOp) : (syncPush s e r op).regs = s.regs := rfl
@[simp] theorem syncPush_tiles (s : State) (e : Nat) (r : CtrRef) (op : PunOp) : (syncPush s e r op).tiles = s.tiles := rfl
@[simp] theorem syncPush_chip (s : State) (e : Nat) (r : CtrRef) (op : PunOp) : (syncPush s e r op).chip = s.chip := rfl
@[simp] theorem syncPush_flight (s : State) (e : Nat) (r : CtrRef) (op : PunOp) : (syncPush s e r op).flight = s.flight := rfl
@[simp] theorem syncPush_chanW (s : State) (e : Nat) (r : CtrRef) (op : PunOp) : (syncPush s e r op).chanW = s.chanW := rfl
@[simp] theorem syncPush_deliv (s : State) (e : Nat) (r : CtrRef) (op : PunOp) : (syncPush s e r op).deliv = s.deliv := rfl
@[simp] theorem syncPush_ctxs (s : State) (e : Nat) (r : CtrRef) (op : PunOp) : (syncPush s e r op).ctxs = s.ctxs := rfl
@[simp] theorem syncPush_engines (s : State) (e : Nat) (r : CtrRef) (op : PunOp) : (syncPush s e r op).engines = s.engines := rfl
@[simp] theorem syncPush_refreshP (s : State) (e : Nat) (r : CtrRef) (op : PunOp) : (syncPush s e r op).refreshP = s.refreshP := rfl
@[simp] theorem syncPush_rel (s : State) (e : Nat) (r : CtrRef) (op : PunOp) : (syncPush s e r op).rel = s.rel := rfl
@[simp] theorem syncPush_abuf (s : State) (e : Nat) (r : CtrRef) (op : PunOp) : (syncPush s e r op).abuf = s.abuf := rfl
@[simp] theorem syncPush_canes (s : State) (e : Nat) (r : CtrRef) (op : PunOp) : (syncPush s e r op).canes = s.canes := rfl
@[simp] theorem syncPush_faultHeld (s : State) (e : Nat) (r : CtrRef) (op : PunOp) : (syncPush s e r op).faultHeld = s.faultHeld := rfl
@[simp] theorem syncPush_recNext (s : State) (e : Nat) (r : CtrRef) (op : PunOp) : (syncPush s e r op).recNext = s.recNext := rfl
@[simp] theorem syncPush_tileMap (s : State) (e : Nat) (r : CtrRef) (op : PunOp) : (syncPush s e r op).tileMap = s.tileMap := rfl
@[simp] theorem syncPush_repairRec (s : State) (e : Nat) (r : CtrRef) (op : PunOp) : (syncPush s e r op).repairRec = s.repairRec := rfl
@[simp] theorem syncPush_zones (s : State) (e : Nat) (r : CtrRef) (op : PunOp) : (syncPush s e r op).zones = s.zones := rfl
@[simp] theorem syncPush_foldB (s : State) (e : Nat) (r : CtrRef) (op : PunOp) : (syncPush s e r op).foldB = s.foldB := rfl
@[simp] theorem syncPush_links (s : State) (e : Nat) (r : CtrRef) (op : PunOp) : (syncPush s e r op).links = s.links := rfl
@[simp] theorem syncPush_lclk (s : State) (e : Nat) (r : CtrRef) (op : PunOp) : (syncPush s e r op).lclk = s.lclk := rfl
@[simp] theorem syncPush_recov (s : State) (e : Nat) (r : CtrRef) (op : PunOp) : (syncPush s e r op).recov = s.recov := rfl
@[simp] theorem syncPush_hot (s : State) (e : Nat) (r : CtrRef) (op : PunOp) : (syncPush s e r op).hot = s.hot := rfl
@[simp] theorem syncPush_reqq (s : State) (e : Nat) (r : CtrRef) (op : PunOp) : (syncPush s e r op).reqq = s.reqq := rfl
@[simp] theorem syncPush_outst (s : State) (e : Nat) (r : CtrRef) (op : PunOp) : (syncPush s e r op).outst = s.outst := rfl
@[simp] theorem syncPush_inb (s : State) (e : Nat) (r : CtrRef) (op : PunOp) : (syncPush s e r op).inb = s.inb := rfl
@[simp] theorem syncPush_niOut (s : State) (e : Nat) (r : CtrRef) (op : PunOp) : (syncPush s e r op).niOut = s.niOut := rfl
@[simp] theorem syncPush_respW (s : State) (e : Nat) (r : CtrRef) (op : PunOp) : (syncPush s e r op).respW = s.respW := rfl
@[simp] theorem syncPush_niKey (s : State) (e : Nat) (r : CtrRef) (op : PunOp) : (syncPush s e r op).niKey = s.niKey := rfl
@[simp] theorem syncPush_rankC (s : State) (e : Nat) (r : CtrRef) (op : PunOp) : (syncPush s e r op).rankC = s.rankC := rfl
@[simp] theorem syncPush_routeC (s : State) (e : Nat) (r : CtrRef) (op : PunOp) : (syncPush s e r op).routeC = s.routeC := rfl
@[simp] theorem syncPush_retired (s : State) (e : Nat) (r : CtrRef) (op : PunOp) : (syncPush s e r op).retired = s.retired := rfl
@[simp] theorem syncPush_rateWin (s : State) (e : Nat) (r : CtrRef) (op : PunOp) : (syncPush s e r op).rateWin = s.rateWin := rfl
@[simp] theorem syncPush_echoed (s : State) (e : Nat) (r : CtrRef) (op : PunOp) : (syncPush s e r op).echoed = s.echoed := rfl
@[simp] theorem syncPush_tim (s : State) (e : Nat) (r : CtrRef) (op : PunOp) : (syncPush s e r op).tim = s.tim := rfl
@[simp] theorem syncPush_shadow (s : State) (e : Nat) (r : CtrRef) (op : PunOp) : (syncPush s e r op).shadow = s.shadow := rfl
@[simp] theorem syncPush_snaps (s : State) (e : Nat) (r : CtrRef) (op : PunOp) : (syncPush s e r op).snaps = s.snaps := rfl
@[simp] theorem syncPush_lpUsed (s : State) (e : Nat) (r : CtrRef) (op : PunOp) : (syncPush s e r op).lpUsed = s.lpUsed := rfl
@[simp] theorem syncPush_lpPlan (s : State) (e : Nat) (r : CtrRef) (op : PunOp) : (syncPush s e r op).lpPlan = s.lpPlan := rfl
@[simp] theorem syncPush_lpOpen (s : State) (e : Nat) (r : CtrRef) (op : PunOp) : (syncPush s e r op).lpOpen = s.lpOpen := rfl
@[simp] theorem syncPush_ceNext (s : State) (e : Nat) (r : CtrRef) (op : PunOp) : (syncPush s e r op).ceNext = s.ceNext := rfl
@[simp] theorem syncPush_rowErr (s : State) (e : Nat) (r : CtrRef) (op : PunOp) : (syncPush s e r op).rowErr = s.rowErr := rfl
@[simp] theorem syncPush_ppr (s : State) (e : Nat) (r : CtrRef) (op : PunOp) : (syncPush s e r op).ppr = s.ppr := rfl
@[simp] theorem syncPush_refWin (s : State) (e : Nat) (r : CtrRef) (op : PunOp) : (syncPush s e r op).refWin = s.refWin := rfl
@[simp] theorem syncPush_scrubAt (s : State) (e : Nat) (r : CtrRef) (op : PunOp) : (syncPush s e r op).scrubAt = s.scrubAt := rfl
@[simp] theorem syncPush_lnkPlan (s : State) (e : Nat) (r : CtrRef) (op : PunOp) : (syncPush s e r op).lnkPlan = s.lnkPlan := rfl
@[simp] theorem syncPush_lnkOpen (s : State) (e : Nat) (r : CtrRef) (op : PunOp) : (syncPush s e r op).lnkOpen = s.lnkOpen := rfl
@[simp] theorem syncPush_congWin (s : State) (e : Nat) (r : CtrRef) (op : PunOp) : (syncPush s e r op).congWin = s.congWin := rfl
@[simp] theorem syncPush_recPhase (s : State) (e : Nat) (r : CtrRef) (op : PunOp) : (syncPush s e r op).recPhase = s.recPhase := rfl
@[simp] theorem syncPush_recOpen (s : State) (e : Nat) (r : CtrRef) (op : PunOp) : (syncPush s e r op).recOpen = s.recOpen := rfl
@[simp] theorem syncPush_protoMajor (s : State) (e : Nat) (r : CtrRef) (op : PunOp) : (syncPush s e r op).protoMajor = s.protoMajor := rfl
@[simp] theorem syncPush_protoMinor (s : State) (e : Nat) (r : CtrRef) (op : PunOp) : (syncPush s e r op).protoMinor = s.protoMinor := rfl
@[simp] theorem syncPush_hostMem (s : State) (e : Nat) (r : CtrRef) (op : PunOp) : (syncPush s e r op).hostMem = s.hostMem := rfl
@[simp] theorem syncPush_winMem (s : State) (e : Nat) (r : CtrRef) (op : PunOp) : (syncPush s e r op).winMem = s.winMem := rfl
@[simp] theorem syncPush_winVf (s : State) (e : Nat) (r : CtrRef) (op : PunOp) : (syncPush s e r op).winVf = s.winVf := rfl
@[simp] theorem syncPush_cmds (s : State) (e : Nat) (r : CtrRef) (op : PunOp) : (syncPush s e r op).cmds = s.cmds := rfl
@[simp] theorem syncPush_outs (s : State) (e : Nat) (r : CtrRef) (op : PunOp) : (syncPush s e r op).outs = s.outs := rfl
@[simp] theorem syncPush_msix (s : State) (e : Nat) (r : CtrRef) (op : PunOp) : (syncPush s e r op).msix = s.msix := rfl
@[simp] theorem syncPush_vfApt (s : State) (e : Nat) (r : CtrRef) (op : PunOp) : (syncPush s e r op).vfApt = s.vfApt := rfl
@[simp] theorem syncPush_ideKeys (s : State) (e : Nat) (r : CtrRef) (op : PunOp) : (syncPush s e r op).ideKeys = s.ideKeys := rfl
@[simp] theorem syncPush_ideBad (s : State) (e : Nat) (r : CtrRef) (op : PunOp) : (syncPush s e r op).ideBad = s.ideBad := rfl
@[simp] theorem syncPush_spdmSt (s : State) (e : Nat) (r : CtrRef) (op : PunOp) : (syncPush s e r op).spdmSt = s.spdmSt := rfl
@[simp] theorem syncPush_sbd (s : State) (e : Nat) (r : CtrRef) (op : PunOp) : (syncPush s e r op).sbd = s.sbd := rfl
@[simp] theorem syncPush_jtag (s : State) (e : Nat) (r : CtrRef) (op : PunOp) : (syncPush s e r op).jtag = s.jtag := rfl
@[simp] theorem syncPush_twin (s : State) (e : Nat) (r : CtrRef) (op : PunOp) : (syncPush s e r op).twin = s.twin := rfl
@[simp] theorem syncPush_hang (s : State) (e : Nat) (r : CtrRef) (op : PunOp) : (syncPush s e r op).hang = s.hang := rfl
@[simp] theorem syncPush_recAt (s : State) (e : Nat) (r : CtrRef) (op : PunOp) : (syncPush s e r op).recAt = s.recAt := rfl
@[simp] theorem syncPush_recStep (s : State) (e : Nat) (r : CtrRef) (op : PunOp) : (syncPush s e r op).recStep = s.recStep := rfl
@[simp] theorem syncPush_pwr (s : State) (e : Nat) (r : CtrRef) (op : PunOp) : (syncPush s e r op).pwr = s.pwr := rfl
@[simp] theorem syncPush_idle (s : State) (e : Nat) (r : CtrRef) (op : PunOp) : (syncPush s e r op).idle = s.idle := rfl
@[simp] theorem syncPush_flash (s : State) (e : Nat) (r : CtrRef) (op : PunOp) : (syncPush s e r op).flash = s.flash := rfl
@[simp] theorem syncPush_fuse (s : State) (e : Nat) (r : CtrRef) (op : PunOp) : (syncPush s e r op).fuse = s.fuse := rfl
@[simp] theorem syncPush_boot (s : State) (e : Nat) (r : CtrRef) (op : PunOp) : (syncPush s e r op).boot = s.boot := rfl
@[simp] theorem syncPush_spill (s : State) (e : Nat) (r : CtrRef) (op : PunOp) : (syncPush s e r op).spill = s.spill := rfl
@[simp] theorem syncPush_gathered (s : State) (e : Nat) (r : CtrRef) (op : PunOp) : (syncPush s e r op).gathered = s.gathered := rfl
@[simp] theorem syncPush_hostAcc (s : State) (e : Nat) (r : CtrRef) (op : PunOp) : (syncPush s e r op).hostAcc = s.hostAcc := rfl
@[simp] theorem syncPush_rankQ (s : State) (e : Nat) (r : CtrRef) (op : PunOp) : (syncPush s e r op).rankQ = s.rankQ := rfl
@[simp] theorem syncPush_flagAt (s : State) (e : Nat) (r : CtrRef) (op : PunOp) : (syncPush s e r op).flagAt = s.flagAt := rfl
@[simp] theorem syncPush_shadowAt (s : State) (e : Nat) (r : CtrRef) (op : PunOp) : (syncPush s e r op).shadowAt = s.shadowAt := rfl
@[simp] theorem syncPush_trainStore (s : State) (e : Nat) (r : CtrRef) (op : PunOp) : (syncPush s e r op).trainStore = s.trainStore := rfl
@[simp] theorem syncPush_lpTrain (s : State) (e : Nat) (r : CtrRef) (op : PunOp) : (syncPush s e r op).lpTrain = s.lpTrain := rfl

@[simp] theorem chipSet_pending (s : State) (n : Nat) (v : W32) : (chipSet s n v).pending = s.pending := rfl
@[simp] theorem chipSet_fresh (s : State) (n : Nat) (v : W32) : (chipSet s n v).fresh = s.fresh := rfl
@[simp] theorem chipSet_now (s : State) (n : Nat) (v : W32) : (chipSet s n v).now = s.now := rfl
@[simp] theorem chipSet_mem (s : State) (n : Nat) (v : W32) : (chipSet s n v).mem = s.mem := rfl
@[simp] theorem chipSet_flaw (s : State) (n : Nat) (v : W32) : (chipSet s n v).flaw = s.flaw := rfl
@[simp] theorem chipSet_poison (s : State) (n : Nat) (v : W32) : (chipSet s n v).poison = s.poison := rfl
@[simp] theorem chipSet_regs (s : State) (n : Nat) (v : W32) : (chipSet s n v).regs = s.regs := rfl
@[simp] theorem chipSet_tiles (s : State) (n : Nat) (v : W32) : (chipSet s n v).tiles = s.tiles := rfl
@[simp] theorem chipSet_syncNet (s : State) (n : Nat) (v : W32) : (chipSet s n v).syncNet = s.syncNet := rfl
@[simp] theorem chipSet_flight (s : State) (n : Nat) (v : W32) : (chipSet s n v).flight = s.flight := rfl
@[simp] theorem chipSet_chanW (s : State) (n : Nat) (v : W32) : (chipSet s n v).chanW = s.chanW := rfl
@[simp] theorem chipSet_deliv (s : State) (n : Nat) (v : W32) : (chipSet s n v).deliv = s.deliv := rfl
@[simp] theorem chipSet_ctxs (s : State) (n : Nat) (v : W32) : (chipSet s n v).ctxs = s.ctxs := rfl
@[simp] theorem chipSet_engines (s : State) (n : Nat) (v : W32) : (chipSet s n v).engines = s.engines := rfl
@[simp] theorem chipSet_refreshP (s : State) (n : Nat) (v : W32) : (chipSet s n v).refreshP = s.refreshP := rfl
@[simp] theorem chipSet_rel (s : State) (n : Nat) (v : W32) : (chipSet s n v).rel = s.rel := rfl
@[simp] theorem chipSet_abuf (s : State) (n : Nat) (v : W32) : (chipSet s n v).abuf = s.abuf := rfl
@[simp] theorem chipSet_canes (s : State) (n : Nat) (v : W32) : (chipSet s n v).canes = s.canes := rfl
@[simp] theorem chipSet_faultHeld (s : State) (n : Nat) (v : W32) : (chipSet s n v).faultHeld = s.faultHeld := rfl
@[simp] theorem chipSet_recNext (s : State) (n : Nat) (v : W32) : (chipSet s n v).recNext = s.recNext := rfl
@[simp] theorem chipSet_tileMap (s : State) (n : Nat) (v : W32) : (chipSet s n v).tileMap = s.tileMap := rfl
@[simp] theorem chipSet_repairRec (s : State) (n : Nat) (v : W32) : (chipSet s n v).repairRec = s.repairRec := rfl
@[simp] theorem chipSet_zones (s : State) (n : Nat) (v : W32) : (chipSet s n v).zones = s.zones := rfl
@[simp] theorem chipSet_foldB (s : State) (n : Nat) (v : W32) : (chipSet s n v).foldB = s.foldB := rfl
@[simp] theorem chipSet_links (s : State) (n : Nat) (v : W32) : (chipSet s n v).links = s.links := rfl
@[simp] theorem chipSet_lclk (s : State) (n : Nat) (v : W32) : (chipSet s n v).lclk = s.lclk := rfl
@[simp] theorem chipSet_recov (s : State) (n : Nat) (v : W32) : (chipSet s n v).recov = s.recov := rfl
@[simp] theorem chipSet_hot (s : State) (n : Nat) (v : W32) : (chipSet s n v).hot = s.hot := rfl
@[simp] theorem chipSet_reqq (s : State) (n : Nat) (v : W32) : (chipSet s n v).reqq = s.reqq := rfl
@[simp] theorem chipSet_outst (s : State) (n : Nat) (v : W32) : (chipSet s n v).outst = s.outst := rfl
@[simp] theorem chipSet_inb (s : State) (n : Nat) (v : W32) : (chipSet s n v).inb = s.inb := rfl
@[simp] theorem chipSet_niOut (s : State) (n : Nat) (v : W32) : (chipSet s n v).niOut = s.niOut := rfl
@[simp] theorem chipSet_respW (s : State) (n : Nat) (v : W32) : (chipSet s n v).respW = s.respW := rfl
@[simp] theorem chipSet_niKey (s : State) (n : Nat) (v : W32) : (chipSet s n v).niKey = s.niKey := rfl
@[simp] theorem chipSet_rankC (s : State) (n : Nat) (v : W32) : (chipSet s n v).rankC = s.rankC := rfl
@[simp] theorem chipSet_routeC (s : State) (n : Nat) (v : W32) : (chipSet s n v).routeC = s.routeC := rfl
@[simp] theorem chipSet_retired (s : State) (n : Nat) (v : W32) : (chipSet s n v).retired = s.retired := rfl
@[simp] theorem chipSet_rateWin (s : State) (n : Nat) (v : W32) : (chipSet s n v).rateWin = s.rateWin := rfl
@[simp] theorem chipSet_echoed (s : State) (n : Nat) (v : W32) : (chipSet s n v).echoed = s.echoed := rfl
@[simp] theorem chipSet_tim (s : State) (n : Nat) (v : W32) : (chipSet s n v).tim = s.tim := rfl
@[simp] theorem chipSet_shadow (s : State) (n : Nat) (v : W32) : (chipSet s n v).shadow = s.shadow := rfl
@[simp] theorem chipSet_snaps (s : State) (n : Nat) (v : W32) : (chipSet s n v).snaps = s.snaps := rfl
@[simp] theorem chipSet_lpUsed (s : State) (n : Nat) (v : W32) : (chipSet s n v).lpUsed = s.lpUsed := rfl
@[simp] theorem chipSet_lpPlan (s : State) (n : Nat) (v : W32) : (chipSet s n v).lpPlan = s.lpPlan := rfl
@[simp] theorem chipSet_lpOpen (s : State) (n : Nat) (v : W32) : (chipSet s n v).lpOpen = s.lpOpen := rfl
@[simp] theorem chipSet_ceNext (s : State) (n : Nat) (v : W32) : (chipSet s n v).ceNext = s.ceNext := rfl
@[simp] theorem chipSet_rowErr (s : State) (n : Nat) (v : W32) : (chipSet s n v).rowErr = s.rowErr := rfl
@[simp] theorem chipSet_ppr (s : State) (n : Nat) (v : W32) : (chipSet s n v).ppr = s.ppr := rfl
@[simp] theorem chipSet_refWin (s : State) (n : Nat) (v : W32) : (chipSet s n v).refWin = s.refWin := rfl
@[simp] theorem chipSet_scrubAt (s : State) (n : Nat) (v : W32) : (chipSet s n v).scrubAt = s.scrubAt := rfl
@[simp] theorem chipSet_lnkPlan (s : State) (n : Nat) (v : W32) : (chipSet s n v).lnkPlan = s.lnkPlan := rfl
@[simp] theorem chipSet_lnkOpen (s : State) (n : Nat) (v : W32) : (chipSet s n v).lnkOpen = s.lnkOpen := rfl
@[simp] theorem chipSet_congWin (s : State) (n : Nat) (v : W32) : (chipSet s n v).congWin = s.congWin := rfl
@[simp] theorem chipSet_recPhase (s : State) (n : Nat) (v : W32) : (chipSet s n v).recPhase = s.recPhase := rfl
@[simp] theorem chipSet_recOpen (s : State) (n : Nat) (v : W32) : (chipSet s n v).recOpen = s.recOpen := rfl
@[simp] theorem chipSet_protoMajor (s : State) (n : Nat) (v : W32) : (chipSet s n v).protoMajor = s.protoMajor := rfl
@[simp] theorem chipSet_protoMinor (s : State) (n : Nat) (v : W32) : (chipSet s n v).protoMinor = s.protoMinor := rfl
@[simp] theorem chipSet_hostMem (s : State) (n : Nat) (v : W32) : (chipSet s n v).hostMem = s.hostMem := rfl
@[simp] theorem chipSet_winMem (s : State) (n : Nat) (v : W32) : (chipSet s n v).winMem = s.winMem := rfl
@[simp] theorem chipSet_winVf (s : State) (n : Nat) (v : W32) : (chipSet s n v).winVf = s.winVf := rfl
@[simp] theorem chipSet_cmds (s : State) (n : Nat) (v : W32) : (chipSet s n v).cmds = s.cmds := rfl
@[simp] theorem chipSet_outs (s : State) (n : Nat) (v : W32) : (chipSet s n v).outs = s.outs := rfl
@[simp] theorem chipSet_msix (s : State) (n : Nat) (v : W32) : (chipSet s n v).msix = s.msix := rfl
@[simp] theorem chipSet_vfApt (s : State) (n : Nat) (v : W32) : (chipSet s n v).vfApt = s.vfApt := rfl
@[simp] theorem chipSet_ideKeys (s : State) (n : Nat) (v : W32) : (chipSet s n v).ideKeys = s.ideKeys := rfl
@[simp] theorem chipSet_ideBad (s : State) (n : Nat) (v : W32) : (chipSet s n v).ideBad = s.ideBad := rfl
@[simp] theorem chipSet_spdmSt (s : State) (n : Nat) (v : W32) : (chipSet s n v).spdmSt = s.spdmSt := rfl
@[simp] theorem chipSet_sbd (s : State) (n : Nat) (v : W32) : (chipSet s n v).sbd = s.sbd := rfl
@[simp] theorem chipSet_jtag (s : State) (n : Nat) (v : W32) : (chipSet s n v).jtag = s.jtag := rfl
@[simp] theorem chipSet_twin (s : State) (n : Nat) (v : W32) : (chipSet s n v).twin = s.twin := rfl
@[simp] theorem chipSet_hang (s : State) (n : Nat) (v : W32) : (chipSet s n v).hang = s.hang := rfl
@[simp] theorem chipSet_recAt (s : State) (n : Nat) (v : W32) : (chipSet s n v).recAt = s.recAt := rfl
@[simp] theorem chipSet_recStep (s : State) (n : Nat) (v : W32) : (chipSet s n v).recStep = s.recStep := rfl
@[simp] theorem chipSet_pwr (s : State) (n : Nat) (v : W32) : (chipSet s n v).pwr = s.pwr := rfl
@[simp] theorem chipSet_idle (s : State) (n : Nat) (v : W32) : (chipSet s n v).idle = s.idle := rfl
@[simp] theorem chipSet_flash (s : State) (n : Nat) (v : W32) : (chipSet s n v).flash = s.flash := rfl
@[simp] theorem chipSet_fuse (s : State) (n : Nat) (v : W32) : (chipSet s n v).fuse = s.fuse := rfl
@[simp] theorem chipSet_boot (s : State) (n : Nat) (v : W32) : (chipSet s n v).boot = s.boot := rfl
@[simp] theorem chipSet_spill (s : State) (n : Nat) (v : W32) : (chipSet s n v).spill = s.spill := rfl
@[simp] theorem chipSet_gathered (s : State) (n : Nat) (v : W32) : (chipSet s n v).gathered = s.gathered := rfl
@[simp] theorem chipSet_hostAcc (s : State) (n : Nat) (v : W32) : (chipSet s n v).hostAcc = s.hostAcc := rfl
@[simp] theorem chipSet_rankQ (s : State) (n : Nat) (v : W32) : (chipSet s n v).rankQ = s.rankQ := rfl
@[simp] theorem chipSet_flagAt (s : State) (n : Nat) (v : W32) : (chipSet s n v).flagAt = s.flagAt := rfl
@[simp] theorem chipSet_shadowAt (s : State) (n : Nat) (v : W32) : (chipSet s n v).shadowAt = s.shadowAt := rfl
@[simp] theorem chipSet_trainStore (s : State) (n : Nat) (v : W32) : (chipSet s n v).trainStore = s.trainStore := rfl
@[simp] theorem chipSet_lpTrain (s : State) (n : Nat) (v : W32) : (chipSet s n v).lpTrain = s.lpTrain := rfl

@[simp] theorem memWrite_pending (s : State) (a n v : Nat) : (memWrite s a n v).pending = s.pending := rfl
@[simp] theorem memWrite_fresh (s : State) (a n v : Nat) : (memWrite s a n v).fresh = s.fresh := rfl
@[simp] theorem memWrite_now (s : State) (a n v : Nat) : (memWrite s a n v).now = s.now := rfl
@[simp] theorem memWrite_poison (s : State) (a n v : Nat) : (memWrite s a n v).poison = s.poison := rfl
@[simp] theorem memWrite_regs (s : State) (a n v : Nat) : (memWrite s a n v).regs = s.regs := rfl
@[simp] theorem memWrite_tiles (s : State) (a n v : Nat) : (memWrite s a n v).tiles = s.tiles := rfl
@[simp] theorem memWrite_chip (s : State) (a n v : Nat) : (memWrite s a n v).chip = s.chip := rfl
@[simp] theorem memWrite_syncNet (s : State) (a n v : Nat) : (memWrite s a n v).syncNet = s.syncNet := rfl
@[simp] theorem memWrite_flight (s : State) (a n v : Nat) : (memWrite s a n v).flight = s.flight := rfl
@[simp] theorem memWrite_chanW (s : State) (a n v : Nat) : (memWrite s a n v).chanW = s.chanW := rfl
@[simp] theorem memWrite_deliv (s : State) (a n v : Nat) : (memWrite s a n v).deliv = s.deliv := rfl
@[simp] theorem memWrite_ctxs (s : State) (a n v : Nat) : (memWrite s a n v).ctxs = s.ctxs := rfl
@[simp] theorem memWrite_engines (s : State) (a n v : Nat) : (memWrite s a n v).engines = s.engines := rfl
@[simp] theorem memWrite_refreshP (s : State) (a n v : Nat) : (memWrite s a n v).refreshP = s.refreshP := rfl
@[simp] theorem memWrite_rel (s : State) (a n v : Nat) : (memWrite s a n v).rel = s.rel := rfl
@[simp] theorem memWrite_abuf (s : State) (a n v : Nat) : (memWrite s a n v).abuf = s.abuf := rfl
@[simp] theorem memWrite_canes (s : State) (a n v : Nat) : (memWrite s a n v).canes = s.canes := rfl
@[simp] theorem memWrite_faultHeld (s : State) (a n v : Nat) : (memWrite s a n v).faultHeld = s.faultHeld := rfl
@[simp] theorem memWrite_recNext (s : State) (a n v : Nat) : (memWrite s a n v).recNext = s.recNext := rfl
@[simp] theorem memWrite_tileMap (s : State) (a n v : Nat) : (memWrite s a n v).tileMap = s.tileMap := rfl
@[simp] theorem memWrite_repairRec (s : State) (a n v : Nat) : (memWrite s a n v).repairRec = s.repairRec := rfl
@[simp] theorem memWrite_zones (s : State) (a n v : Nat) : (memWrite s a n v).zones = s.zones := rfl
@[simp] theorem memWrite_foldB (s : State) (a n v : Nat) : (memWrite s a n v).foldB = s.foldB := rfl
@[simp] theorem memWrite_links (s : State) (a n v : Nat) : (memWrite s a n v).links = s.links := rfl
@[simp] theorem memWrite_lclk (s : State) (a n v : Nat) : (memWrite s a n v).lclk = s.lclk := rfl
@[simp] theorem memWrite_recov (s : State) (a n v : Nat) : (memWrite s a n v).recov = s.recov := rfl
@[simp] theorem memWrite_hot (s : State) (a n v : Nat) : (memWrite s a n v).hot = s.hot := rfl
@[simp] theorem memWrite_reqq (s : State) (a n v : Nat) : (memWrite s a n v).reqq = s.reqq := rfl
@[simp] theorem memWrite_outst (s : State) (a n v : Nat) : (memWrite s a n v).outst = s.outst := rfl
@[simp] theorem memWrite_inb (s : State) (a n v : Nat) : (memWrite s a n v).inb = s.inb := rfl
@[simp] theorem memWrite_niOut (s : State) (a n v : Nat) : (memWrite s a n v).niOut = s.niOut := rfl
@[simp] theorem memWrite_respW (s : State) (a n v : Nat) : (memWrite s a n v).respW = s.respW := rfl
@[simp] theorem memWrite_niKey (s : State) (a n v : Nat) : (memWrite s a n v).niKey = s.niKey := rfl
@[simp] theorem memWrite_rankC (s : State) (a n v : Nat) : (memWrite s a n v).rankC = s.rankC := rfl
@[simp] theorem memWrite_routeC (s : State) (a n v : Nat) : (memWrite s a n v).routeC = s.routeC := rfl
@[simp] theorem memWrite_retired (s : State) (a n v : Nat) : (memWrite s a n v).retired = s.retired := rfl
@[simp] theorem memWrite_rateWin (s : State) (a n v : Nat) : (memWrite s a n v).rateWin = s.rateWin := rfl
@[simp] theorem memWrite_echoed (s : State) (a n v : Nat) : (memWrite s a n v).echoed = s.echoed := rfl
@[simp] theorem memWrite_tim (s : State) (a n v : Nat) : (memWrite s a n v).tim = s.tim := rfl
@[simp] theorem memWrite_shadow (s : State) (a n v : Nat) : (memWrite s a n v).shadow = s.shadow := rfl
@[simp] theorem memWrite_snaps (s : State) (a n v : Nat) : (memWrite s a n v).snaps = s.snaps := rfl
@[simp] theorem memWrite_lpUsed (s : State) (a n v : Nat) : (memWrite s a n v).lpUsed = s.lpUsed := rfl
@[simp] theorem memWrite_lpPlan (s : State) (a n v : Nat) : (memWrite s a n v).lpPlan = s.lpPlan := rfl
@[simp] theorem memWrite_lpOpen (s : State) (a n v : Nat) : (memWrite s a n v).lpOpen = s.lpOpen := rfl
@[simp] theorem memWrite_ceNext (s : State) (a n v : Nat) : (memWrite s a n v).ceNext = s.ceNext := rfl
@[simp] theorem memWrite_rowErr (s : State) (a n v : Nat) : (memWrite s a n v).rowErr = s.rowErr := rfl
@[simp] theorem memWrite_ppr (s : State) (a n v : Nat) : (memWrite s a n v).ppr = s.ppr := rfl
@[simp] theorem memWrite_refWin (s : State) (a n v : Nat) : (memWrite s a n v).refWin = s.refWin := rfl
@[simp] theorem memWrite_scrubAt (s : State) (a n v : Nat) : (memWrite s a n v).scrubAt = s.scrubAt := rfl
@[simp] theorem memWrite_lnkPlan (s : State) (a n v : Nat) : (memWrite s a n v).lnkPlan = s.lnkPlan := rfl
@[simp] theorem memWrite_lnkOpen (s : State) (a n v : Nat) : (memWrite s a n v).lnkOpen = s.lnkOpen := rfl
@[simp] theorem memWrite_congWin (s : State) (a n v : Nat) : (memWrite s a n v).congWin = s.congWin := rfl
@[simp] theorem memWrite_recPhase (s : State) (a n v : Nat) : (memWrite s a n v).recPhase = s.recPhase := rfl
@[simp] theorem memWrite_recOpen (s : State) (a n v : Nat) : (memWrite s a n v).recOpen = s.recOpen := rfl
@[simp] theorem memWrite_protoMajor (s : State) (a n v : Nat) : (memWrite s a n v).protoMajor = s.protoMajor := rfl
@[simp] theorem memWrite_protoMinor (s : State) (a n v : Nat) : (memWrite s a n v).protoMinor = s.protoMinor := rfl
@[simp] theorem memWrite_hostMem (s : State) (a n v : Nat) : (memWrite s a n v).hostMem = s.hostMem := rfl
@[simp] theorem memWrite_winMem (s : State) (a n v : Nat) : (memWrite s a n v).winMem = s.winMem := rfl
@[simp] theorem memWrite_winVf (s : State) (a n v : Nat) : (memWrite s a n v).winVf = s.winVf := rfl
@[simp] theorem memWrite_cmds (s : State) (a n v : Nat) : (memWrite s a n v).cmds = s.cmds := rfl
@[simp] theorem memWrite_outs (s : State) (a n v : Nat) : (memWrite s a n v).outs = s.outs := rfl
@[simp] theorem memWrite_msix (s : State) (a n v : Nat) : (memWrite s a n v).msix = s.msix := rfl
@[simp] theorem memWrite_vfApt (s : State) (a n v : Nat) : (memWrite s a n v).vfApt = s.vfApt := rfl
@[simp] theorem memWrite_ideKeys (s : State) (a n v : Nat) : (memWrite s a n v).ideKeys = s.ideKeys := rfl
@[simp] theorem memWrite_ideBad (s : State) (a n v : Nat) : (memWrite s a n v).ideBad = s.ideBad := rfl
@[simp] theorem memWrite_spdmSt (s : State) (a n v : Nat) : (memWrite s a n v).spdmSt = s.spdmSt := rfl
@[simp] theorem memWrite_sbd (s : State) (a n v : Nat) : (memWrite s a n v).sbd = s.sbd := rfl
@[simp] theorem memWrite_jtag (s : State) (a n v : Nat) : (memWrite s a n v).jtag = s.jtag := rfl
@[simp] theorem memWrite_twin (s : State) (a n v : Nat) : (memWrite s a n v).twin = s.twin := rfl
@[simp] theorem memWrite_hang (s : State) (a n v : Nat) : (memWrite s a n v).hang = s.hang := rfl
@[simp] theorem memWrite_recAt (s : State) (a n v : Nat) : (memWrite s a n v).recAt = s.recAt := rfl
@[simp] theorem memWrite_recStep (s : State) (a n v : Nat) : (memWrite s a n v).recStep = s.recStep := rfl
@[simp] theorem memWrite_pwr (s : State) (a n v : Nat) : (memWrite s a n v).pwr = s.pwr := rfl
@[simp] theorem memWrite_idle (s : State) (a n v : Nat) : (memWrite s a n v).idle = s.idle := rfl
@[simp] theorem memWrite_flash (s : State) (a n v : Nat) : (memWrite s a n v).flash = s.flash := rfl
@[simp] theorem memWrite_fuse (s : State) (a n v : Nat) : (memWrite s a n v).fuse = s.fuse := rfl
@[simp] theorem memWrite_boot (s : State) (a n v : Nat) : (memWrite s a n v).boot = s.boot := rfl
@[simp] theorem memWrite_spill (s : State) (a n v : Nat) : (memWrite s a n v).spill = s.spill := rfl
@[simp] theorem memWrite_gathered (s : State) (a n v : Nat) : (memWrite s a n v).gathered = s.gathered := rfl
@[simp] theorem memWrite_hostAcc (s : State) (a n v : Nat) : (memWrite s a n v).hostAcc = s.hostAcc := rfl
@[simp] theorem memWrite_rankQ (s : State) (a n v : Nat) : (memWrite s a n v).rankQ = s.rankQ := rfl
@[simp] theorem memWrite_flagAt (s : State) (a n v : Nat) : (memWrite s a n v).flagAt = s.flagAt := rfl
@[simp] theorem memWrite_shadowAt (s : State) (a n v : Nat) : (memWrite s a n v).shadowAt = s.shadowAt := rfl
@[simp] theorem memWrite_trainStore (s : State) (a n v : Nat) : (memWrite s a n v).trainStore = s.trainStore := rfl
@[simp] theorem memWrite_lpTrain (s : State) (a n v : Nat) : (memWrite s a n v).lpTrain = s.lpTrain := rfl

@[simp] theorem memWipe_pending (s : State) (a n : Nat) : (memWipe s a n).pending = s.pending := rfl
@[simp] theorem memWipe_fresh (s : State) (a n : Nat) : (memWipe s a n).fresh = s.fresh := rfl
@[simp] theorem memWipe_now (s : State) (a n : Nat) : (memWipe s a n).now = s.now := rfl
@[simp] theorem memWipe_regs (s : State) (a n : Nat) : (memWipe s a n).regs = s.regs := rfl
@[simp] theorem memWipe_tiles (s : State) (a n : Nat) : (memWipe s a n).tiles = s.tiles := rfl
@[simp] theorem memWipe_chip (s : State) (a n : Nat) : (memWipe s a n).chip = s.chip := rfl
@[simp] theorem memWipe_syncNet (s : State) (a n : Nat) : (memWipe s a n).syncNet = s.syncNet := rfl
@[simp] theorem memWipe_flight (s : State) (a n : Nat) : (memWipe s a n).flight = s.flight := rfl
@[simp] theorem memWipe_chanW (s : State) (a n : Nat) : (memWipe s a n).chanW = s.chanW := rfl
@[simp] theorem memWipe_deliv (s : State) (a n : Nat) : (memWipe s a n).deliv = s.deliv := rfl
@[simp] theorem memWipe_ctxs (s : State) (a n : Nat) : (memWipe s a n).ctxs = s.ctxs := rfl
@[simp] theorem memWipe_engines (s : State) (a n : Nat) : (memWipe s a n).engines = s.engines := rfl
@[simp] theorem memWipe_refreshP (s : State) (a n : Nat) : (memWipe s a n).refreshP = s.refreshP := rfl
@[simp] theorem memWipe_rel (s : State) (a n : Nat) : (memWipe s a n).rel = s.rel := rfl
@[simp] theorem memWipe_abuf (s : State) (a n : Nat) : (memWipe s a n).abuf = s.abuf := rfl
@[simp] theorem memWipe_canes (s : State) (a n : Nat) : (memWipe s a n).canes = s.canes := rfl
@[simp] theorem memWipe_faultHeld (s : State) (a n : Nat) : (memWipe s a n).faultHeld = s.faultHeld := rfl
@[simp] theorem memWipe_recNext (s : State) (a n : Nat) : (memWipe s a n).recNext = s.recNext := rfl
@[simp] theorem memWipe_tileMap (s : State) (a n : Nat) : (memWipe s a n).tileMap = s.tileMap := rfl
@[simp] theorem memWipe_repairRec (s : State) (a n : Nat) : (memWipe s a n).repairRec = s.repairRec := rfl
@[simp] theorem memWipe_zones (s : State) (a n : Nat) : (memWipe s a n).zones = s.zones := rfl
@[simp] theorem memWipe_foldB (s : State) (a n : Nat) : (memWipe s a n).foldB = s.foldB := rfl
@[simp] theorem memWipe_links (s : State) (a n : Nat) : (memWipe s a n).links = s.links := rfl
@[simp] theorem memWipe_lclk (s : State) (a n : Nat) : (memWipe s a n).lclk = s.lclk := rfl
@[simp] theorem memWipe_recov (s : State) (a n : Nat) : (memWipe s a n).recov = s.recov := rfl
@[simp] theorem memWipe_hot (s : State) (a n : Nat) : (memWipe s a n).hot = s.hot := rfl
@[simp] theorem memWipe_reqq (s : State) (a n : Nat) : (memWipe s a n).reqq = s.reqq := rfl
@[simp] theorem memWipe_outst (s : State) (a n : Nat) : (memWipe s a n).outst = s.outst := rfl
@[simp] theorem memWipe_inb (s : State) (a n : Nat) : (memWipe s a n).inb = s.inb := rfl
@[simp] theorem memWipe_niOut (s : State) (a n : Nat) : (memWipe s a n).niOut = s.niOut := rfl
@[simp] theorem memWipe_respW (s : State) (a n : Nat) : (memWipe s a n).respW = s.respW := rfl
@[simp] theorem memWipe_niKey (s : State) (a n : Nat) : (memWipe s a n).niKey = s.niKey := rfl
@[simp] theorem memWipe_rankC (s : State) (a n : Nat) : (memWipe s a n).rankC = s.rankC := rfl
@[simp] theorem memWipe_routeC (s : State) (a n : Nat) : (memWipe s a n).routeC = s.routeC := rfl
@[simp] theorem memWipe_retired (s : State) (a n : Nat) : (memWipe s a n).retired = s.retired := rfl
@[simp] theorem memWipe_rateWin (s : State) (a n : Nat) : (memWipe s a n).rateWin = s.rateWin := rfl
@[simp] theorem memWipe_echoed (s : State) (a n : Nat) : (memWipe s a n).echoed = s.echoed := rfl
@[simp] theorem memWipe_tim (s : State) (a n : Nat) : (memWipe s a n).tim = s.tim := rfl
@[simp] theorem memWipe_shadow (s : State) (a n : Nat) : (memWipe s a n).shadow = s.shadow := rfl
@[simp] theorem memWipe_snaps (s : State) (a n : Nat) : (memWipe s a n).snaps = s.snaps := rfl
@[simp] theorem memWipe_lpUsed (s : State) (a n : Nat) : (memWipe s a n).lpUsed = s.lpUsed := rfl
@[simp] theorem memWipe_lpPlan (s : State) (a n : Nat) : (memWipe s a n).lpPlan = s.lpPlan := rfl
@[simp] theorem memWipe_lpOpen (s : State) (a n : Nat) : (memWipe s a n).lpOpen = s.lpOpen := rfl
@[simp] theorem memWipe_ceNext (s : State) (a n : Nat) : (memWipe s a n).ceNext = s.ceNext := rfl
@[simp] theorem memWipe_rowErr (s : State) (a n : Nat) : (memWipe s a n).rowErr = s.rowErr := rfl
@[simp] theorem memWipe_ppr (s : State) (a n : Nat) : (memWipe s a n).ppr = s.ppr := rfl
@[simp] theorem memWipe_refWin (s : State) (a n : Nat) : (memWipe s a n).refWin = s.refWin := rfl
@[simp] theorem memWipe_scrubAt (s : State) (a n : Nat) : (memWipe s a n).scrubAt = s.scrubAt := rfl
@[simp] theorem memWipe_lnkPlan (s : State) (a n : Nat) : (memWipe s a n).lnkPlan = s.lnkPlan := rfl
@[simp] theorem memWipe_lnkOpen (s : State) (a n : Nat) : (memWipe s a n).lnkOpen = s.lnkOpen := rfl
@[simp] theorem memWipe_congWin (s : State) (a n : Nat) : (memWipe s a n).congWin = s.congWin := rfl
@[simp] theorem memWipe_recPhase (s : State) (a n : Nat) : (memWipe s a n).recPhase = s.recPhase := rfl
@[simp] theorem memWipe_recOpen (s : State) (a n : Nat) : (memWipe s a n).recOpen = s.recOpen := rfl
@[simp] theorem memWipe_protoMajor (s : State) (a n : Nat) : (memWipe s a n).protoMajor = s.protoMajor := rfl
@[simp] theorem memWipe_protoMinor (s : State) (a n : Nat) : (memWipe s a n).protoMinor = s.protoMinor := rfl
@[simp] theorem memWipe_hostMem (s : State) (a n : Nat) : (memWipe s a n).hostMem = s.hostMem := rfl
@[simp] theorem memWipe_winMem (s : State) (a n : Nat) : (memWipe s a n).winMem = s.winMem := rfl
@[simp] theorem memWipe_winVf (s : State) (a n : Nat) : (memWipe s a n).winVf = s.winVf := rfl
@[simp] theorem memWipe_cmds (s : State) (a n : Nat) : (memWipe s a n).cmds = s.cmds := rfl
@[simp] theorem memWipe_outs (s : State) (a n : Nat) : (memWipe s a n).outs = s.outs := rfl
@[simp] theorem memWipe_msix (s : State) (a n : Nat) : (memWipe s a n).msix = s.msix := rfl
@[simp] theorem memWipe_vfApt (s : State) (a n : Nat) : (memWipe s a n).vfApt = s.vfApt := rfl
@[simp] theorem memWipe_ideKeys (s : State) (a n : Nat) : (memWipe s a n).ideKeys = s.ideKeys := rfl
@[simp] theorem memWipe_ideBad (s : State) (a n : Nat) : (memWipe s a n).ideBad = s.ideBad := rfl
@[simp] theorem memWipe_spdmSt (s : State) (a n : Nat) : (memWipe s a n).spdmSt = s.spdmSt := rfl
@[simp] theorem memWipe_sbd (s : State) (a n : Nat) : (memWipe s a n).sbd = s.sbd := rfl
@[simp] theorem memWipe_jtag (s : State) (a n : Nat) : (memWipe s a n).jtag = s.jtag := rfl
@[simp] theorem memWipe_twin (s : State) (a n : Nat) : (memWipe s a n).twin = s.twin := rfl
@[simp] theorem memWipe_hang (s : State) (a n : Nat) : (memWipe s a n).hang = s.hang := rfl
@[simp] theorem memWipe_recAt (s : State) (a n : Nat) : (memWipe s a n).recAt = s.recAt := rfl
@[simp] theorem memWipe_recStep (s : State) (a n : Nat) : (memWipe s a n).recStep = s.recStep := rfl
@[simp] theorem memWipe_pwr (s : State) (a n : Nat) : (memWipe s a n).pwr = s.pwr := rfl
@[simp] theorem memWipe_idle (s : State) (a n : Nat) : (memWipe s a n).idle = s.idle := rfl
@[simp] theorem memWipe_flash (s : State) (a n : Nat) : (memWipe s a n).flash = s.flash := rfl
@[simp] theorem memWipe_fuse (s : State) (a n : Nat) : (memWipe s a n).fuse = s.fuse := rfl
@[simp] theorem memWipe_boot (s : State) (a n : Nat) : (memWipe s a n).boot = s.boot := rfl
@[simp] theorem memWipe_spill (s : State) (a n : Nat) : (memWipe s a n).spill = s.spill := rfl
@[simp] theorem memWipe_gathered (s : State) (a n : Nat) : (memWipe s a n).gathered = s.gathered := rfl
@[simp] theorem memWipe_hostAcc (s : State) (a n : Nat) : (memWipe s a n).hostAcc = s.hostAcc := rfl
@[simp] theorem memWipe_rankQ (s : State) (a n : Nat) : (memWipe s a n).rankQ = s.rankQ := rfl
@[simp] theorem memWipe_flagAt (s : State) (a n : Nat) : (memWipe s a n).flagAt = s.flagAt := rfl
@[simp] theorem memWipe_shadowAt (s : State) (a n : Nat) : (memWipe s a n).shadowAt = s.shadowAt := rfl
@[simp] theorem memWipe_trainStore (s : State) (a n : Nat) : (memWipe s a n).trainStore = s.trainStore := rfl
@[simp] theorem memWipe_lpTrain (s : State) (a n : Nat) : (memWipe s a n).lpTrain = s.lpTrain := rfl

end Machine
end Sys2Proof
end

