-- ==== Sys2Proof/Laws/Tables.lean ====
section
/-! SUPPORT. Sparse maps: a read after a write, and the canonical form, which every write keeps. -/
namespace Sys2Proof
namespace Machine

variable {α : Type}

theorem tget_tdel_same (d : Nat → α) (t : Tbl α) (k : Nat) : tget d (tdel k t) k = d k := by
  induction t with
  | nil => rfl
  | cons e t ih =>
    obtain ⟨j, v⟩ := e
    by_cases h : j = k
    · simpa [tdel, h] using ih
    · simpa [tdel, tget, h] using ih

theorem tget_tdel_ne (d : Nat → α) (t : Tbl α) {k j : Nat} (h : j ≠ k) : tget d (tdel k t) j = tget d t j := by
  induction t with
  | nil => rfl
  | cons e t ih =>
    obtain ⟨i, v⟩ := e
    by_cases hi : i = k
    · subst hi; simpa [tdel, tget, h.symm] using ih
    · rw [tdel, if_neg hi]
      by_cases hj : i = j <;> simp [tget, hj, ih]

theorem tget_tins_same (d : Nat → α) (v : α) (t : Tbl α) (k : Nat) (h : ∀ e ∈ t, e.1 ≠ k) :
    tget d (tins k v t) k = v := by
  induction t with
  | nil => simp [tins, tget]
  | cons e t ih =>
    obtain ⟨j, w⟩ := e
    have hj : j ≠ k := h (j, w) (by simp)
    by_cases hl : k < j
    · simp [tins, hl, tget]
    · simpa [tins, hl, tget, hj] using ih fun e he => h e (by simp [he])

theorem tget_tins_ne (d : Nat → α) (v : α) (t : Tbl α) {k j : Nat} (h : j ≠ k) :
    tget d (tins k v t) j = tget d t j := by
  induction t with
  | nil => simp [tins, tget, h.symm]
  | cons e t ih =>
    obtain ⟨i, w⟩ := e
    by_cases hl : k < i
    · simp [tins, hl, tget, h.symm]
    · rw [tins, if_neg hl]
      by_cases hi : i = j <;> simp [tget, hi, ih]

theorem tdel_no_key (t : Tbl α) (k : Nat) : ∀ e ∈ tdel k t, e.1 ≠ k := by
  induction t with
  | nil => simp [tdel]
  | cons e t ih =>
    obtain ⟨j, v⟩ := e
    by_cases h : j = k
    · simpa [tdel, h] using ih
    · intro e he
      simp only [tdel, if_neg h, List.mem_cons] at he
      rcases he with rfl | he
      · exact h
      · exact ih e he

section
variable [DecidableEq α]

/-- A key reads as the value last written to it. -/
@[simp] theorem tget_tset_same (d : Nat → α) (t : Tbl α) (k : Nat) (v : α) : tget d (tset d t k v) k = v := by
  unfold tset
  split
  · rename_i h; rw [tget_tdel_same, h]
  · exact tget_tins_same d v _ k (tdel_no_key t k)

/-- A write to one key leaves every other. -/
@[simp] theorem tget_tset_ne (d : Nat → α) (t : Tbl α) {k j : Nat} (v : α) (h : j ≠ k) :
    tget d (tset d t k v) j = tget d t j := by
  unfold tset
  split
  · exact tget_tdel_ne d t h
  · rw [tget_tins_ne d v _ h, tget_tdel_ne d t h]

theorem tget_tset (d : Nat → α) (t : Tbl α) (k j : Nat) (v : α) :
    tget d (tset d t k v) j = if j = k then v else tget d t j := by
  by_cases h : j = k
  · subst h; simp
  · simp [h]

end

theorem tdel_tins (t : Tbl α) (k : Nat) (v : α) (h : ∀ e ∈ t, e.1 ≠ k) : tdel k (tins k v t) = t := by
  induction t with
  | nil => simp [tins, tdel]
  | cons e t ih =>
    obtain ⟨j, w⟩ := e
    have hj : j ≠ k := h (j, w) (by simp)
    have ht := ih fun e he => h e (by simp [he])
    have hd : tdel k t = t := by
      clear ih ht
      induction t with
      | nil => rfl
      | cons e t ih =>
        obtain ⟨i, u⟩ := e
        have hi : i ≠ k := h (i, u) (by simp)
        rw [tdel, if_neg hi, ih fun e he => h e (by
          rcases List.mem_cons.1 he with rfl | he <;> simp_all)]
    by_cases hl : k < j
    · rw [tins, if_pos hl, tdel, if_pos rfl, tdel, if_neg hj, hd]
    · rw [tins, if_neg hl, tdel, if_neg hj, ht]

theorem tdel_tdel (t : Tbl α) (k : Nat) : tdel k (tdel k t) = tdel k t := by
  induction t with
  | nil => rfl
  | cons e t ih =>
    obtain ⟨j, v⟩ := e
    by_cases h : j = k
    · rw [tdel, if_pos h, ih]
    · rw [tdel, if_neg h, tdel, if_neg h, ih]

variable [DecidableEq α]

/-- Of two writes to one key the later counts. -/
@[simp] theorem tset_tset_same (d : Nat → α) (t : Tbl α) (k : Nat) (v w : α) : tset d (tset d t k v) k w = tset d t k w := by
  have h : tdel k (tset d t k v) = tdel k t := by
    unfold tset
    split
    · exact tdel_tdel t k
    · exact tdel_tins _ k v (tdel_no_key t k)
  rw [tset, h]
  rfl

/-! ### The canonical form -/

theorem twfFrom_mono (d : Nat → α) (t : Tbl α) {a b : Nat} (hab : a ≤ b) (h : twfFrom d b t = true) : twfFrom d a t = true := by
  cases t with
  | nil => rfl
  | cons e t =>
    simp only [twfFrom, Bool.and_eq_true, decide_eq_true_eq] at h ⊢
    exact ⟨⟨by omega, h.1.2⟩, h.2⟩

theorem twfFrom_filter (d : Nat → α) (p : Nat × α → Bool) (t : Tbl α) :
    ∀ a, twfFrom d a t = true → twfFrom d a (t.filter p) = true := by
  induction t with
  | nil => intro a _; rfl
  | cons e t ih =>
    intro a h
    simp only [twfFrom, Bool.and_eq_true, decide_eq_true_eq] at h
    by_cases hp : p e = true
    · rw [List.filter_cons_of_pos hp]
      simp only [twfFrom, Bool.and_eq_true, decide_eq_true_eq]
      exact ⟨h.1, ih _ h.2⟩
    · rw [List.filter_cons_of_neg hp]
      exact ih a (twfFrom_mono d t (by omega) h.2)

theorem twfFrom_tdel (d : Nat → α) (k : Nat) (t : Tbl α) :
    ∀ a, twfFrom d a t = true → twfFrom d a (tdel k t) = true := by
  induction t with
  | nil => intro a _; rfl
  | cons e t ih =>
    intro a h
    obtain ⟨j, v⟩ := e
    simp only [twfFrom, Bool.and_eq_true, decide_eq_true_eq] at h
    by_cases hj : j = k
    · rw [tdel, if_pos hj]
      exact ih a (twfFrom_mono d t (by omega) h.2)
    · rw [tdel, if_neg hj]
      simp only [twfFrom, Bool.and_eq_true, decide_eq_true_eq]
      exact ⟨h.1, ih _ h.2⟩

theorem twfFrom_tins (d : Nat → α) (k : Nat) (v : α) (hv : v ≠ d k) (t : Tbl α) :
    ∀ a, a ≤ k → (∀ e ∈ t, e.1 ≠ k) → twfFrom d a t = true → twfFrom d a (tins k v t) = true := by
  induction t with
  | nil => intro a ha _ _; simp [tins, twfFrom, ha, hv]
  | cons e t ih =>
    intro a ha hk h
    obtain ⟨j, w⟩ := e
    have hj : j ≠ k := hk (j, w) (by simp)
    simp only [twfFrom, Bool.and_eq_true, decide_eq_true_eq] at h
    by_cases hl : k < j
    · rw [tins, if_pos hl]
      simp only [twfFrom, Bool.and_eq_true, decide_eq_true_eq]
      exact ⟨⟨ha, hv⟩, ⟨by omega, h.1.2⟩, h.2⟩
    · rw [tins, if_neg hl]
      simp only [twfFrom, Bool.and_eq_true, decide_eq_true_eq]
      exact ⟨h.1, ih (j + 1) (by omega) (fun e he => hk e (by simp [he])) h.2⟩

/-- A write keeps the canonical form. -/
theorem twf_tset (d : Nat → α) (t : Tbl α) (k : Nat) (v : α) (h : twf d t = true) : twf d (tset d t k v) = true := by
  unfold tset
  split
  · exact twfFrom_tdel d k t 0 h
  · rename_i hv
    exact twfFrom_tins d k v hv _ 0 (Nat.zero_le _) (tdel_no_key t k) (twfFrom_tdel d k t 0 h)

theorem twf_filter (d : Nat → α) (p : Nat × α → Bool) (t : Tbl α) (h : twf d t = true) : twf d (t.filter p) = true :=
  twfFrom_filter d p t 0 h

end Machine
end Sys2Proof
end

