-- ==== Sys2Proof/Laws/Faults.lean ====
section
/-! SUPPORT. What pushing and raising a fault can do: a record goes to its channel, the context stops, and nothing else
changes. -/
namespace Sys2Proof
namespace Machine

@[simp] theorem getCtx_setCtx_same (s : State) (c : Nat) (x : Ctx) : getCtx (setCtx s c x) c = x := tget_tset_same _ _ _ _

theorem getCtx_setCtx_ne (s : State) {c d : Nat} (x : Ctx) (h : d ≠ c) : getCtx (setCtx s c x) d = getCtx s d :=
  tget_tset_ne _ _ _ h

@[simp] theorem getCtx_modCtx_same (s : State) (c : Nat) (f : Ctx → Ctx) : getCtx (modCtx s c f) c = f (getCtx s c) :=
  getCtx_setCtx_same _ _ _

theorem getCtx_modCtx_ne (s : State) {c d : Nat} (f : Ctx → Ctx) (h : d ≠ c) : getCtx (modCtx s c f) d = getCtx s d :=
  getCtx_setCtx_ne _ _ h

/-- A state that differs in one Cane instance, and possibly in the ticks of its flags. -/
theorem canePart {s : State} {i : Nat} {y : Cane} (u : State) (h : u = setCane s i y ∨ ∃ o f, u = flagSet (setCane s i y) o f) :
    ∃ y fl, u = { setCane s i y with flagAt := fl } := by
  rcases h with h | ⟨o, f, h⟩
  · exact ⟨y, s.flagAt, h⟩
  · exact ⟨y, _, h⟩

/-- The parts of the state that a fault can change. -/
theorem faultPush_cases (s : State) (r : FaultRec) :
    (∃ y fl, faultPush s r = { setCane s (faultChan r.engine r.unit) y with flagAt := fl }) ∨
    (∃ c, r.ctx = some c ∧ faultPush s r = modCtx s c fun x => { x with more := min (x.more + 1) (2 ^ 32 - 1) }) ∨
    faultPush s r = s ∨
    faultPush s r = { s with faultHeld := s.faultHeld ++ [{ chan := faultChan r.engine r.unit, item := r }] } := by
  unfold faultPush
  dsimp only
  split
  · split
    · exact .inl (canePart _ (.inl rfl))
    · exact .inl (canePart _ (.inr ⟨_, _, rfl⟩))
  · split
    · exact .inl (canePart _ (.inl rfl))
    · split
      · split
        · rename_i c hc
          exact .inr (.inl ⟨c, hc, rfl⟩)
        · exact .inr (.inr (.inl rfl))
      · exact .inr (.inr (.inr rfl))

/-- A pushed record changes a context in its count of further records alone. -/
theorem faultPush_getCtx (s : State) (r : FaultRec) (c : Nat) :
    ∃ n, getCtx (faultPush s r) c = { getCtx s c with more := n } := by
  rcases faultPush_cases s r with ⟨y, fl, h⟩ | ⟨d, -, h⟩ | h | h
  · exact ⟨_, by rw [h]; rfl⟩
  · by_cases e : c = (d : Nat)
    · exact ⟨_, by rw [h, ← e, getCtx_modCtx_same]⟩
    · exact ⟨_, by rw [h, getCtx_modCtx_ne _ _ e]⟩
  · exact ⟨_, by rw [h]⟩
  · exact ⟨_, by rw [h]; rfl⟩

theorem faultPush_frame {α : Type} (f : State → α) (s : State) (r : FaultRec)
    (h1 : ∀ i y fl, f { setCane s i y with flagAt := fl } = f s) (h2 : ∀ c g, f (modCtx s c g) = f s)
    (h3 : ∀ l, f { s with faultHeld := l } = f s) : f (faultPush s r) = f s := by
  rcases faultPush_cases s r with ⟨y, fl, h⟩ | ⟨d, -, h⟩ | h | h
  · rw [h, h1]
  · rw [h, h2]
  · rw [h]
  · rw [h, h3]

theorem raiseAt_frame {α : Type} (f : State → α) (s : State) (c : CtxId) (t : Nat) (i : FaultInfo)
    (h1 : ∀ s i y fl, f { setCane s i y with flagAt := fl } = f s) (h2 : ∀ s c g, f (modCtx s c g) = f s)
    (h3 : ∀ (s : State) l, f { s with faultHeld := l } = f s) : f (raiseAt s c t i) = f s := by
  unfold raiseAt
  dsimp only
  split
  · rw [h2]
  · rw [h2, faultPush_frame f s _ (h1 s) (h2 s) (h3 s)]

/-- A fault outside a purge: the plan is FAULTED and the fault tick is the earliest (R244, R282). -/
theorem raiseAt_ctx (s : State) (c : CtxId) (t : Nat) (i : FaultInfo) (h : purging (getCtx s c) = false) :
    ∃ n, getCtx (raiseAt s c t i) c = { getCtx s c with
      more := n, plan := .faulted
      faultTick := match (getCtx s c).faultTick with | some g => some (min t g) | none => some t } := by
  obtain ⟨n, hn⟩ := faultPush_getCtx s (mkRec s (some c) true t i) c
  refine ⟨n, ?_⟩
  unfold raiseAt
  simp only [h, Bool.false_eq_true, if_false]
  rw [getCtx_modCtx_same, hn]
  all_goals rfl

theorem raiseAt_ctx_ne (s : State) (c : CtxId) (t : Nat) (i : FaultInfo) {d : Nat} (h : d ≠ c) :
    getCtx (raiseAt s c t i) d = getCtx s d := by
  have hp : getCtx (faultPush s (mkRec s (some c) true t i)) d = getCtx s d := by
    rcases faultPush_cases s (mkRec s (some c) true t i) with ⟨y, fl, e⟩ | ⟨k, hk, e⟩ | e | e
    · rw [e]; rfl
    · have : k = c := (Option.some.inj hk).symm
      rw [e, this, getCtx_modCtx_ne _ _ h]
    · rw [e]
    · rw [e]; rfl
  unfold raiseAt
  dsimp only
  split
  · rw [getCtx_modCtx_ne _ _ h]
  · rw [getCtx_modCtx_ne _ _ h, hp]

@[simp] theorem faultPush_pending (s : State) (r : FaultRec) : (faultPush s r).pending = s.pending :=
  faultPush_frame (·.pending) s r (fun _ _ _ => rfl) (fun _ _ => rfl) fun _ => rfl
@[simp] theorem raiseAt_pending (s : State) (c : CtxId) (t : Nat) (i : FaultInfo) : (raiseAt s c t i).pending = s.pending :=
  raiseAt_frame (·.pending) s c t i (fun _ _ _ _ => rfl) (fun _ _ _ => rfl) fun _ _ => rfl
@[simp] theorem faultPush_fresh (s : State) (r : FaultRec) : (faultPush s r).fresh = s.fresh :=
  faultPush_frame (·.fresh) s r (fun _ _ _ => rfl) (fun _ _ => rfl) fun _ => rfl
@[simp] theorem raiseAt_fresh (s : State) (c : CtxId) (t : Nat) (i : FaultInfo) : (raiseAt s c t i).fresh = s.fresh :=
  raiseAt_frame (·.fresh) s c t i (fun _ _ _ _ => rfl) (fun _ _ _ => rfl) fun _ _ => rfl
@[simp] theorem faultPush_now (s : State) (r : FaultRec) : (faultPush s r).now = s.now :=
  faultPush_frame (·.now) s r (fun _ _ _ => rfl) (fun _ _ => rfl) fun _ => rfl
@[simp] theorem raiseAt_now (s : State) (c : CtxId) (t : Nat) (i : FaultInfo) : (raiseAt s c t i).now = s.now :=
  raiseAt_frame (·.now) s c t i (fun _ _ _ _ => rfl) (fun _ _ _ => rfl) fun _ _ => rfl
@[simp] theorem faultPush_mem (s : State) (r : FaultRec) : (faultPush s r).mem = s.mem :=
  faultPush_frame (·.mem) s r (fun _ _ _ => rfl) (fun _ _ => rfl) fun _ => rfl
@[simp] theorem raiseAt_mem (s : State) (c : CtxId) (t : Nat) (i : FaultInfo) : (raiseAt s c t i).mem = s.mem :=
  raiseAt_frame (·.mem) s c t i (fun _ _ _ _ => rfl) (fun _ _ _ => rfl) fun _ _ => rfl
@[simp] theorem faultPush_flaw (s : State) (r : FaultRec) : (faultPush s r).flaw = s.flaw :=
  faultPush_frame (·.flaw) s r (fun _ _ _ => rfl) (fun _ _ => rfl) fun _ => rfl
@[simp] theorem raiseAt_flaw (s : State) (c : CtxId) (t : Nat) (i : FaultInfo) : (raiseAt s c t i).flaw = s.flaw :=
  raiseAt_frame (·.flaw) s c t i (fun _ _ _ _ => rfl) (fun _ _ _ => rfl) fun _ _ => rfl
@[simp] theorem faultPush_poison (s : State) (r : FaultRec) : (faultPush s r).poison = s.poison :=
  faultPush_frame (·.poison) s r (fun _ _ _ => rfl) (fun _ _ => rfl) fun _ => rfl
@[simp] theorem raiseAt_poison (s : State) (c : CtxId) (t : Nat) (i : FaultInfo) : (raiseAt s c t i).poison = s.poison :=
  raiseAt_frame (·.poison) s c t i (fun _ _ _ _ => rfl) (fun _ _ _ => rfl) fun _ _ => rfl
@[simp] theorem faultPush_regs (s : State) (r : FaultRec) : (faultPush s r).regs = s.regs :=
  faultPush_frame (·.regs) s r (fun _ _ _ => rfl) (fun _ _ => rfl) fun _ => rfl
@[simp] theorem raiseAt_regs (s : State) (c : CtxId) (t : Nat) (i : FaultInfo) : (raiseAt s c t i).regs = s.regs :=
  raiseAt_frame (·.regs) s c t i (fun _ _ _ _ => rfl) (fun _ _ _ => rfl) fun _ _ => rfl
@[simp] theorem faultPush_tiles (s : State) (r : FaultRec) : (faultPush s r).tiles = s.tiles :=
  faultPush_frame (·.tiles) s r (fun _ _ _ => rfl) (fun _ _ => rfl) fun _ => rfl
@[simp] theorem raiseAt_tiles (s : State) (c : CtxId) (t : Nat) (i : FaultInfo) : (raiseAt s c t i).tiles = s.tiles :=
  raiseAt_frame (·.tiles) s c t i (fun _ _ _ _ => rfl) (fun _ _ _ => rfl) fun _ _ => rfl
@[simp] theorem faultPush_chip (s : State) (r : FaultRec) : (faultPush s r).chip = s.chip :=
  faultPush_frame (·.chip) s r (fun _ _ _ => rfl) (fun _ _ => rfl) fun _ => rfl
@[simp] theorem raiseAt_chip (s : State) (c : CtxId) (t : Nat) (i : FaultInfo) : (raiseAt s c t i).chip = s.chip :=
  raiseAt_frame (·.chip) s c t i (fun _ _ _ _ => rfl) (fun _ _ _ => rfl) fun _ _ => rfl
@[simp] theorem faultPush_syncNet (s : State) (r : FaultRec) : (faultPush s r).syncNet = s.syncNet :=
  faultPush_frame (·.syncNet) s r (fun _ _ _ => rfl) (fun _ _ => rfl) fun _ => rfl
@[simp] theorem raiseAt_syncNet (s : State) (c : CtxId) (t : Nat) (i : FaultInfo) : (raiseAt s c t i).syncNet = s.syncNet :=
  raiseAt_frame (·.syncNet) s c t i (fun _ _ _ _ => rfl) (fun _ _ _ => rfl) fun _ _ => rfl
@[simp] theorem faultPush_flight (s : State) (r : FaultRec) : (faultPush s r).flight = s.flight :=
  faultPush_frame (·.flight) s r (fun _ _ _ => rfl) (fun _ _ => rfl) fun _ => rfl
@[simp] theorem raiseAt_flight (s : State) (c : CtxId) (t : Nat) (i : FaultInfo) : (raiseAt s c t i).flight = s.flight :=
  raiseAt_frame (·.flight) s c t i (fun _ _ _ _ => rfl) (fun _ _ _ => rfl) fun _ _ => rfl
@[simp] theorem faultPush_chanW (s : State) (r : FaultRec) : (faultPush s r).chanW = s.chanW :=
  faultPush_frame (·.chanW) s r (fun _ _ _ => rfl) (fun _ _ => rfl) fun _ => rfl
@[simp] theorem raiseAt_chanW (s : State) (c : CtxId) (t : Nat) (i : FaultInfo) : (raiseAt s c t i).chanW = s.chanW :=
  raiseAt_frame (·.chanW) s c t i (fun _ _ _ _ => rfl) (fun _ _ _ => rfl) fun _ _ => rfl
@[simp] theorem faultPush_deliv (s : State) (r : FaultRec) : (faultPush s r).deliv = s.deliv :=
  faultPush_frame (·.deliv) s r (fun _ _ _ => rfl) (fun _ _ => rfl) fun _ => rfl
@[simp] theorem raiseAt_deliv (s : State) (c : CtxId) (t : Nat) (i : FaultInfo) : (raiseAt s c t i).deliv = s.deliv :=
  raiseAt_frame (·.deliv) s c t i (fun _ _ _ _ => rfl) (fun _ _ _ => rfl) fun _ _ => rfl
@[simp] theorem faultPush_engines (s : State) (r : FaultRec) : (faultPush s r).engines = s.engines :=
  faultPush_frame (·.engines) s r (fun _ _ _ => rfl) (fun _ _ => rfl) fun _ => rfl
@[simp] theorem raiseAt_engines (s : State) (c : CtxId) (t : Nat) (i : FaultInfo) : (raiseAt s c t i).engines = s.engines :=
  raiseAt_frame (·.engines) s c t i (fun _ _ _ _ => rfl) (fun _ _ _ => rfl) fun _ _ => rfl
@[simp] theorem faultPush_refreshP (s : State) (r : FaultRec) : (faultPush s r).refreshP = s.refreshP :=
  faultPush_frame (·.refreshP) s r (fun _ _ _ => rfl) (fun _ _ => rfl) fun _ => rfl
@[simp] theorem raiseAt_refreshP (s : State) (c : CtxId) (t : Nat) (i : FaultInfo) : (raiseAt s c t i).refreshP = s.refreshP :=
  raiseAt_frame (·.refreshP) s c t i (fun _ _ _ _ => rfl) (fun _ _ _ => rfl) fun _ _ => rfl
@[simp] theorem faultPush_rel (s : State) (r : FaultRec) : (faultPush s r).rel = s.rel :=
  faultPush_frame (·.rel) s r (fun _ _ _ => rfl) (fun _ _ => rfl) fun _ => rfl
@[simp] theorem raiseAt_rel (s : State) (c : CtxId) (t : Nat) (i : FaultInfo) : (raiseAt s c t i).rel = s.rel :=
  raiseAt_frame (·.rel) s c t i (fun _ _ _ _ => rfl) (fun _ _ _ => rfl) fun _ _ => rfl
@[simp] theorem faultPush_abuf (s : State) (r : FaultRec) : (faultPush s r).abuf = s.abuf :=
  faultPush_frame (·.abuf) s r (fun _ _ _ => rfl) (fun _ _ => rfl) fun _ => rfl
@[simp] theorem raiseAt_abuf (s : State) (c : CtxId) (t : Nat) (i : FaultInfo) : (raiseAt s c t i).abuf = s.abuf :=
  raiseAt_frame (·.abuf) s c t i (fun _ _ _ _ => rfl) (fun _ _ _ => rfl) fun _ _ => rfl
@[simp] theorem faultPush_recNext (s : State) (r : FaultRec) : (faultPush s r).recNext = s.recNext :=
  faultPush_frame (·.recNext) s r (fun _ _ _ => rfl) (fun _ _ => rfl) fun _ => rfl
@[simp] theorem raiseAt_recNext (s : State) (c : CtxId) (t : Nat) (i : FaultInfo) : (raiseAt s c t i).recNext = s.recNext :=
  raiseAt_frame (·.recNext) s c t i (fun _ _ _ _ => rfl) (fun _ _ _ => rfl) fun _ _ => rfl
@[simp] theorem faultPush_tileMap (s : State) (r : FaultRec) : (faultPush s r).tileMap = s.tileMap :=
  faultPush_frame (·.tileMap) s r (fun _ _ _ => rfl) (fun _ _ => rfl) fun _ => rfl
@[simp] theorem raiseAt_tileMap (s : State) (c : CtxId) (t : Nat) (i : FaultInfo) : (raiseAt s c t i).tileMap = s.tileMap :=
  raiseAt_frame (·.tileMap) s c t i (fun _ _ _ _ => rfl) (fun _ _ _ => rfl) fun _ _ => rfl
@[simp] theorem faultPush_repairRec (s : State) (r : FaultRec) : (faultPush s r).repairRec = s.repairRec :=
  faultPush_frame (·.repairRec) s r (fun _ _ _ => rfl) (fun _ _ => rfl) fun _ => rfl
@[simp] theorem raiseAt_repairRec (s : State) (c : CtxId) (t : Nat) (i : FaultInfo) : (raiseAt s c t i).repairRec = s.repairRec :=
  raiseAt_frame (·.repairRec) s c t i (fun _ _ _ _ => rfl) (fun _ _ _ => rfl) fun _ _ => rfl
@[simp] theorem faultPush_zones (s : State) (r : FaultRec) : (faultPush s r).zones = s.zones :=
  faultPush_frame (·.zones) s r (fun _ _ _ => rfl) (fun _ _ => rfl) fun _ => rfl
@[simp] theorem raiseAt_zones (s : State) (c : CtxId) (t : Nat) (i : FaultInfo) : (raiseAt s c t i).zones = s.zones :=
  raiseAt_frame (·.zones) s c t i (fun _ _ _ _ => rfl) (fun _ _ _ => rfl) fun _ _ => rfl
@[simp] theorem faultPush_foldB (s : State) (r : FaultRec) : (faultPush s r).foldB = s.foldB :=
  faultPush_frame (·.foldB) s r (fun _ _ _ => rfl) (fun _ _ => rfl) fun _ => rfl
@[simp] theorem raiseAt_foldB (s : State) (c : CtxId) (t : Nat) (i : FaultInfo) : (raiseAt s c t i).foldB = s.foldB :=
  raiseAt_frame (·.foldB) s c t i (fun _ _ _ _ => rfl) (fun _ _ _ => rfl) fun _ _ => rfl
@[simp] theorem faultPush_links (s : State) (r : FaultRec) : (faultPush s r).links = s.links :=
  faultPush_frame (·.links) s r (fun _ _ _ => rfl) (fun _ _ => rfl) fun _ => rfl
@[simp] theorem raiseAt_links (s : State) (c : CtxId) (t : Nat) (i : FaultInfo) : (raiseAt s c t i).links = s.links :=
  raiseAt_frame (·.links) s c t i (fun _ _ _ _ => rfl) (fun _ _ _ => rfl) fun _ _ => rfl
@[simp] theorem faultPush_lclk (s : State) (r : FaultRec) : (faultPush s r).lclk = s.lclk :=
  faultPush_frame (·.lclk) s r (fun _ _ _ => rfl) (fun _ _ => rfl) fun _ => rfl
@[simp] theorem raiseAt_lclk (s : State) (c : CtxId) (t : Nat) (i : FaultInfo) : (raiseAt s c t i).lclk = s.lclk :=
  raiseAt_frame (·.lclk) s c t i (fun _ _ _ _ => rfl) (fun _ _ _ => rfl) fun _ _ => rfl
@[simp] theorem faultPush_recov (s : State) (r : FaultRec) : (faultPush s r).recov = s.recov :=
  faultPush_frame (·.recov) s r (fun _ _ _ => rfl) (fun _ _ => rfl) fun _ => rfl
@[simp] theorem raiseAt_recov (s : State) (c : CtxId) (t : Nat) (i : FaultInfo) : (raiseAt s c t i).recov = s.recov :=
  raiseAt_frame (·.recov) s c t i (fun _ _ _ _ => rfl) (fun _ _ _ => rfl) fun _ _ => rfl
@[simp] theorem faultPush_hot (s : State) (r : FaultRec) : (faultPush s r).hot = s.hot :=
  faultPush_frame (·.hot) s r (fun _ _ _ => rfl) (fun _ _ => rfl) fun _ => rfl
@[simp] theorem raiseAt_hot (s : State) (c : CtxId) (t : Nat) (i : FaultInfo) : (raiseAt s c t i).hot = s.hot :=
  raiseAt_frame (·.hot) s c t i (fun _ _ _ _ => rfl) (fun _ _ _ => rfl) fun _ _ => rfl
@[simp] theorem faultPush_reqq (s : State) (r : FaultRec) : (faultPush s r).reqq = s.reqq :=
  faultPush_frame (·.reqq) s r (fun _ _ _ => rfl) (fun _ _ => rfl) fun _ => rfl
@[simp] theorem raiseAt_reqq (s : State) (c : CtxId) (t : Nat) (i : FaultInfo) : (raiseAt s c t i).reqq = s.reqq :=
  raiseAt_frame (·.reqq) s c t i (fun _ _ _ _ => rfl) (fun _ _ _ => rfl) fun _ _ => rfl
@[simp] theorem faultPush_outst (s : State) (r : FaultRec) : (faultPush s r).outst = s.outst :=
  faultPush_frame (·.outst) s r (fun _ _ _ => rfl) (fun _ _ => rfl) fun _ => rfl
@[simp] theorem raiseAt_outst (s : State) (c : CtxId) (t : Nat) (i : FaultInfo) : (raiseAt s c t i).outst = s.outst :=
  raiseAt_frame (·.outst) s c t i (fun _ _ _ _ => rfl) (fun _ _ _ => rfl) fun _ _ => rfl
@[simp] theorem faultPush_inb (s : State) (r : FaultRec) : (faultPush s r).inb = s.inb :=
  faultPush_frame (·.inb) s r (fun _ _ _ => rfl) (fun _ _ => rfl) fun _ => rfl
@[simp] theorem raiseAt_inb (s : State) (c : CtxId) (t : Nat) (i : FaultInfo) : (raiseAt s c t i).inb = s.inb :=
  raiseAt_frame (·.inb) s c t i (fun _ _ _ _ => rfl) (fun _ _ _ => rfl) fun _ _ => rfl
@[simp] theorem faultPush_niOut (s : State) (r : FaultRec) : (faultPush s r).niOut = s.niOut :=
  faultPush_frame (·.niOut) s r (fun _ _ _ => rfl) (fun _ _ => rfl) fun _ => rfl
@[simp] theorem raiseAt_niOut (s : State) (c : CtxId) (t : Nat) (i : FaultInfo) : (raiseAt s c t i).niOut = s.niOut :=
  raiseAt_frame (·.niOut) s c t i (fun _ _ _ _ => rfl) (fun _ _ _ => rfl) fun _ _ => rfl
@[simp] theorem faultPush_respW (s : State) (r : FaultRec) : (faultPush s r).respW = s.respW :=
  faultPush_frame (·.respW) s r (fun _ _ _ => rfl) (fun _ _ => rfl) fun _ => rfl
@[simp] theorem raiseAt_respW (s : State) (c : CtxId) (t : Nat) (i : FaultInfo) : (raiseAt s c t i).respW = s.respW :=
  raiseAt_frame (·.respW) s c t i (fun _ _ _ _ => rfl) (fun _ _ _ => rfl) fun _ _ => rfl
@[simp] theorem faultPush_niKey (s : State) (r : FaultRec) : (faultPush s r).niKey = s.niKey :=
  faultPush_frame (·.niKey) s r (fun _ _ _ => rfl) (fun _ _ => rfl) fun _ => rfl
@[simp] theorem raiseAt_niKey (s : State) (c : CtxId) (t : Nat) (i : FaultInfo) : (raiseAt s c t i).niKey = s.niKey :=
  raiseAt_frame (·.niKey) s c t i (fun _ _ _ _ => rfl) (fun _ _ _ => rfl) fun _ _ => rfl
@[simp] theorem faultPush_rankC (s : State) (r : FaultRec) : (faultPush s r).rankC = s.rankC :=
  faultPush_frame (·.rankC) s r (fun _ _ _ => rfl) (fun _ _ => rfl) fun _ => rfl
@[simp] theorem raiseAt_rankC (s : State) (c : CtxId) (t : Nat) (i : FaultInfo) : (raiseAt s c t i).rankC = s.rankC :=
  raiseAt_frame (·.rankC) s c t i (fun _ _ _ _ => rfl) (fun _ _ _ => rfl) fun _ _ => rfl
@[simp] theorem faultPush_routeC (s : State) (r : FaultRec) : (faultPush s r).routeC = s.routeC :=
  faultPush_frame (·.routeC) s r (fun _ _ _ => rfl) (fun _ _ => rfl) fun _ => rfl
@[simp] theorem raiseAt_routeC (s : State) (c : CtxId) (t : Nat) (i : FaultInfo) : (raiseAt s c t i).routeC = s.routeC :=
  raiseAt_frame (·.routeC) s c t i (fun _ _ _ _ => rfl) (fun _ _ _ => rfl) fun _ _ => rfl
@[simp] theorem faultPush_retired (s : State) (r : FaultRec) : (faultPush s r).retired = s.retired :=
  faultPush_frame (·.retired) s r (fun _ _ _ => rfl) (fun _ _ => rfl) fun _ => rfl
@[simp] theorem raiseAt_retired (s : State) (c : CtxId) (t : Nat) (i : FaultInfo) : (raiseAt s c t i).retired = s.retired :=
  raiseAt_frame (·.retired) s c t i (fun _ _ _ _ => rfl) (fun _ _ _ => rfl) fun _ _ => rfl
@[simp] theorem faultPush_rateWin (s : State) (r : FaultRec) : (faultPush s r).rateWin = s.rateWin :=
  faultPush_frame (·.rateWin) s r (fun _ _ _ => rfl) (fun _ _ => rfl) fun _ => rfl
@[simp] theorem raiseAt_rateWin (s : State) (c : CtxId) (t : Nat) (i : FaultInfo) : (raiseAt s c t i).rateWin = s.rateWin :=
  raiseAt_frame (·.rateWin) s c t i (fun _ _ _ _ => rfl) (fun _ _ _ => rfl) fun _ _ => rfl
@[simp] theorem faultPush_echoed (s : State) (r : FaultRec) : (faultPush s r).echoed = s.echoed :=
  faultPush_frame (·.echoed) s r (fun _ _ _ => rfl) (fun _ _ => rfl) fun _ => rfl
@[simp] theorem raiseAt_echoed (s : State) (c : CtxId) (t : Nat) (i : FaultInfo) : (raiseAt s c t i).echoed = s.echoed :=
  raiseAt_frame (·.echoed) s c t i (fun _ _ _ _ => rfl) (fun _ _ _ => rfl) fun _ _ => rfl
@[simp] theorem faultPush_tim (s : State) (r : FaultRec) : (faultPush s r).tim = s.tim :=
  faultPush_frame (·.tim) s r (fun _ _ _ => rfl) (fun _ _ => rfl) fun _ => rfl
@[simp] theorem raiseAt_tim (s : State) (c : CtxId) (t : Nat) (i : FaultInfo) : (raiseAt s c t i).tim = s.tim :=
  raiseAt_frame (·.tim) s c t i (fun _ _ _ _ => rfl) (fun _ _ _ => rfl) fun _ _ => rfl
@[simp] theorem faultPush_shadow (s : State) (r : FaultRec) : (faultPush s r).shadow = s.shadow :=
  faultPush_frame (·.shadow) s r (fun _ _ _ => rfl) (fun _ _ => rfl) fun _ => rfl
@[simp] theorem raiseAt_shadow (s : State) (c : CtxId) (t : Nat) (i : FaultInfo) : (raiseAt s c t i).shadow = s.shadow :=
  raiseAt_frame (·.shadow) s c t i (fun _ _ _ _ => rfl) (fun _ _ _ => rfl) fun _ _ => rfl
@[simp] theorem faultPush_snaps (s : State) (r : FaultRec) : (faultPush s r).snaps = s.snaps :=
  faultPush_frame (·.snaps) s r (fun _ _ _ => rfl) (fun _ _ => rfl) fun _ => rfl
@[simp] theorem raiseAt_snaps (s : State) (c : CtxId) (t : Nat) (i : FaultInfo) : (raiseAt s c t i).snaps = s.snaps :=
  raiseAt_frame (·.snaps) s c t i (fun _ _ _ _ => rfl) (fun _ _ _ => rfl) fun _ _ => rfl
@[simp] theorem faultPush_lpUsed (s : State) (r : FaultRec) : (faultPush s r).lpUsed = s.lpUsed :=
  faultPush_frame (·.lpUsed) s r (fun _ _ _ => rfl) (fun _ _ => rfl) fun _ => rfl
@[simp] theorem raiseAt_lpUsed (s : State) (c : CtxId) (t : Nat) (i : FaultInfo) : (raiseAt s c t i).lpUsed = s.lpUsed :=
  raiseAt_frame (·.lpUsed) s c t i (fun _ _ _ _ => rfl) (fun _ _ _ => rfl) fun _ _ => rfl
@[simp] theorem faultPush_lpPlan (s : State) (r : FaultRec) : (faultPush s r).lpPlan = s.lpPlan :=
  faultPush_frame (·.lpPlan) s r (fun _ _ _ => rfl) (fun _ _ => rfl) fun _ => rfl
@[simp] theorem raiseAt_lpPlan (s : State) (c : CtxId) (t : Nat) (i : FaultInfo) : (raiseAt s c t i).lpPlan = s.lpPlan :=
  raiseAt_frame (·.lpPlan) s c t i (fun _ _ _ _ => rfl) (fun _ _ _ => rfl) fun _ _ => rfl
@[simp] theorem faultPush_lpOpen (s : State) (r : FaultRec) : (faultPush s r).lpOpen = s.lpOpen :=
  faultPush_frame (·.lpOpen) s r (fun _ _ _ => rfl) (fun _ _ => rfl) fun _ => rfl
@[simp] theorem raiseAt_lpOpen (s : State) (c : CtxId) (t : Nat) (i : FaultInfo) : (raiseAt s c t i).lpOpen = s.lpOpen :=
  raiseAt_frame (·.lpOpen) s c t i (fun _ _ _ _ => rfl) (fun _ _ _ => rfl) fun _ _ => rfl
@[simp] theorem faultPush_ceNext (s : State) (r : FaultRec) : (faultPush s r).ceNext = s.ceNext :=
  faultPush_frame (·.ceNext) s r (fun _ _ _ => rfl) (fun _ _ => rfl) fun _ => rfl
@[simp] theorem raiseAt_ceNext (s : State) (c : CtxId) (t : Nat) (i : FaultInfo) : (raiseAt s c t i).ceNext = s.ceNext :=
  raiseAt_frame (·.ceNext) s c t i (fun _ _ _ _ => rfl) (fun _ _ _ => rfl) fun _ _ => rfl
@[simp] theorem faultPush_rowErr (s : State) (r : FaultRec) : (faultPush s r).rowErr = s.rowErr :=
  faultPush_frame (·.rowErr) s r (fun _ _ _ => rfl) (fun _ _ => rfl) fun _ => rfl
@[simp] theorem raiseAt_rowErr (s : State) (c : CtxId) (t : Nat) (i : FaultInfo) : (raiseAt s c t i).rowErr = s.rowErr :=
  raiseAt_frame (·.rowErr) s c t i (fun _ _ _ _ => rfl) (fun _ _ _ => rfl) fun _ _ => rfl
@[simp] theorem faultPush_ppr (s : State) (r : FaultRec) : (faultPush s r).ppr = s.ppr :=
  faultPush_frame (·.ppr) s r (fun _ _ _ => rfl) (fun _ _ => rfl) fun _ => rfl
@[simp] theorem raiseAt_ppr (s : State) (c : CtxId) (t : Nat) (i : FaultInfo) : (raiseAt s c t i).ppr = s.ppr :=
  raiseAt_frame (·.ppr) s c t i (fun _ _ _ _ => rfl) (fun _ _ _ => rfl) fun _ _ => rfl
@[simp] theorem faultPush_refWin (s : State) (r : FaultRec) : (faultPush s r).refWin = s.refWin :=
  faultPush_frame (·.refWin) s r (fun _ _ _ => rfl) (fun _ _ => rfl) fun _ => rfl
@[simp] theorem raiseAt_refWin (s : State) (c : CtxId) (t : Nat) (i : FaultInfo) : (raiseAt s c t i).refWin = s.refWin :=
  raiseAt_frame (·.refWin) s c t i (fun _ _ _ _ => rfl) (fun _ _ _ => rfl) fun _ _ => rfl
@[simp] theorem faultPush_scrubAt (s : State) (r : FaultRec) : (faultPush s r).scrubAt = s.scrubAt :=
  faultPush_frame (·.scrubAt) s r (fun _ _ _ => rfl) (fun _ _ => rfl) fun _ => rfl
@[simp] theorem raiseAt_scrubAt (s : State) (c : CtxId) (t : Nat) (i : FaultInfo) : (raiseAt s c t i).scrubAt = s.scrubAt :=
  raiseAt_frame (·.scrubAt) s c t i (fun _ _ _ _ => rfl) (fun _ _ _ => rfl) fun _ _ => rfl
@[simp] theorem faultPush_lnkPlan (s : State) (r : FaultRec) : (faultPush s r).lnkPlan = s.lnkPlan :=
  faultPush_frame (·.lnkPlan) s r (fun _ _ _ => rfl) (fun _ _ => rfl) fun _ => rfl
@[simp] theorem raiseAt_lnkPlan (s : State) (c : CtxId) (t : Nat) (i : FaultInfo) : (raiseAt s c t i).lnkPlan = s.lnkPlan :=
  raiseAt_frame (·.lnkPlan) s c t i (fun _ _ _ _ => rfl) (fun _ _ _ => rfl) fun _ _ => rfl
@[simp] theorem faultPush_lnkOpen (s : State) (r : FaultRec) : (faultPush s r).lnkOpen = s.lnkOpen :=
  faultPush_frame (·.lnkOpen) s r (fun _ _ _ => rfl) (fun _ _ => rfl) fun _ => rfl
@[simp] theorem raiseAt_lnkOpen (s : State) (c : CtxId) (t : Nat) (i : FaultInfo) : (raiseAt s c t i).lnkOpen = s.lnkOpen :=
  raiseAt_frame (·.lnkOpen) s c t i (fun _ _ _ _ => rfl) (fun _ _ _ => rfl) fun _ _ => rfl
@[simp] theorem faultPush_congWin (s : State) (r : FaultRec) : (faultPush s r).congWin = s.congWin :=
  faultPush_frame (·.congWin) s r (fun _ _ _ => rfl) (fun _ _ => rfl) fun _ => rfl
@[simp] theorem raiseAt_congWin (s : State) (c : CtxId) (t : Nat) (i : FaultInfo) : (raiseAt s c t i).congWin = s.congWin :=
  raiseAt_frame (·.congWin) s c t i (fun _ _ _ _ => rfl) (fun _ _ _ => rfl) fun _ _ => rfl
@[simp] theorem faultPush_recPhase (s : State) (r : FaultRec) : (faultPush s r).recPhase = s.recPhase :=
  faultPush_frame (·.recPhase) s r (fun _ _ _ => rfl) (fun _ _ => rfl) fun _ => rfl
@[simp] theorem raiseAt_recPhase (s : State) (c : CtxId) (t : Nat) (i : FaultInfo) : (raiseAt s c t i).recPhase = s.recPhase :=
  raiseAt_frame (·.recPhase) s c t i (fun _ _ _ _ => rfl) (fun _ _ _ => rfl) fun _ _ => rfl
@[simp] theorem faultPush_recOpen (s : State) (r : FaultRec) : (faultPush s r).recOpen = s.recOpen :=
  faultPush_frame (·.recOpen) s r (fun _ _ _ => rfl) (fun _ _ => rfl) fun _ => rfl
@[simp] theorem raiseAt_recOpen (s : State) (c : CtxId) (t : Nat) (i : FaultInfo) : (raiseAt s c t i).recOpen = s.recOpen :=
  raiseAt_frame (·.recOpen) s c t i (fun _ _ _ _ => rfl) (fun _ _ _ => rfl) fun _ _ => rfl
@[simp] theorem faultPush_protoMajor (s : State) (r : FaultRec) : (faultPush s r).protoMajor = s.protoMajor :=
  faultPush_frame (·.protoMajor) s r (fun _ _ _ => rfl) (fun _ _ => rfl) fun _ => rfl
@[simp] theorem raiseAt_protoMajor (s : State) (c : CtxId) (t : Nat) (i : FaultInfo) : (raiseAt s c t i).protoMajor = s.protoMajor :=
  raiseAt_frame (·.protoMajor) s c t i (fun _ _ _ _ => rfl) (fun _ _ _ => rfl) fun _ _ => rfl
@[simp] theorem faultPush_protoMinor (s : State) (r : FaultRec) : (faultPush s r).protoMinor = s.protoMinor :=
  faultPush_frame (·.protoMinor) s r (fun _ _ _ => rfl) (fun _ _ => rfl) fun _ => rfl
@[simp] theorem raiseAt_protoMinor (s : State) (c : CtxId) (t : Nat) (i : FaultInfo) : (raiseAt s c t i).protoMinor = s.protoMinor :=
  raiseAt_frame (·.protoMinor) s c t i (fun _ _ _ _ => rfl) (fun _ _ _ => rfl) fun _ _ => rfl
@[simp] theorem faultPush_hostMem (s : State) (r : FaultRec) : (faultPush s r).hostMem = s.hostMem :=
  faultPush_frame (·.hostMem) s r (fun _ _ _ => rfl) (fun _ _ => rfl) fun _ => rfl
@[simp] theorem raiseAt_hostMem (s : State) (c : CtxId) (t : Nat) (i : FaultInfo) : (raiseAt s c t i).hostMem = s.hostMem :=
  raiseAt_frame (·.hostMem) s c t i (fun _ _ _ _ => rfl) (fun _ _ _ => rfl) fun _ _ => rfl
@[simp] theorem faultPush_winMem (s : State) (r : FaultRec) : (faultPush s r).winMem = s.winMem :=
  faultPush_frame (·.winMem) s r (fun _ _ _ => rfl) (fun _ _ => rfl) fun _ => rfl
@[simp] theorem raiseAt_winMem (s : State) (c : CtxId) (t : Nat) (i : FaultInfo) : (raiseAt s c t i).winMem = s.winMem :=
  raiseAt_frame (·.winMem) s c t i (fun _ _ _ _ => rfl) (fun _ _ _ => rfl) fun _ _ => rfl
@[simp] theorem faultPush_winVf (s : State) (r : FaultRec) : (faultPush s r).winVf = s.winVf :=
  faultPush_frame (·.winVf) s r (fun _ _ _ => rfl) (fun _ _ => rfl) fun _ => rfl
@[simp] theorem raiseAt_winVf (s : State) (c : CtxId) (t : Nat) (i : FaultInfo) : (raiseAt s c t i).winVf = s.winVf :=
  raiseAt_frame (·.winVf) s c t i (fun _ _ _ _ => rfl) (fun _ _ _ => rfl) fun _ _ => rfl
@[simp] theorem faultPush_cmds (s : State) (r : FaultRec) : (faultPush s r).cmds = s.cmds :=
  faultPush_frame (·.cmds) s r (fun _ _ _ => rfl) (fun _ _ => rfl) fun _ => rfl
@[simp] theorem raiseAt_cmds (s : State) (c : CtxId) (t : Nat) (i : FaultInfo) : (raiseAt s c t i).cmds = s.cmds :=
  raiseAt_frame (·.cmds) s c t i (fun _ _ _ _ => rfl) (fun _ _ _ => rfl) fun _ _ => rfl
@[simp] theorem faultPush_outs (s : State) (r : FaultRec) : (faultPush s r).outs = s.outs :=
  faultPush_frame (·.outs) s r (fun _ _ _ => rfl) (fun _ _ => rfl) fun _ => rfl
@[simp] theorem raiseAt_outs (s : State) (c : CtxId) (t : Nat) (i : FaultInfo) : (raiseAt s c t i).outs = s.outs :=
  raiseAt_frame (·.outs) s c t i (fun _ _ _ _ => rfl) (fun _ _ _ => rfl) fun _ _ => rfl
@[simp] theorem faultPush_msix (s : State) (r : FaultRec) : (faultPush s r).msix = s.msix :=
  faultPush_frame (·.msix) s r (fun _ _ _ => rfl) (fun _ _ => rfl) fun _ => rfl
@[simp] theorem raiseAt_msix (s : State) (c : CtxId) (t : Nat) (i : FaultInfo) : (raiseAt s c t i).msix = s.msix :=
  raiseAt_frame (·.msix) s c t i (fun _ _ _ _ => rfl) (fun _ _ _ => rfl) fun _ _ => rfl
@[simp] theorem faultPush_vfApt (s : State) (r : FaultRec) : (faultPush s r).vfApt = s.vfApt :=
  faultPush_frame (·.vfApt) s r (fun _ _ _ => rfl) (fun _ _ => rfl) fun _ => rfl
@[simp] theorem raiseAt_vfApt (s : State) (c : CtxId) (t : Nat) (i : FaultInfo) : (raiseAt s c t i).vfApt = s.vfApt :=
  raiseAt_frame (·.vfApt) s c t i (fun _ _ _ _ => rfl) (fun _ _ _ => rfl) fun _ _ => rfl
@[simp] theorem faultPush_ideKeys (s : State) (r : FaultRec) : (faultPush s r).ideKeys = s.ideKeys :=
  faultPush_frame (·.ideKeys) s r (fun _ _ _ => rfl) (fun _ _ => rfl) fun _ => rfl
@[simp] theorem raiseAt_ideKeys (s : State) (c : CtxId) (t : Nat) (i : FaultInfo) : (raiseAt s c t i).ideKeys = s.ideKeys :=
  raiseAt_frame (·.ideKeys) s c t i (fun _ _ _ _ => rfl) (fun _ _ _ => rfl) fun _ _ => rfl
@[simp] theorem faultPush_ideBad (s : State) (r : FaultRec) : (faultPush s r).ideBad = s.ideBad :=
  faultPush_frame (·.ideBad) s r (fun _ _ _ => rfl) (fun _ _ => rfl) fun _ => rfl
@[simp] theorem raiseAt_ideBad (s : State) (c : CtxId) (t : Nat) (i : FaultInfo) : (raiseAt s c t i).ideBad = s.ideBad :=
  raiseAt_frame (·.ideBad) s c t i (fun _ _ _ _ => rfl) (fun _ _ _ => rfl) fun _ _ => rfl
@[simp] theorem faultPush_spdmSt (s : State) (r : FaultRec) : (faultPush s r).spdmSt = s.spdmSt :=
  faultPush_frame (·.spdmSt) s r (fun _ _ _ => rfl) (fun _ _ => rfl) fun _ => rfl
@[simp] theorem raiseAt_spdmSt (s : State) (c : CtxId) (t : Nat) (i : FaultInfo) : (raiseAt s c t i).spdmSt = s.spdmSt :=
  raiseAt_frame (·.spdmSt) s c t i (fun _ _ _ _ => rfl) (fun _ _ _ => rfl) fun _ _ => rfl
@[simp] theorem faultPush_sbd (s : State) (r : FaultRec) : (faultPush s r).sbd = s.sbd :=
  faultPush_frame (·.sbd) s r (fun _ _ _ => rfl) (fun _ _ => rfl) fun _ => rfl
@[simp] theorem raiseAt_sbd (s : State) (c : CtxId) (t : Nat) (i : FaultInfo) : (raiseAt s c t i).sbd = s.sbd :=
  raiseAt_frame (·.sbd) s c t i (fun _ _ _ _ => rfl) (fun _ _ _ => rfl) fun _ _ => rfl
@[simp] theorem faultPush_jtag (s : State) (r : FaultRec) : (faultPush s r).jtag = s.jtag :=
  faultPush_frame (·.jtag) s r (fun _ _ _ => rfl) (fun _ _ => rfl) fun _ => rfl
@[simp] theorem raiseAt_jtag (s : State) (c : CtxId) (t : Nat) (i : FaultInfo) : (raiseAt s c t i).jtag = s.jtag :=
  raiseAt_frame (·.jtag) s c t i (fun _ _ _ _ => rfl) (fun _ _ _ => rfl) fun _ _ => rfl
@[simp] theorem faultPush_twin (s : State) (r : FaultRec) : (faultPush s r).twin = s.twin :=
  faultPush_frame (·.twin) s r (fun _ _ _ => rfl) (fun _ _ => rfl) fun _ => rfl
@[simp] theorem raiseAt_twin (s : State) (c : CtxId) (t : Nat) (i : FaultInfo) : (raiseAt s c t i).twin = s.twin :=
  raiseAt_frame (·.twin) s c t i (fun _ _ _ _ => rfl) (fun _ _ _ => rfl) fun _ _ => rfl
@[simp] theorem faultPush_hang (s : State) (r : FaultRec) : (faultPush s r).hang = s.hang :=
  faultPush_frame (·.hang) s r (fun _ _ _ => rfl) (fun _ _ => rfl) fun _ => rfl
@[simp] theorem raiseAt_hang (s : State) (c : CtxId) (t : Nat) (i : FaultInfo) : (raiseAt s c t i).hang = s.hang :=
  raiseAt_frame (·.hang) s c t i (fun _ _ _ _ => rfl) (fun _ _ _ => rfl) fun _ _ => rfl
@[simp] theorem faultPush_recAt (s : State) (r : FaultRec) : (faultPush s r).recAt = s.recAt :=
  faultPush_frame (·.recAt) s r (fun _ _ _ => rfl) (fun _ _ => rfl) fun _ => rfl
@[simp] theorem raiseAt_recAt (s : State) (c : CtxId) (t : Nat) (i : FaultInfo) : (raiseAt s c t i).recAt = s.recAt :=
  raiseAt_frame (·.recAt) s c t i (fun _ _ _ _ => rfl) (fun _ _ _ => rfl) fun _ _ => rfl
@[simp] theorem faultPush_recStep (s : State) (r : FaultRec) : (faultPush s r).recStep = s.recStep :=
  faultPush_frame (·.recStep) s r (fun _ _ _ => rfl) (fun _ _ => rfl) fun _ => rfl
@[simp] theorem raiseAt_recStep (s : State) (c : CtxId) (t : Nat) (i : FaultInfo) : (raiseAt s c t i).recStep = s.recStep :=
  raiseAt_frame (·.recStep) s c t i (fun _ _ _ _ => rfl) (fun _ _ _ => rfl) fun _ _ => rfl
@[simp] theorem faultPush_pwr (s : State) (r : FaultRec) : (faultPush s r).pwr = s.pwr :=
  faultPush_frame (·.pwr) s r (fun _ _ _ => rfl) (fun _ _ => rfl) fun _ => rfl
@[simp] theorem raiseAt_pwr (s : State) (c : CtxId) (t : Nat) (i : FaultInfo) : (raiseAt s c t i).pwr = s.pwr :=
  raiseAt_frame (·.pwr) s c t i (fun _ _ _ _ => rfl) (fun _ _ _ => rfl) fun _ _ => rfl
@[simp] theorem faultPush_idle (s : State) (r : FaultRec) : (faultPush s r).idle = s.idle :=
  faultPush_frame (·.idle) s r (fun _ _ _ => rfl) (fun _ _ => rfl) fun _ => rfl
@[simp] theorem raiseAt_idle (s : State) (c : CtxId) (t : Nat) (i : FaultInfo) : (raiseAt s c t i).idle = s.idle :=
  raiseAt_frame (·.idle) s c t i (fun _ _ _ _ => rfl) (fun _ _ _ => rfl) fun _ _ => rfl
@[simp] theorem faultPush_flash (s : State) (r : FaultRec) : (faultPush s r).flash = s.flash :=
  faultPush_frame (·.flash) s r (fun _ _ _ => rfl) (fun _ _ => rfl) fun _ => rfl
@[simp] theorem raiseAt_flash (s : State) (c : CtxId) (t : Nat) (i : FaultInfo) : (raiseAt s c t i).flash = s.flash :=
  raiseAt_frame (·.flash) s c t i (fun _ _ _ _ => rfl) (fun _ _ _ => rfl) fun _ _ => rfl
@[simp] theorem faultPush_fuse (s : State) (r : FaultRec) : (faultPush s r).fuse = s.fuse :=
  faultPush_frame (·.fuse) s r (fun _ _ _ => rfl) (fun _ _ => rfl) fun _ => rfl
@[simp] theorem raiseAt_fuse (s : State) (c : CtxId) (t : Nat) (i : FaultInfo) : (raiseAt s c t i).fuse = s.fuse :=
  raiseAt_frame (·.fuse) s c t i (fun _ _ _ _ => rfl) (fun _ _ _ => rfl) fun _ _ => rfl
@[simp] theorem faultPush_boot (s : State) (r : FaultRec) : (faultPush s r).boot = s.boot :=
  faultPush_frame (·.boot) s r (fun _ _ _ => rfl) (fun _ _ => rfl) fun _ => rfl
@[simp] theorem raiseAt_boot (s : State) (c : CtxId) (t : Nat) (i : FaultInfo) : (raiseAt s c t i).boot = s.boot :=
  raiseAt_frame (·.boot) s c t i (fun _ _ _ _ => rfl) (fun _ _ _ => rfl) fun _ _ => rfl
@[simp] theorem faultPush_spill (s : State) (r : FaultRec) : (faultPush s r).spill = s.spill :=
  faultPush_frame (·.spill) s r (fun _ _ _ => rfl) (fun _ _ => rfl) fun _ => rfl
@[simp] theorem raiseAt_spill (s : State) (c : CtxId) (t : Nat) (i : FaultInfo) : (raiseAt s c t i).spill = s.spill :=
  raiseAt_frame (·.spill) s c t i (fun _ _ _ _ => rfl) (fun _ _ _ => rfl) fun _ _ => rfl

end Machine
end Sys2Proof
end

