-- ==== Sys2Proof/Laws/Fields.lean ====
section
/-! SUPPORT. Registers and their fields: a field reads as last written, and a write of one field leaves every disjoint
field and every other register. -/
namespace Sys2Proof
namespace Machine

/-- A field that lies inside the 64-bit word. -/
def Fld.ok (f : Fld) : Prop := f.lo ≤ f.hi ∧ f.hi < 64

theorem fset_getLsbD (f : Fld) (hf : f.ok) (w : W64) (v i : Nat) (hi : i < 64) :
    (fset f w v).getLsbD i = if f.lo ≤ i ∧ i ≤ f.hi then v.testBit (i - f.lo) else w.getLsbD i := by
  obtain ⟨h1, h2⟩ := hf
  simp only [fset, fmask, BitVec.getLsbD_or, BitVec.getLsbD_and, BitVec.getLsbD_not, BitVec.getLsbD_ofNat, hi,
    decide_true, Bool.true_and, Nat.testBit_shiftLeft, Nat.testBit_mod_two_pow, fwid]
  by_cases ha : f.lo ≤ i <;> by_cases hb : i ≤ f.hi
  · have : i - f.lo < f.hi + 1 - f.lo := by omega
    simp [ha, hb, this]
  · have : ¬ i - f.lo < f.hi + 1 - f.lo := by omega
    simp [ha, hb, this]
  · simp [ha]
  · simp [ha]

theorem fget_testBit (f : Fld) (w : W64) (i : Nat) :
    (fget f w).testBit i = (decide (i < fwid f) && w.getLsbD (f.lo + i)) := by
  simp only [fget, Nat.testBit_mod_two_pow, Nat.testBit_shiftRight, BitVec.getLsbD]

/-- A field reads as last written, modulo its width. -/
theorem fget_fset_same (f : Fld) (hf : f.ok) (w : W64) (v : Nat) : fget f (fset f w v) = v % 2 ^ fwid f := by
  apply Nat.eq_of_testBit_eq
  intro i
  rw [fget_testBit f, Nat.testBit_mod_two_pow]
  by_cases h : i < fwid f
  · have hb : f.lo + i ≤ f.hi := by have := hf.1; simp only [fwid] at h; omega
    rw [fset_getLsbD f hf w v _ (by have := hf.2; omega), if_pos ⟨by omega, hb⟩]
    simp [h]
  · simp [h]

/-- A write to one field leaves a disjoint one. -/
theorem fget_fset_ne (f g : Fld) (hf : f.ok) (hg : g.ok) (hd : g.hi < f.lo ∨ f.hi < g.lo) (w : W64) (v : Nat) :
    fget g (fset f w v) = fget g w := by
  apply Nat.eq_of_testBit_eq
  intro i
  rw [fget_testBit g, fget_testBit g]
  by_cases h : i < fwid g
  · have hb : g.lo + i ≤ g.hi := by have := hg.1; simp only [fwid] at h; omega
    rw [fset_getLsbD f hf w v _ (by have := hg.2; omega), if_neg (by omega)]
  · simp [h]

theorem fget_lt (f : Fld) (w : W64) : fget f w < 2 ^ fwid f := Nat.mod_lt _ (Nat.two_pow_pos _)

/-! ### Registers -/

@[simp] theorem regGet_regSet_same (s : State) (o : Nat) (w : W64) : regGet (regSet s o w) o = w := by simp [regGet, regSet]

theorem regGet_regSet_ne (s : State) {o p : Nat} (w : W64) (h : p ≠ o) : regGet (regSet s o w) p = regGet s p := by
  simp [regGet, regSet, h]

theorem rd_wr_same (s : State) (o : Nat) (f : Fld) (hf : f.ok) (v : Nat) : rd (wr s o f v) o f = v % 2 ^ fwid f := by
  simp [rd, wr, fget_fset_same f hf]

theorem rd_wr_field (s : State) (o : Nat) (f g : Fld) (hf : f.ok) (hg : g.ok) (hd : g.hi < f.lo ∨ f.hi < g.lo) (v : Nat) :
    rd (wr s o f v) o g = rd s o g := by
  simp [rd, wr, fget_fset_ne f g hf hg hd]

theorem rd_wr_ne (s : State) {o p : Nat} (f g : Fld) (v : Nat) (h : p ≠ o) : rd (wr s o f v) p g = rd s p g := by
  simp [rd, wr, regGet_regSet_ne s _ h]

theorem regGet_wr_ne (s : State) {o p : Nat} (f : Fld) (v : Nat) (h : p ≠ o) : regGet (wr s o f v) p = regGet s p := by
  simp [wr, regGet_regSet_ne s _ h]

end Machine
end Sys2Proof
end

