-- ==== Sys2Proof/Laws/Host.lean ====
section
/-! SUPPORT. What the shared operations of commands do: a command whose turn has come runs its body, and completing one
changes the commands held, its window's HELD, the sideband's requesters, host memory and what is sent, and nothing else. -/
namespace Sys2Proof
namespace Machine

/-! ### Counters -/

theorem rd_bumpBy_same (s : State) (o : Nat) (f : Fld) (hf : f.ok) (n : Nat) : rd (bumpBy s o f n) o f = min (rd s o f + n) (2 ^ fwid f - 1) := by
  rw [bumpBy, rd_wr_same s o f hf, Nat.mod_eq_of_lt]
  have := Nat.two_pow_pos (fwid f)
  omega
theorem rd_bumpBy_ne (s : State) {o p : Nat} (f g : Fld) (n : Nat) (h : p ≠ o) : rd (bumpBy s o f n) p g = rd s p g := rd_wr_ne s f g _ h
theorem rd_keepMax_same (s : State) (o : Nat) (f : Fld) (hf : f.ok) (n : Nat) : rd (keepMax s o f n) o f = max (rd s o f) (min n (2 ^ fwid f - 1)) := by
  have hp := Nat.two_pow_pos (fwid f)
  have hl : rd s o f < 2 ^ fwid f := fget_lt f _
  unfold keepMax
  by_cases h : rd s o f < n
  · rw [if_pos h, rd_wr_same s o f hf, Nat.mod_eq_of_lt (by omega)]
    omega
  · rw [if_neg h]
    omega

/-! ### A command that starts -/

theorem packetCmd_turn {s : State} {src : Src} {p : Packet} {h : HeldCmd} (ht : CmdTurn s src p h) (body again : State → HeldCmd → State) :
    packetCmd s src p true body again = body s h := by
  obtain ⟨hs, hf, hn, hm, hc⟩ := ht
  have hk : s.cmds.any (isCmd src p) = true := List.any_eq_true.2 ⟨h, List.mem_of_find?_eq_some hf, List.find?_some hf⟩
  have hx : (ctxOps.contains (pcode p) && decide ((getCtx s (pctx p)).st = .closed)) ≠ true := by
    intro h
    rw [Bool.and_eq_true, decide_eq_true_eq] at h
    exact hc h.1 h.2
  simp only [packetCmd, hs, hk, Bool.not_true, Bool.or_false, Bool.false_and, if_true, hf, hn, hm]
  rw [if_neg (by decide), if_neg (by decide), if_neg (by decide), if_neg hx]

/-- A command of its own row whose turn has come runs its body. -/
theorem simpleCmd_turn {s : State} {src : Src} {p : Packet} {h : HeldCmd} (ht : CmdTurn s src p h) (code : Nat) (hc : pcode p = code)
    (body : State → HeldCmd → State) : simpleCmd s src p code body = .next (body s h) := by
  simp only [simpleCmd, decide_eq_true hc, packetCmd_turn ht]

/-- A packet of another opcode is not this row's. -/
theorem simpleCmd_other (s : State) (src : Src) (p : Packet) (code : Nat) (hc : pcode p ≠ code) (body : State → HeldCmd → State) :
    simpleCmd s src p code body = .next s := by
  simp [simpleCmd, packetCmd, decide_eq_false hc]

/-! ### A command that completes -/

theorem emit_frame {α : Type} (f : State → α) (s : State) (m : OutMsg) (h : ∀ (s : State) o, f { s with outs := o } = f s) : f (emit s m) = f s := h s _

theorem sendReply_frame {α : Type} (f : State → α) (s : State) (src : Src) (who : Nat) (p : Packet) (a st r : Nat) (d : List Nat)
    (h1 : ∀ (s : State) o, f { s with outs := o } = f s) (h2 : ∀ (s : State) b, f { s with sbd := b } = f s)
    (h3 : ∀ (s : State) m, f { s with hostMem := m } = f s) : f (sendReply s src who p a st r d) = f s := by
  have hw : ∀ (s : State) x y, f (hostBytes s x y) = f s := fun s x y => h3 s _
  cases src <;> simp only [sendReply, mctpSend, askRead] <;> repeat' split
  all_goals simp only [emit_frame f _ _ h1, hw, h2]

/-- Completing a command changes nothing but the commands held, registers (HELD of its window), the sideband, host memory and what is sent. -/
theorem finish_frame {α : Type} (f : State → α) (s : State) (h : HeldCmd) (st r : Nat) (d : List Nat)
    (h1 : ∀ (s : State) o, f { s with outs := o } = f s) (h2 : ∀ (s : State) b, f { s with sbd := b } = f s)
    (h3 : ∀ (s : State) m, f { s with hostMem := m } = f s) (h4 : ∀ (s : State) c, f { s with cmds := c } = f s)
    (h5 : ∀ (s : State) r, f { s with regs := r } = f s) : f (finish s h st r d) = f s := by
  have hr : ∀ (s : State) o w, f (regSet s o w) = f s := fun s o w => h5 s _
  have hh : ∀ (s : State) w, f (setHeld s w) = f s := by
    intro s w
    unfold setHeld
    split
    · exact hr s _ _
    · rfl
  rw [finish, sendReply_frame f _ _ _ _ _ _ _ _ h1 h2 h3, hh, h4]

theorem finish_mem (s : State) (h : HeldCmd) (st r : Nat) (d : List Nat) : (finish s h st r d).mem = s.mem :=
  finish_frame (·.mem) s h st r d (fun _ _ => rfl) (fun _ _ => rfl) (fun _ _ => rfl) (fun _ _ => rfl) fun _ _ => rfl
theorem finish_ctxs (s : State) (h : HeldCmd) (st r : Nat) (d : List Nat) : (finish s h st r d).ctxs = s.ctxs :=
  finish_frame (·.ctxs) s h st r d (fun _ _ => rfl) (fun _ _ => rfl) (fun _ _ => rfl) (fun _ _ => rfl) fun _ _ => rfl
theorem finish_tiles (s : State) (h : HeldCmd) (st r : Nat) (d : List Nat) : (finish s h st r d).tiles = s.tiles :=
  finish_frame (·.tiles) s h st r d (fun _ _ => rfl) (fun _ _ => rfl) (fun _ _ => rfl) (fun _ _ => rfl) fun _ _ => rfl
theorem finish_links (s : State) (h : HeldCmd) (st r : Nat) (d : List Nat) : (finish s h st r d).links = s.links :=
  finish_frame (·.links) s h st r d (fun _ _ => rfl) (fun _ _ => rfl) (fun _ _ => rfl) (fun _ _ => rfl) fun _ _ => rfl

/-- The command leaves the queue of its window; the others stay in order. -/
theorem finish_cmds (s : State) (h : HeldCmd) (st r : Nat) (d : List Nat) : (finish s h st r d).cmds = s.cmds.filter fun k => !isCmd h.src h.pkt k := by
  rw [finish, sendReply_frame (·.cmds) _ _ _ _ _ _ _ _ (fun _ _ => rfl) (fun _ _ => rfl) fun _ _ => rfl, setHeld]
  split <;> rfl

end Machine
end Sys2Proof
end

