-- ==== Sys2Proof/Laws/Memory.lean ====
section
/-! SUPPORT. Memory: a byte after a write or a wipe, and every memory operation keeps the canonical form. -/
namespace Sys2Proof
namespace Machine

/-! ### A byte after a write -/

theorem tget_cellsWrite (m : List Host.Cell) (a n v x : Nat) :
    tget memDef (cellsWrite m a n v) x = if a ≤ x ∧ x < a + n then BitVec.ofNat 8 (v / 256 ^ (x - a)) else tget memDef m x := by
  induction n generalizing m a v with
  | zero => simp only [cellsWrite]; rw [if_neg (by omega)]
  | succ n ih =>
    simp only [cellsWrite]
    rw [ih, tget_tset]
    by_cases h0 : x = a
    · subst h0
      rw [if_neg (by omega), if_pos rfl, if_pos (by omega), Nat.sub_self, Nat.pow_zero, Nat.div_one]
    · rw [if_neg h0]
      by_cases h1 : a + 1 ≤ x ∧ x < a + 1 + n
      · rw [if_pos h1, if_pos (by omega), Nat.div_div_eq_div_mul, ← Nat.pow_succ', show (x - (a + 1)).succ = x - a by omega]
      · rw [if_neg h1, if_neg (by omega)]

theorem memByte_memWrite (s : State) (a n v x : Nat) :
    memByte (memWrite s a n v) x = if a ≤ x ∧ x < a + n then BitVec.ofNat 8 (v / 256 ^ (x - a)) else memByte s x :=
  tget_cellsWrite s.mem a n v x

theorem memRead_congr {s t : State} (a n : Nat) (h : ∀ x, a ≤ x → x < a + n → memByte s x = memByte t x) : memRead s a n = memRead t a n := by
  induction n generalizing a with
  | zero => rfl
  | succ n ih => simp only [memRead]; rw [h a (by omega) (by omega), ih (a + 1) fun x h1 h2 => h x (by omega) (by omega)]

theorem memRead_cellsWrite (s : State) (m : List Host.Cell) (a n v : Nat) (h : s.mem = cellsWrite m a n v) : memRead s a n = v % 256 ^ n := by
  induction n generalizing m a v with
  | zero => simp [memRead, Nat.mod_one]
  | succ n ih =>
    simp only [cellsWrite] at h
    simp only [memRead]
    rw [ih _ _ _ h]
    have hb : memByte s a = BitVec.ofNat 8 v := by
      rw [memByte, h, tget_cellsWrite, if_neg (by omega), tget_tset, if_pos rfl]
    rw [hb, BitVec.toNat_ofNat, Nat.pow_succ' (n := n), Nat.mod_mul (a := 256)]

/-- Reading back what was written. -/
theorem memRead_memWrite_same (s : State) (a n v : Nat) : memRead (memWrite s a n v) a n = v % 256 ^ n := memRead_cellsWrite _ s.mem a n v rfl

/-- Reading beside what was written. -/
theorem memRead_memWrite_ne (s : State) (a n v b k : Nat) (h : b + k ≤ a ∨ a + n ≤ b) : memRead (memWrite s a n v) b k = memRead s b k :=
  memRead_congr b k fun x h1 h2 => by rw [memByte_memWrite, if_neg (by omega)]

theorem tget_filter_keys {α : Type} (d : Nat → α) (p : Nat → Bool) (t : Tbl α) (k : Nat) :
    tget d (t.filter fun e => p e.1) k = if p k then tget d t k else d k := by
  induction t with
  | nil => simp [tget]
  | cons e t ih =>
    obtain ⟨j, v⟩ := e
    by_cases hp : p j
    · rw [List.filter_cons_of_pos (by exact hp)]
      by_cases hj : j = k
      · subst hj; simp [tget, hp]
      · simp only [tget, if_neg hj]; exact ih
    · rw [List.filter_cons_of_neg (by exact hp), ih]
      by_cases hj : j = k
      · subst hj; simp [hp]
      · simp only [tget, if_neg hj]

/-- A wiped byte reads as memory that lists nothing; the others stay. -/
theorem memByte_memWipe (s : State) (a n x : Nat) : memByte (memWipe s a n) x = if a ≤ x ∧ x < a + n then memDef x else memByte s x := by
  have h := tget_filter_keys memDef (fun k => !(decide (a ≤ k) && decide (k < a + n))) s.mem x
  simp only [memByte, memWipe]
  rw [h]
  by_cases hx : a ≤ x ∧ x < a + n
  · rw [if_pos hx, if_neg (by simp [hx.1, hx.2])]
  · rw [if_neg hx, if_pos (by simp; omega)]

/-! ### The canonical form -/

theorem cellsWrite_wf (m : List Host.Cell) (a n v : Nat) (h : twf memDef m = true) : twf memDef (cellsWrite m a n v) = true := by
  induction n generalizing m a v with
  | zero => exact h
  | succ n ih => exact ih _ _ _ (twf_tset memDef m a _ h)

theorem reset_memOk : State.reset.memOk := rfl
theorem memWrite_memOk (s : State) (a n v : Nat) (h : s.memOk) : (memWrite s a n v).memOk := cellsWrite_wf s.mem a n v h
theorem memWipe_memOk (s : State) (a n : Nat) (h : s.memOk) : (memWipe s a n).memOk := twf_filter memDef _ s.mem h
theorem wipeAll_memOk (s : State) : (wipeAll s).memOk := rfl
theorem powerLost_memOk (s : State) : (powerLost s).memOk := rfl
/-- What leaves memory as it was leaves it canonical. -/
theorem memOk_of_mem {s t : State} (h : s.memOk) (he : t.mem = s.mem) : t.memOk := by unfold State.memOk; rw [he]; exact h

/-! ### The host's memory and the flash -/

theorem cellsPut_wf (d : Nat → Byte) (m : List Host.Cell) (a n v : Nat) (h : twf d m = true) : twf d (cellsPut d m a n v) = true := by
  induction n generalizing m a v with
  | zero => exact h
  | succ n ih => exact ih _ _ _ (twf_tset d m a _ h)

theorem hostWrite_wf (s : State) (a n v : Nat) (h : twf hostDef s.hostMem = true) : twf hostDef (hostWrite s a n v).hostMem = true :=
  cellsPut_wf hostDef s.hostMem a n v h
theorem flashPut_wf (s : State) (a n v : Nat) (h : twf flashDef s.flash = true) : twf flashDef (flashPut s a n v).flash = true :=
  cellsPut_wf flashDef s.flash a n v h
theorem flashErase_wf (s : State) (a n : Nat) (h : twf flashDef s.flash = true) : twf flashDef (flashErase s a n).flash = true :=
  twf_filter flashDef _ s.flash h
theorem reset_host_and_flash_wf : twf hostDef State.reset.hostMem = true ∧ twf flashDef State.reset.flash = true := ⟨rfl, rfl⟩

end Machine
end Sys2Proof
end

