-- ==== Sys2Proof/Laws/Read.lean ====
section
/-! SUPPORT. What each update of the state leaves to be read: one lemma per reading function per update. -/
namespace Sys2Proof
namespace Machine

@[simp] theorem getTile_regSet (s : State) (o : Nat) (w : W64) (k : Nat) : getTile (regSet s o w) k = getTile s k := rfl
@[simp] theorem getCtx_regSet (s : State) (o : Nat) (w : W64) (k : Nat) : getCtx (regSet s o w) k = getCtx s k := rfl
@[simp] theorem getEng_regSet (s : State) (o : Nat) (w : W64) (k : Nat) : getEng (regSet s o w) k = getEng s k := rfl
@[simp] theorem getZone_regSet (s : State) (o : Nat) (w : W64) (k : Nat) : getZone (regSet s o w) k = getZone s k := rfl
@[simp] theorem getLink_regSet (s : State) (o : Nat) (w : W64) (k : Nat) : getLink (regSet s o w) k = getLink s k := rfl
@[simp] theorem getCane_regSet (s : State) (o : Nat) (w : W64) (k : Nat) : getCane (regSet s o w) k = getCane s k := rfl
@[simp] theorem memByte_regSet (s : State) (o : Nat) (w : W64) (k : Nat) : memByte (regSet s o w) k = memByte s k := rfl

@[simp] theorem getTile_wr (s : State) (o : Nat) (f : Fld) (v : Nat) (k : Nat) : getTile (wr s o f v) k = getTile s k := rfl
@[simp] theorem getCtx_wr (s : State) (o : Nat) (f : Fld) (v : Nat) (k : Nat) : getCtx (wr s o f v) k = getCtx s k := rfl
@[simp] theorem getEng_wr (s : State) (o : Nat) (f : Fld) (v : Nat) (k : Nat) : getEng (wr s o f v) k = getEng s k := rfl
@[simp] theorem getZone_wr (s : State) (o : Nat) (f : Fld) (v : Nat) (k : Nat) : getZone (wr s o f v) k = getZone s k := rfl
@[simp] theorem getLink_wr (s : State) (o : Nat) (f : Fld) (v : Nat) (k : Nat) : getLink (wr s o f v) k = getLink s k := rfl
@[simp] theorem getCane_wr (s : State) (o : Nat) (f : Fld) (v : Nat) (k : Nat) : getCane (wr s o f v) k = getCane s k := rfl
@[simp] theorem memByte_wr (s : State) (o : Nat) (f : Fld) (v : Nat) (k : Nat) : memByte (wr s o f v) k = memByte s k := rfl

@[simp] theorem getTile_bumpBy (s : State) (o : Nat) (f : Fld) (n : Nat) (k : Nat) : getTile (bumpBy s o f n) k = getTile s k := rfl
@[simp] theorem getCtx_bumpBy (s : State) (o : Nat) (f : Fld) (n : Nat) (k : Nat) : getCtx (bumpBy s o f n) k = getCtx s k := rfl
@[simp] theorem getEng_bumpBy (s : State) (o : Nat) (f : Fld) (n : Nat) (k : Nat) : getEng (bumpBy s o f n) k = getEng s k := rfl
@[simp] theorem getZone_bumpBy (s : State) (o : Nat) (f : Fld) (n : Nat) (k : Nat) : getZone (bumpBy s o f n) k = getZone s k := rfl
@[simp] theorem getLink_bumpBy (s : State) (o : Nat) (f : Fld) (n : Nat) (k : Nat) : getLink (bumpBy s o f n) k = getLink s k := rfl
@[simp] theorem getCane_bumpBy (s : State) (o : Nat) (f : Fld) (n : Nat) (k : Nat) : getCane (bumpBy s o f n) k = getCane s k := rfl
@[simp] theorem memByte_bumpBy (s : State) (o : Nat) (f : Fld) (n : Nat) (k : Nat) : memByte (bumpBy s o f n) k = memByte s k := rfl

@[simp] theorem getTile_bump (s : State) (o : Nat) (f : Fld) (k : Nat) : getTile (bump s o f) k = getTile s k := rfl
@[simp] theorem getCtx_bump (s : State) (o : Nat) (f : Fld) (k : Nat) : getCtx (bump s o f) k = getCtx s k := rfl
@[simp] theorem getEng_bump (s : State) (o : Nat) (f : Fld) (k : Nat) : getEng (bump s o f) k = getEng s k := rfl
@[simp] theorem getZone_bump (s : State) (o : Nat) (f : Fld) (k : Nat) : getZone (bump s o f) k = getZone s k := rfl
@[simp] theorem getLink_bump (s : State) (o : Nat) (f : Fld) (k : Nat) : getLink (bump s o f) k = getLink s k := rfl
@[simp] theorem getCane_bump (s : State) (o : Nat) (f : Fld) (k : Nat) : getCane (bump s o f) k = getCane s k := rfl
@[simp] theorem memByte_bump (s : State) (o : Nat) (f : Fld) (k : Nat) : memByte (bump s o f) k = memByte s k := rfl

@[simp] theorem getCtx_setTile (s : State) (t : Nat) (x : Tile) (k : Nat) : getCtx (setTile s t x) k = getCtx s k := rfl
@[simp] theorem getEng_setTile (s : State) (t : Nat) (x : Tile) (k : Nat) : getEng (setTile s t x) k = getEng s k := rfl
@[simp] theorem getZone_setTile (s : State) (t : Nat) (x : Tile) (k : Nat) : getZone (setTile s t x) k = getZone s k := rfl
@[simp] theorem getLink_setTile (s : State) (t : Nat) (x : Tile) (k : Nat) : getLink (setTile s t x) k = getLink s k := rfl
@[simp] theorem getCane_setTile (s : State) (t : Nat) (x : Tile) (k : Nat) : getCane (setTile s t x) k = getCane s k := rfl
@[simp] theorem regGet_setTile (s : State) (t : Nat) (x : Tile) (k : Nat) : regGet (setTile s t x) k = regGet s k := rfl
@[simp] theorem memByte_setTile (s : State) (t : Nat) (x : Tile) (k : Nat) : memByte (setTile s t x) k = memByte s k := rfl
@[simp] theorem rd_setTile (s : State) (t : Nat) (x : Tile) (k : Nat) (g : Fld) : rd (setTile s t x) k g = rd s k g := rfl

@[simp] theorem getCtx_modTile (s : State) (t : Nat) (f : Tile → Tile) (k : Nat) : getCtx (modTile s t f) k = getCtx s k := rfl
@[simp] theorem getEng_modTile (s : State) (t : Nat) (f : Tile → Tile) (k : Nat) : getEng (modTile s t f) k = getEng s k := rfl
@[simp] theorem getZone_modTile (s : State) (t : Nat) (f : Tile → Tile) (k : Nat) : getZone (modTile s t f) k = getZone s k := rfl
@[simp] theorem getLink_modTile (s : State) (t : Nat) (f : Tile → Tile) (k : Nat) : getLink (modTile s t f) k = getLink s k := rfl
@[simp] theorem getCane_modTile (s : State) (t : Nat) (f : Tile → Tile) (k : Nat) : getCane (modTile s t f) k = getCane s k := rfl
@[simp] theorem regGet_modTile (s : State) (t : Nat) (f : Tile → Tile) (k : Nat) : regGet (modTile s t f) k = regGet s k := rfl
@[simp] theorem memByte_modTile (s : State) (t : Nat) (f : Tile → Tile) (k : Nat) : memByte (modTile s t f) k = memByte s k := rfl
@[simp] theorem rd_modTile (s : State) (t : Nat) (f : Tile → Tile) (k : Nat) (g : Fld) : rd (modTile s t f) k g = rd s k g := rfl

@[simp] theorem getTile_setCtx (s : State) (c : Nat) (x : Ctx) (k : Nat) : getTile (setCtx s c x) k = getTile s k := rfl
@[simp] theorem getEng_setCtx (s : State) (c : Nat) (x : Ctx) (k : Nat) : getEng (setCtx s c x) k = getEng s k := rfl
@[simp] theorem getZone_setCtx (s : State) (c : Nat) (x : Ctx) (k : Nat) : getZone (setCtx s c x) k = getZone s k := rfl
@[simp] theorem getLink_setCtx (s : State) (c : Nat) (x : Ctx) (k : Nat) : getLink (setCtx s c x) k = getLink s k := rfl
@[simp] theorem getCane_setCtx (s : State) (c : Nat) (x : Ctx) (k : Nat) : getCane (setCtx s c x) k = getCane s k := rfl
@[simp] theorem regGet_setCtx (s : State) (c : Nat) (x : Ctx) (k : Nat) : regGet (setCtx s c x) k = regGet s k := rfl
@[simp] theorem memByte_setCtx (s : State) (c : Nat) (x : Ctx) (k : Nat) : memByte (setCtx s c x) k = memByte s k := rfl
@[simp] theorem rd_setCtx (s : State) (c : Nat) (x : Ctx) (k : Nat) (g : Fld) : rd (setCtx s c x) k g = rd s k g := rfl

@[simp] theorem getTile_modCtx (s : State) (c : Nat) (f : Ctx → Ctx) (k : Nat) : getTile (modCtx s c f) k = getTile s k := rfl
@[simp] theorem getEng_modCtx (s : State) (c : Nat) (f : Ctx → Ctx) (k : Nat) : getEng (modCtx s c f) k = getEng s k := rfl
@[simp] theorem getZone_modCtx (s : State) (c : Nat) (f : Ctx → Ctx) (k : Nat) : getZone (modCtx s c f) k = getZone s k := rfl
@[simp] theorem getLink_modCtx (s : State) (c : Nat) (f : Ctx → Ctx) (k : Nat) : getLink (modCtx s c f) k = getLink s k := rfl
@[simp] theorem getCane_modCtx (s : State) (c : Nat) (f : Ctx → Ctx) (k : Nat) : getCane (modCtx s c f) k = getCane s k := rfl
@[simp] theorem regGet_modCtx (s : State) (c : Nat) (f : Ctx → Ctx) (k : Nat) : regGet (modCtx s c f) k = regGet s k := rfl
@[simp] theorem memByte_modCtx (s : State) (c : Nat) (f : Ctx → Ctx) (k : Nat) : memByte (modCtx s c f) k = memByte s k := rfl
@[simp] theorem rd_modCtx (s : State) (c : Nat) (f : Ctx → Ctx) (k : Nat) (g : Fld) : rd (modCtx s c f) k g = rd s k g := rfl

@[simp] theorem getTile_setEng (s : State) (e : Nat) (x : Engine) (k : Nat) : getTile (setEng s e x) k = getTile s k := rfl
@[simp] theorem getCtx_setEng (s : State) (e : Nat) (x : Engine) (k : Nat) : getCtx (setEng s e x) k = getCtx s k := rfl
@[simp] theorem getZone_setEng (s : State) (e : Nat) (x : Engine) (k : Nat) : getZone (setEng s e x) k = getZone s k := rfl
@[simp] theorem getLink_setEng (s : State) (e : Nat) (x : Engine) (k : Nat) : getLink (setEng s e x) k = getLink s k := rfl
@[simp] theorem getCane_setEng (s : State) (e : Nat) (x : Engine) (k : Nat) : getCane (setEng s e x) k = getCane s k := rfl
@[simp] theorem regGet_setEng (s : State) (e : Nat) (x : Engine) (k : Nat) : regGet (setEng s e x) k = regGet s k := rfl
@[simp] theorem memByte_setEng (s : State) (e : Nat) (x : Engine) (k : Nat) : memByte (setEng s e x) k = memByte s k := rfl
@[simp] theorem rd_setEng (s : State) (e : Nat) (x : Engine) (k : Nat) (g : Fld) : rd (setEng s e x) k g = rd s k g := rfl

@[simp] theorem getTile_setZone (s : State) (z : Nat) (x : Zone) (k : Nat) : getTile (setZone s z x) k = getTile s k := rfl
@[simp] theorem getCtx_setZone (s : State) (z : Nat) (x : Zone) (k : Nat) : getCtx (setZone s z x) k = getCtx s k := rfl
@[simp] theorem getEng_setZone (s : State) (z : Nat) (x : Zone) (k : Nat) : getEng (setZone s z x) k = getEng s k := rfl
@[simp] theorem getLink_setZone (s : State) (z : Nat) (x : Zone) (k : Nat) : getLink (setZone s z x) k = getLink s k := rfl
@[simp] theorem getCane_setZone (s : State) (z : Nat) (x : Zone) (k : Nat) : getCane (setZone s z x) k = getCane s k := rfl
@[simp] theorem regGet_setZone (s : State) (z : Nat) (x : Zone) (k : Nat) : regGet (setZone s z x) k = regGet s k := rfl
@[simp] theorem memByte_setZone (s : State) (z : Nat) (x : Zone) (k : Nat) : memByte (setZone s z x) k = memByte s k := rfl
@[simp] theorem rd_setZone (s : State) (z : Nat) (x : Zone) (k : Nat) (g : Fld) : rd (setZone s z x) k g = rd s k g := rfl

@[simp] theorem getTile_setLink (s : State) (l : Nat) (x : Link) (k : Nat) : getTile (setLink s l x) k = getTile s k := rfl
@[simp] theorem getCtx_setLink (s : State) (l : Nat) (x : Link) (k : Nat) : getCtx (setLink s l x) k = getCtx s k := rfl
@[simp] theorem getEng_setLink (s : State) (l : Nat) (x : Link) (k : Nat) : getEng (setLink s l x) k = getEng s k := rfl
@[simp] theorem getZone_setLink (s : State) (l : Nat) (x : Link) (k : Nat) : getZone (setLink s l x) k = getZone s k := rfl
@[simp] theorem getCane_setLink (s : State) (l : Nat) (x : Link) (k : Nat) : getCane (setLink s l x) k = getCane s k := rfl
@[simp] theorem regGet_setLink (s : State) (l : Nat) (x : Link) (k : Nat) : regGet (setLink s l x) k = regGet s k := rfl
@[simp] theorem memByte_setLink (s : State) (l : Nat) (x : Link) (k : Nat) : memByte (setLink s l x) k = memByte s k := rfl
@[simp] theorem rd_setLink (s : State) (l : Nat) (x : Link) (k : Nat) (g : Fld) : rd (setLink s l x) k g = rd s k g := rfl

@[simp] theorem getTile_modLink (s : State) (l : Nat) (f : Link → Link) (k : Nat) : getTile (modLink s l f) k = getTile s k := rfl
@[simp] theorem getCtx_modLink (s : State) (l : Nat) (f : Link → Link) (k : Nat) : getCtx (modLink s l f) k = getCtx s k := rfl
@[simp] theorem getEng_modLink (s : State) (l : Nat) (f : Link → Link) (k : Nat) : getEng (modLink s l f) k = getEng s k := rfl
@[simp] theorem getZone_modLink (s : State) (l : Nat) (f : Link → Link) (k : Nat) : getZone (modLink s l f) k = getZone s k := rfl
@[simp] theorem getCane_modLink (s : State) (l : Nat) (f : Link → Link) (k : Nat) : getCane (modLink s l f) k = getCane s k := rfl
@[simp] theorem regGet_modLink (s : State) (l : Nat) (f : Link → Link) (k : Nat) : regGet (modLink s l f) k = regGet s k := rfl
@[simp] theorem memByte_modLink (s : State) (l : Nat) (f : Link → Link) (k : Nat) : memByte (modLink s l f) k = memByte s k := rfl
@[simp] theorem rd_modLink (s : State) (l : Nat) (f : Link → Link) (k : Nat) (g : Fld) : rd (modLink s l f) k g = rd s k g := rfl

@[simp] theorem getTile_setCane (s : State) (i : Nat) (x : Cane) (k : Nat) : getTile (setCane s i x) k = getTile s k := rfl
@[simp] theorem getCtx_setCane (s : State) (i : Nat) (x : Cane) (k : Nat) : getCtx (setCane s i x) k = getCtx s k := rfl
@[simp] theorem getEng_setCane (s : State) (i : Nat) (x : Cane) (k : Nat) : getEng (setCane s i x) k = getEng s k := rfl
@[simp] theorem getZone_setCane (s : State) (i : Nat) (x : Cane) (k : Nat) : getZone (setCane s i x) k = getZone s k := rfl
@[simp] theorem getLink_setCane (s : State) (i : Nat) (x : Cane) (k : Nat) : getLink (setCane s i x) k = getLink s k := rfl
@[simp] theorem regGet_setCane (s : State) (i : Nat) (x : Cane) (k : Nat) : regGet (setCane s i x) k = regGet s k := rfl
@[simp] theorem memByte_setCane (s : State) (i : Nat) (x : Cane) (k : Nat) : memByte (setCane s i x) k = memByte s k := rfl
@[simp] theorem rd_setCane (s : State) (i : Nat) (x : Cane) (k : Nat) (g : Fld) : rd (setCane s i x) k g = rd s k g := rfl

@[simp] theorem getTile_syncPush (s : State) (e : Nat) (r : CtrRef) (op : PunOp) (k : Nat) : getTile (syncPush s e r op) k = getTile s k := rfl
@[simp] theorem getCtx_syncPush (s : State) (e : Nat) (r : CtrRef) (op : PunOp) (k : Nat) : getCtx (syncPush s e r op) k = getCtx s k := rfl
@[simp] theorem getEng_syncPush (s : State) (e : Nat) (r : CtrRef) (op : PunOp) (k : Nat) : getEng (syncPush s e r op) k = getEng s k := rfl
@[simp] theorem getZone_syncPush (s : State) (e : Nat) (r : CtrRef) (op : PunOp) (k : Nat) : getZone (syncPush s e r op) k = getZone s k := rfl
@[simp] theorem getLink_syncPush (s : State) (e : Nat) (r : CtrRef) (op : PunOp) (k : Nat) : getLink (syncPush s e r op) k = getLink s k := rfl
@[simp] theorem getCane_syncPush (s : State) (e : Nat) (r : CtrRef) (op : PunOp) (k : Nat) : getCane (syncPush s e r op) k = getCane s k := rfl
@[simp] theorem regGet_syncPush (s : State) (e : Nat) (r : CtrRef) (op : PunOp) (k : Nat) : regGet (syncPush s e r op) k = regGet s k := rfl
@[simp] theorem memByte_syncPush (s : State) (e : Nat) (r : CtrRef) (op : PunOp) (k : Nat) : memByte (syncPush s e r op) k = memByte s k := rfl
@[simp] theorem rd_syncPush (s : State) (e : Nat) (r : CtrRef) (op : PunOp) (k : Nat) (g : Fld) : rd (syncPush s e r op) k g = rd s k g := rfl

@[simp] theorem getTile_memWrite (s : State) (a n v : Nat) (k : Nat) : getTile (memWrite s a n v) k = getTile s k := rfl
@[simp] theorem getCtx_memWrite (s : State) (a n v : Nat) (k : Nat) : getCtx (memWrite s a n v) k = getCtx s k := rfl
@[simp] theorem getEng_memWrite (s : State) (a n v : Nat) (k : Nat) : getEng (memWrite s a n v) k = getEng s k := rfl
@[simp] theorem getZone_memWrite (s : State) (a n v : Nat) (k : Nat) : getZone (memWrite s a n v) k = getZone s k := rfl
@[simp] theorem getLink_memWrite (s : State) (a n v : Nat) (k : Nat) : getLink (memWrite s a n v) k = getLink s k := rfl
@[simp] theorem getCane_memWrite (s : State) (a n v : Nat) (k : Nat) : getCane (memWrite s a n v) k = getCane s k := rfl
@[simp] theorem regGet_memWrite (s : State) (a n v : Nat) (k : Nat) : regGet (memWrite s a n v) k = regGet s k := rfl
@[simp] theorem rd_memWrite (s : State) (a n v : Nat) (k : Nat) (g : Fld) : rd (memWrite s a n v) k g = rd s k g := rfl

@[simp] theorem getTile_faultPush (s : State) (r : FaultRec) (k : Nat) : getTile (faultPush s r) k = getTile s k := by rw [getTile, faultPush_tiles, getTile]
@[simp] theorem getEng_faultPush (s : State) (r : FaultRec) (k : Nat) : getEng (faultPush s r) k = getEng s k := by rw [getEng, faultPush_engines, getEng]
@[simp] theorem getZone_faultPush (s : State) (r : FaultRec) (k : Nat) : getZone (faultPush s r) k = getZone s k := by rw [getZone, faultPush_zones, getZone]
@[simp] theorem getLink_faultPush (s : State) (r : FaultRec) (k : Nat) : getLink (faultPush s r) k = getLink s k := by rw [getLink, faultPush_links, getLink]
@[simp] theorem regGet_faultPush (s : State) (r : FaultRec) (k : Nat) : regGet (faultPush s r) k = regGet s k := by rw [regGet, faultPush_regs, regGet]
@[simp] theorem memByte_faultPush (s : State) (r : FaultRec) (k : Nat) : memByte (faultPush s r) k = memByte s k := by rw [memByte, faultPush_mem, memByte]
@[simp] theorem rd_faultPush (s : State) (r : FaultRec) (k : Nat) (g : Fld) : rd (faultPush s r) k g = rd s k g := by rw [rd, regGet_faultPush, rd]

@[simp] theorem getTile_raiseAt (s : State) (c : CtxId) (t : Nat) (i : FaultInfo) (k : Nat) : getTile (raiseAt s c t i) k = getTile s k := by rw [getTile, raiseAt_tiles, getTile]
@[simp] theorem getEng_raiseAt (s : State) (c : CtxId) (t : Nat) (i : FaultInfo) (k : Nat) : getEng (raiseAt s c t i) k = getEng s k := by rw [getEng, raiseAt_engines, getEng]
@[simp] theorem getZone_raiseAt (s : State) (c : CtxId) (t : Nat) (i : FaultInfo) (k : Nat) : getZone (raiseAt s c t i) k = getZone s k := by rw [getZone, raiseAt_zones, getZone]
@[simp] theorem getLink_raiseAt (s : State) (c : CtxId) (t : Nat) (i : FaultInfo) (k : Nat) : getLink (raiseAt s c t i) k = getLink s k := by rw [getLink, raiseAt_links, getLink]
@[simp] theorem regGet_raiseAt (s : State) (c : CtxId) (t : Nat) (i : FaultInfo) (k : Nat) : regGet (raiseAt s c t i) k = regGet s k := by rw [regGet, raiseAt_regs, regGet]
@[simp] theorem memByte_raiseAt (s : State) (c : CtxId) (t : Nat) (i : FaultInfo) (k : Nat) : memByte (raiseAt s c t i) k = memByte s k := by rw [memByte, raiseAt_mem, memByte]
@[simp] theorem rd_raiseAt (s : State) (c : CtxId) (t : Nat) (i : FaultInfo) (k : Nat) (g : Fld) : rd (raiseAt s c t i) k g = rd s k g := by rw [rd, regGet_raiseAt, rd]

@[simp] theorem getEng_setEng_same (s : State) (k : Nat) (x : Engine) : getEng (setEng s k x) k = x := tget_tset_same _ _ _ _

theorem getEng_setEng_ne (s : State) {k j : Nat} (x : Engine) (h : j ≠ k) : getEng (setEng s k x) j = getEng s j :=
  tget_tset_ne _ _ _ h

@[simp] theorem getZone_setZone_same (s : State) (k : Nat) (x : Zone) : getZone (setZone s k x) k = x := tget_tset_same _ _ _ _

theorem getZone_setZone_ne (s : State) {k j : Nat} (x : Zone) (h : j ≠ k) : getZone (setZone s k x) j = getZone s j :=
  tget_tset_ne _ _ _ h

@[simp] theorem getLink_setLink_same (s : State) (k : Nat) (x : Link) : getLink (setLink s k x) k = x := tget_tset_same _ _ _ _

theorem getLink_setLink_ne (s : State) {k j : Nat} (x : Link) (h : j ≠ k) : getLink (setLink s k x) j = getLink s j :=
  tget_tset_ne _ _ _ h

@[simp] theorem getCane_setCane_same (s : State) (k : Nat) (x : Cane) : getCane (setCane s k x) k = x := tget_tset_same _ _ _ _

theorem getCane_setCane_ne (s : State) {k j : Nat} (x : Cane) (h : j ≠ k) : getCane (setCane s k x) j = getCane s j :=
  tget_tset_ne _ _ _ h

@[simp] theorem getTile_setTile_same (s : State) (t : Nat) (x : Tile) : getTile (setTile s t x) t = x :=
  tget_tset_same _ _ _ _

theorem getTile_setTile_ne (s : State) {t u : Nat} (x : Tile) (h : u ≠ t) : getTile (setTile s t x) u = getTile s u :=
  tget_tset_ne _ _ _ h

@[simp] theorem getTile_modTile_same (s : State) (t : Nat) (f : Tile → Tile) : getTile (modTile s t f) t = f (getTile s t) :=
  getTile_setTile_same _ _ _

theorem getTile_modTile_ne (s : State) {t u : Nat} (f : Tile → Tile) (h : u ≠ t) : getTile (modTile s t f) u = getTile s u :=
  getTile_setTile_ne _ _ h

@[simp] theorem getLink_modLink_same (s : State) (l : Nat) (f : Link → Link) : getLink (modLink s l f) l = f (getLink s l) :=
  getLink_setLink_same _ _ _

theorem getLink_modLink_ne (s : State) {l m : Nat} (f : Link → Link) (h : m ≠ l) : getLink (modLink s l f) m = getLink s m :=
  getLink_setLink_ne _ _ h

/-! ### Of two updates of one unit the later counts -/

@[simp] theorem setTile_setTile_same (s : State) (k : Nat) (x y : Tile) : setTile (setTile s k x) k y = setTile s k y := by
  show ({ s with tiles := tset (fun _ => Tile.zero) (tset (fun _ => Tile.zero) s.tiles k x) k y } : State) = _
  rw [tset_tset_same]
  rfl

@[simp] theorem setCtx_setCtx_same (s : State) (k : Nat) (x y : Ctx) : setCtx (setCtx s k x) k y = setCtx s k y := by
  show ({ s with ctxs := tset (fun _ => Ctx.zero) (tset (fun _ => Ctx.zero) s.ctxs k x) k y } : State) = _
  rw [tset_tset_same]
  rfl

@[simp] theorem setEng_setEng_same (s : State) (k : Nat) (x y : Engine) : setEng (setEng s k x) k y = setEng s k y := by
  show ({ s with engines := tset (fun _ => Engine.zero) (tset (fun _ => Engine.zero) s.engines k x) k y } : State) = _
  rw [tset_tset_same]
  rfl

@[simp] theorem setZone_setZone_same (s : State) (k : Nat) (x y : Zone) : setZone (setZone s k x) k y = setZone s k y := by
  show ({ s with zones := tset (fun _ => Zone.zero) (tset (fun _ => Zone.zero) s.zones k x) k y } : State) = _
  rw [tset_tset_same]
  rfl

@[simp] theorem setLink_setLink_same (s : State) (k : Nat) (x y : Link) : setLink (setLink s k x) k y = setLink s k y := by
  show ({ s with links := tset (fun _ => Link.zero) (tset (fun _ => Link.zero) s.links k x) k y } : State) = _
  rw [tset_tset_same]
  rfl

end Machine
end Sys2Proof
end

