-- ==== Sys2Proof/Laws/Tiles.lean ====
section
/-! SUPPORT. What opening a slot does to a command of it. -/
namespace Sys2Proof
namespace Machine

theorem ctlSlot_opens {s s1 : State} {t : TileId} (h : CtlOpens s t s1) (f : State → State) : ctlSlot s t f = f s1 := by
  obtain ⟨h1, h2, h3⟩ := h
  rw [h3, ctlSlot, if_pos h1]
  exact if_pos h2

theorem engSlot_opens {s s1 : State} {t : TileId} {k : Nat} (h : SlotOpens s t k s1) (f : State → State) :
    engSlot s t k f = f s1 := by
  rcases h with ⟨h1, h2⟩ | ⟨h1, ⟨h2, h3, -⟩, h4⟩
  · rw [h2, engSlot, if_pos h1]
  · rw [h4, engSlot, if_neg (by rw [h1]; exact Bool.false_ne_true), if_pos h2]
    exact if_pos h3

theorem ctlWait_opens {s s1 : State} {t : TileId} (h : WaitOpens s t s1) (f : State → State) : ctlWait s t f = f s1 := by
  obtain ⟨h1, h2, h3⟩ := h
  rw [h3, ctlWait, if_pos h1]
  exact if_pos h2

/-- Scheduling a list of acts appends them to what the open bundle has made. -/
theorem foldl_sched (l : List Nat) (x : Tile) (c : Nat → Nat) (a : Nat → Act) :
    l.foldl (fun y j => sched y (c j) (a j)) x = { x with made := x.made ++ l.map fun j => (c j, a j) } := by
  induction l generalizing x with
  | nil => simp
  | cons j l ih => rw [List.foldl_cons, ih]; simp [sched]

/-- The wait timeout of an owned tile (R54). -/
theorem waitTimeout_owned (s : State) (t since b : Nat) (c : CtxId) (h : (getTile s t).own = some c) :
    waitTimeout s t since b = raiseAt (setTile s t { getTile s t with st := .faulted, stall := none }) c (since + b + 1)
      (faultInfo 0x2002 1 t (streamOff (getTile s t) (getTile s t).bidx)) := by
  simp only [waitTimeout, h]

end Machine
end Sys2Proof
end

