-- ==== Sys2Proof/Tests/Slice0.lean ====
section
/-! SUPPORT. Small checks of the model: what the well-formedness checks refuse, what a few steps do, and for every obligation
states that meet its hypotheses, at boundary values where it has ranges. -/
namespace Sys2Proof
namespace Tests
open Machine

set_option maxRecDepth 4000
set_option Elab.async false

/-! ### The queue and the shape of commands -/

/-- A packet with an opcode and payload words; everything else 0, one unit long. -/
def tPkt (code : BitVec 16) (ws : List (BitVec 64)) : Packet :=
  { opcode := code, flags := 0, context := 0, gen := 0, length := 1, reply := 0, tag := 0, rsv := 0, seq := 1, payload := ws }

/-- The state a command leads to. -/
def tNext (i : Instr) (s : State) : State :=
  match exec i s with
  | .next u => u
  | _ => s

/-- A bead header of a class, and a bead with it that arrives clean. -/
def tHdr (cls : Nat) : BitVec 64 := BitVec.ofNat 64 (cls * 2 ^ 60)
def tBead (cls : Nat) : WireBead := { h := tHdr cls, pay := 0, err := 0 }

-- WellFormed: one ill-formed term for each check
theorem wf_refuses_other_opcode : (Instr.ctxOpen (.pf 0) (tPkt 0x11 [])).wellFormed = false := by decide
theorem wf_admits_its_opcode : (Instr.ctxOpen (.pf 0) (tPkt 0x10 [])).wellFormed = true := by decide
theorem wf_refuses_long_payload : (Instr.sidebandCommand 0 (tPkt 0x10 (List.replicate 516 0))).wellFormed = false := by decide +kernel
theorem wf_admits_515_words : (Instr.sidebandCommand 0 (tPkt 0x10 (List.replicate 515 0))).wellFormed = true := by decide +kernel
theorem wf_refuses_other_link_op : (Instr.linkCtlEnable (.pf 0) (tPkt 0x70 [0x300])).wellFormed = false := by decide
theorem wf_refuses_other_class : (Instr.plannedBeadArrival 0 (tBead 7).h (tBead 7).pay (tBead 7).err).wellFormed = false := by decide
theorem wf_refuses_other_class_void : (Instr.voidBeadArrival 0 (tBead 1).h (tBead 1).toBeadBody).wellFormed = false := by decide
theorem wf_refuses_planned_as_open : (Instr.openBead 0 (tBead 1).h (tBead 1).pay (tBead 1).err).wellFormed = false := by decide
theorem wf_refuses_hello_class : (Instr.hello 0 (tBead 4).h (tBead 4).toBeadBody).wellFormed = false := by decide
theorem wf_refuses_sync_class : (Instr.syncBead 0 (tBead 5).h (tBead 5).toBeadBody 0 0).wellFormed = false := by decide
theorem wf_refuses_empty_class : (Instr.emptyBeadArrival 0 (tBead 1).h (tBead 1).toBeadBody).wellFormed = false := by decide
theorem wf_refuses_endpoint : (Instr.meshWordDeparture 0x120 0).wellFormed = false ∧ (Instr.meshWordArrival 0x218 0).wellFormed = false := by decide
theorem wf_admits_last_endpoints : (Instr.meshWordDeparture 0x11F 0).wellFormed = true ∧ (Instr.meshWordArrival 0x217 0).wellFormed = true := by decide
theorem wf_refuses_width_3 : (Instr.marginRetrainRequest 0 false 3 false).wellFormed = false ∧ (Instr.rtReq 0 0 false 3 false).wellFormed = false ∧
    (Instr.rtGo 0 0 3 false 0).wellFormed = false := by decide
theorem wf_refuses_down_cause : (Instr.linkDown 0 0).wellFormed = false ∧ (Instr.linkDown 0 6).wellFormed = false := by decide
theorem wf_refuses_window_alignment : (Instr.windowWrite (.pf 0) 4 true 0).wellFormed = false ∧ (Instr.windowWrite (.pf 0) 2 false 0).wellFormed = false := by decide
theorem wf_refuses_abort_form : (Instr.planAbort (.pf 0) (tPkt 0x22 [2 ^ 63])).wellFormed = false ∧
    (Instr.planAbortImmediate (.pf 0) (tPkt 0x22 [0])).wellFormed = false := by decide
theorem wf_refuses_gaffer_start : (Instr.gafRecoveryStart .gaffer 1).wellFormed = false := by decide
theorem wf_refuses_bar4_alignment : (Instr.bar4Read 0 4 0).wellFormed = false ∧ (Instr.bar4Write 0 12 0).wellFormed = false := by decide
theorem wf_refuses_sensor_25 : (Instr.sensorRefresh { vals := [(25, 0)] }).wellFormed = false := by decide
theorem wf_refuses_129_items :
    (Instr.twinPacketReceive { link := 0, magic := 0x5457, stop := false, pnum := 0, digest := 0
                               items := List.replicate 129 { kind := 1, unit := 0, window := 0, step := 0, sig := 0 } }).wellFormed = false := by decide +kernel
theorem wf_refuses_quench_cause : (Instr.quench 0).wellFormed = false ∧ (Instr.quench 7).wellFormed = false := by decide

-- a state that has a command in front, and one that has none
theorem witness_step : ({ State.reset with pending := [.idcode, .highz] }).pending = .idcode :: [.highz] ∧ State.reset.pending = [] := by decide

/-! ### Tiles: states that meet the hypotheses of the slot statements -/

/-- An image of one 4,096-tick replayable step that holds tile 0. -/
def tPlan : Plan :=
  { lc2 := false, lagged := false, multi := false, rank := 0, stepCount := 0, lens := [(4096, true)], zoneFs := [(0, 0, 0)], hash := 0, digest := 0
    seeds := [], tiles := 1, engines := 1, bankBase := 0, banks := 0, phases := [], beads := [], chans := [], gathers := [], exps := [], refresh := []
    regions := [] }

/-- A context that runs it since tick 0. -/
def tCtx : Ctx :=
  { Ctx.zero with st := .opened, plan := .running, image := some tPlan, tiles := 1, engines := 1, ctrBase := 16, ctrLen := 16, job := 7, ran := true }

/-- Context 0 runs the image; tile 0 issues. -/
def tRun (f : Tile → Tile) : State :=
  { setCtx (setTile State.reset 0 (f { Tile.zero with own := some 0, st := .issuing })) 0 tCtx with now := 100 }

/-- The states of the statements' openings for tile 0. -/
def tCtl (f : Tile → Tile) : State := openBundle (tRun f) 0
def tSlot (f : Tile → Tile) (k : Nat) : State := markSlot (openBundle (tRun f) 0) 0 k

/-- The control slot can open a bundle, also at the last index of the store and inside four loops. -/
theorem witness_ctl_opens : CtlOpens (tRun id) 0 (tCtl id) ∧ CtlOpens (tRun fun x => { x with bidx := 2047 }) 0 (tCtl fun x => { x with bidx := 2047 }) :=
  ⟨⟨by decide +kernel, by decide +kernel, rfl⟩, by decide +kernel, by decide +kernel, rfl⟩

/-- An engine slot opens a bundle of its own, or joins the one that is open. -/
theorem witness_slot_opens (k : Fin 4) : SlotOpens (tRun id) 0 k (tSlot id k) ∧ SlotOpens (tCtl id) 0 k (tSlot id k) := by
  have a : ∀ k : Fin 4, joinable (tRun id) 0 k = false ∧ joinable (tCtl id) 0 k = true ∧ canIssue (tRun id) 0 = true ∧
      bundleOpen (openBundle (tRun id) 0) 0 = true := by decide +kernel
  exact ⟨.inr ⟨(a k).1, ⟨(a k).2.2.1, (a k).2.2.2, rfl⟩, rfl⟩, .inl ⟨(a k).2.1, rfl⟩⟩

theorem witness_wait_opens : WaitOpens (tRun id) 0 (advanceCc (tRun id) 0) := ⟨by decide +kernel, by decide +kernel, rfl⟩

/-- Own, foreign and chip-wide counters of the context at the ends of their ranges; a block other than the bundle's; loops. -/
theorem witness_control_slots : ownsTile (tCtl id) 0 0 = true ∧ ownsChip (tCtl id) 0 16 = true ∧ ownsChip (tCtl id) 0 31 = true ∧
    ownsChip (tCtl id) 0 15 = false ∧ ownsChip (tCtl id) 0 32 = false ∧
    (getTile (tCtl id) 0).loops.length < 4 ∧ (getTile (tCtl id) 0).cur / 32 ≠ 63 ∧
    (getTile (tCtl fun x => { x with loops := List.replicate 4 ⟨1, 5, 5⟩ }) 0).loops.length = 4 := by decide +kernel

theorem test_loop_opens_a_level : (getTile (tNext (.loop 0 0 0 2047) (tRun id)) 0).loops = [{ left := 1, first := 1, last := 0 }] := by decide +kernel
theorem test_fifth_loop_faults :
    (getTile (tNext (.loop 0 1 0 0) (tRun fun x => { x with loops := List.replicate 4 ⟨2, 5, 5⟩ })) 0).st = .faulted := by decide +kernel
theorem test_jmp_last_index : (getTile (tNext (.jmp 0 0 2047) (tRun id)) 0).bidx = 2047 := by decide +kernel
theorem test_pinc_zero_faults : (getTile (tNext (.pinc 0 0 5 0) (tRun id)) 0).st = .faulted := by decide +kernel
theorem test_pinc_lands_next_cc : localCtr (getTile (tNext (.nop 0 0) (tNext (.pinc 0 0 5 255) (tRun id))) 0) 5 = 255 := by decide +kernel

/-- Waits whose condition holds at its last value and fails at the next, present and stalled. -/
def tWait (f : Tile → Tile) : State := advanceCc (tRun fun x => f { x with waitTab := [BitVec.ofNat 64 (5 * 2 ^ 32 + 7)] }) 0
theorem witness_waits : waitEntry (getTile (tWait id) 0) 0 = some (5, 7) ∧ MayIssue (tWait id) 0 ∧
    (localCtr (getTile (tWait fun x => { x with punty := [(3, 5)] }) 0) 3 - (5 : W32)).toNat < 2 ^ 31 ∧
    (localCtr (getTile (tWait fun x => { x with punty := [(3, 0x80000004)] }) 0) 3 - (5 : W32)).toNat < 2 ^ 31 ∧
    ¬ (localCtr (getTile (tWait fun x => { x with punty := [(3, 4)] }) 0) 3 - (5 : W32)).toNat < 2 ^ 31 ∧
    ownsChip (tWait id) 0 16 = true ∧ (chipAt { tWait id with chip := [(16, [(0, 5)])] } 16 ((tWait id).now - (2 + XI)) - (5 : W32)).toNat < 2 ^ 31 ∧
    (getTile (tWait id) 0).own = some 0 ∧ (getCtx (tWait id) 0).image = some tPlan ∧
    (getCtx (tWait id) 0).launchAt + stepOffset tPlan (resumeStep (tWait id) 0) (zoneSteps (tWait id) 0) + (5 : W32).toNat + XI ≤ (tWait id).now ∧
    (tWait id).now < (getCtx (tWait id) 0).launchAt + stepOffset tPlan (resumeStep (tWait id) 0) (zoneSteps (tWait id) 0) + (4095 : W32).toNat + XI ∧
    (getCtx (tWait id) 0).launchAt + stepOffset tPlan (resumeStep (tWait id) 0) ((getTile (tWait id) 0).steps + 1) = 4096 ∧
    edgeBefore (tWait id) 0 < 4096 + XI ∧ (tWait id).now < 4096 + XI ∧ 4096 + XI ≤ ({ tWait id with now := 4096 + XI }).now ∧
    edgeBefore { tWait id with now := 4096 + XI } 0 < 4096 + XI :=
  ⟨by decide +kernel, ⟨by decide +kernel, by decide +kernel⟩, by decide +kernel⟩
/-- A stall since tick 90 with a bound of 10 ticks: at its bound, and one tick past it. -/
def tStall (now : Nat) : State :=
  { tRun fun x => { x with st := .waiting, stall := some { cond := .local 3 5, since := 90, bound := some 10 }, punty := [(3, 5)] } with now := now }
theorem witness_stalls : (getTile (tStall 100) 0).stall = some { cond := .local 3 5, since := 90, bound := some 10 } ∧ zoneRuns (tStall 100) (zoneOf 0) = true ∧
    stopSeen (tStall 100) 0 = false ∧ condHolds (advanceCc (tStall 100) 0) 0 (.local 3 5) = true ∧ (tStall 100).now ≤ 90 + 10 ∧
    (getTile (advanceCc (tStall 100) 0) 0).st ≠ .faulted ∧ 90 + 10 < (tStall 101).now ∧ stopSeen (tStall 101) 0 = false ∧
    purging (getCtx (tStall 101) 0) = false ∧ (getCtx (tStall 101) 0).faultTick = none ∧
    breakHit (advanceCc (tStall 100) 0) 0 (getTile (advanceCc (tStall 100) 0) 0) = none ∧
    tget (fun _ => 0) (getTile (advanceCc (tStall 100) 0) 0).blkFrom ((getTile (advanceCc (tStall 100) 0) 0).bidx / 32) ≤ (getTile (advanceCc (tStall 100) 0) 0).cc := by
  decide +kernel
/-- A STEP that waits for the boundary at tick 4096, in the tick in which its zone sees it. -/
def tAtStep : State :=
  { tRun fun x => { x with st := .atStep, stall := some { cond := .step 4096, since := 90, bound := none } } with now := 4096 + XI }
theorem witness_step_stall : (getTile tAtStep 0).stall = some { cond := .step 4096, since := 90, bound := none } ∧ zoneRuns tAtStep (zoneOf 0) = true ∧
    stopSeen tAtStep 0 = false ∧ 4096 + XI ≤ (advanceCc tAtStep 0).now ∧ (getTile (advanceCc tAtStep 0) 0).st ≠ .faulted := by decide +kernel
theorem test_step_issues_at_its_boundary : (getTile (tNext (.waitSatisfied 0) tAtStep) 0).steps = 1 ∧
    (getTile (tNext (.waitSatisfied 0) { tAtStep with now := 4095 + XI }) 0).steps = 0 := by decide +kernel
theorem test_wait_at_bound_passes : (getTile (tNext (.waitSatisfied 0) (tStall 100)) 0).st = .issuing := by decide +kernel
theorem test_wait_past_bound_faults : (getCtx (tNext (.waitBoundExceeded 0) (tStall 101)) 0).faultTick = some 101 := by decide +kernel

/-! Slot fields at the ends of their ranges -/

def tMat : MatSlot := { fmt := 0, wb := 0, af := 0, rep := 0, accrow := 255, accz := 1, ad := 0, off := 0, soff := 0 }
theorem witness_matrix_slot : (∀ f ∈ ([0x0, 0x2, 0x3, 0x5, 0x8, 0xA] : List (BitVec 4)), fmtOk f = true ∨ f = 0x2) ∧
    effAddr (getTile (tSlot id 0) 0) 0 (BitVec.ofNat 19 (2 ^ 19 - 8 * chunkReads 0)) % 8 = 0 ∧
    effAddr (getTile (tSlot id 0) 0) 0 (BitVec.ofNat 19 (2 ^ 19 - 8 * chunkReads 0)) + 8 * chunkReads 0 ≤ 2 ^ 19 ∧
    effAddr (getTile (tSlot id 0) 0) 0 0 + 8 * chunkReads 0x3 + scaleLines 0x3 ≤ 2 ^ 19 ∧ hasScales 0x3 = true ∧
    ¬ ((getTile (tSlot id 0) 0).cc < (getTile (tSlot id 0) 0).mmaEnd) ∧ (getTile (tSlot id 0) 0).drainEnd ≤ (getTile (tSlot id 0) 0).cc ∧
    hasScales 0 = false ∧ tMat.accrow.toNat + tMat.rep.toNat ≤ 255 ∧ fmtMatch 0 (wbuf (getTile (tSlot id 0) 0) 0).fmt = true ∧
    ({ tMat with accrow := 0, rep := 255 } : MatSlot).accrow.toNat + ({ tMat with accrow := 0, rep := 255 } : MatSlot).rep.toNat ≤ 255 ∧
    (255 : BitVec 8).toNat % 2 = 1 ∧ effAddr (getTile (tSlot id 0) 0) 0 0 % drainUnits .mdrc 0x9 = 0 ∧
    effAddr (getTile (tSlot id 0) 0) 0 0 + drainUnits .mdr 0 * ((255 + 1) / 2) ≤ 2 ^ 19 ∧
    ({ tMat with accrow := 254, rep := 1 } : MatSlot).rep = 1 ∧
    (getTile (tSlot (fun x => { x with mmaEnd := 9 }) 0) 0).cc < (getTile (tSlot (fun x => { x with mmaEnd := 9 }) 0) 0).mmaEnd ∧
    2 ≤ (wbuf (getTile (tSlot (fun x => { x with wb := [(0, { wbuf x 0 with fmt := 8 })] }) 0) 0) 0).fmt ∧
    (getTile (tSlot (fun x => { x with mmaEnd := 9, mmaWb := 0 }) 0) 0).mmaWb = tMat.wb.toNat ∧ effAddr (getTile (tSlot id 0) 0) 0 0 + 128 ≤ 2 ^ 19 := by decide +kernel
/-- A block-scaled MMA of two rows with a buffer that matches; its scale line is in the other half of the SRAM, so that R46 admits it. -/
def tScaled : State := tRun fun x => { x with wb := [(0, { wbuf x 0 with fmt := 0x3 })] }
theorem witness_scaled_mma : hasScales 0x3 = true ∧ fmtMatch 0x3 (wbuf (getTile tScaled 0) 0).fmt = true ∧
    (effAddr (getTile tScaled 0) 0 0 ^^^ 2 ^ 18) + (0 : BitVec 8).toNat + 1 / 16 < 2 ^ 19 ∧
    (getTile (tNext (.mma 0 { tMat with fmt := 0x3, rep := 1, accrow := 0 }) tScaled) 0).mmaEnd = (getTile tScaled 0).cc + 3 ∧
    involved (actsNow (getTile (tNext (.mma 0 { tMat with fmt := 0x3, rep := 1, accrow := 0 }) tScaled) 0)) = [] := by decide +kernel

def tVec : VecSlot := { vd := 2, va := 4, vb := 6, vc := 8, ty := 0, rm := 4, msk := 0, imm := 0 }
/-- R56: a fault of a later slot takes back what the bundle sent and scheduled, and nothing of the bundle before it. -/
theorem test_faulting_bundle_issues_nothing :
    (tNext (.pinc 0 2 16 1) (tRun id)).syncNet.length = 1 ∧
    (tNext (.vadd 0 { tVec with ty := 4 }) (tNext (.pinc 0 2 16 1) (tRun id))).syncNet = [] ∧
    (getTile (tNext (.vadd 0 { tVec with ty := 4 }) (tNext (.aset 0 1 0 7) (tNext (.pinc 0 0 5 3) (tRun id)))) 0).acts =
      (getTile (advanceCc (tNext (.pinc 0 0 5 3) (tRun id)) 0) 0).acts := by decide +kernel
/-- A bundle that an access fault of its cc stops leaves nothing scheduled either (R47). -/
theorem test_access_fault_stops_its_bundle :
    let s := advanceCc (tNext (.aset 0 1 0 7) (tRun fun x => { x with acts := [(1, .wrIn 0 3 0)] })) 0
    (getTile s 0).st = .faulted ∧ adreg (getTile s 0) 1 = 0 := by decide +kernel
/-- Registers 4 and 6 of tile 0 with one value in every lane. -/
def tRegs (a b : W32) : Tile → Tile := fun x => setVreg (setVreg (setVreg (setVreg x 4 (List.replicate 256 a)) 5 (List.replicate 256 a)) 6 (List.replicate 256 b)) 7 (List.replicate 256 b)
theorem witness_vector_slot : tVec.rm < 5 ∧ tVec.vd.getLsbD 0 = false ∧ tVec.va.getLsbD 0 = false ∧ tVec.vb.getLsbD 0 = false ∧
    (∀ l : Fin 256, (qreg (getTile (tSlot (tRegs 1 2) 1) 0) 0).getLsbD l = true ∧
      (pairLane (getTile (tSlot (tRegs 1 2) 1) 0) 4 l).toInt + (pairLane (getTile (tSlot (tRegs 1 2) 1) 0) 6 l).toInt < 2 ^ 63) ∧
    2 ^ 63 ≤ (pairLane (getTile (tSlot (tRegs 0x7FFFFFFF 1) 1) 0) 4 255).toInt + (pairLane (getTile (tSlot (tRegs 0x7FFFFFFF 1) 1) 0) 6 255).toInt ∧
    (pairLane (getTile (tSlot (tRegs 1 2) 1) 0) 4 0).toInt - (pairLane (getTile (tSlot (tRegs 1 2) 1) 0) 6 0).toInt < 2 ^ 63 ∧
    -(2 ^ 63) ≤ (pairLane (getTile (tSlot (tRegs 1 2) 1) 0) 4 0).toInt - (pairLane (getTile (tSlot (tRegs 1 2) 1) 0) 6 0).toInt ∧
    (5 * 8 + 7 : Nat) = ({ tVec with imm := 47 } : VecSlot).imm.toNat ∧ (getTile (tSlot id 1) 0).trEnd ≤ (getTile (tSlot id 1) 0).cc ∧
    (getTile (tSlot (fun x => { x with trEnd := 9 }) 1) 0).cc < (getTile (tSlot (fun x => { x with trEnd := 9 }) 1) 0).trEnd ∧
    (0xA : BitVec 4) = BitVec.ofNat 4 ({ tVec with imm := 0xCA } : VecSlot).imm.toNat ∧
    (0xC : BitVec 4) = BitVec.ofNat 4 (({ tVec with imm := 0xCA } : VecSlot).imm.toNat / 16) := by decide +kernel
/-- Alloy: a lane at the exponent of VB lane 0 is admitted, one above it is not; 1.0 has e = 1. -/
theorem witness_alloy : (lane (vreg (getTile (tSlot (tRegs 0x3F800000 1) 1) 0) 6) 0).toInt = 1 ∧
    (∀ l : Fin 256, encBad 1 (lane (vreg (getTile (tSlot (tRegs 0x3F800000 1) 1) 0) 4) l) = false) ∧
    encBad 0 (lane (vreg (getTile (tSlot (tRegs 0x3F800000 0) 1) 0) 4) 0) = true ∧
    (lane (vreg (getTile (tSlot (tRegs 1 32767) 1) 0) 6) 0).toInt = 32767 ∧ (alloyEnc 1 0x3F800000).toInt = 2 ^ 45 ∧
    (alloyEnc 1 0x3FFFFFFF).toInt = 2 ^ 46 - 2 ^ 22 := by decide +kernel
theorem test_logic_and_not : lane (vreg (getTile (tNext (.nop 0 0) (tNext (.vlogic 0 { tVec with imm := 3 }) (tRun (tRegs 0xF 0x5)))) 0) 2) 255 = 0xA := by decide +kernel
theorem test_add_wraps : lane (vreg (getTile (tNext (.nop 0 0) (tNext (.vadd 0 { tVec with ty := 2 }) (tRun (tRegs 0xFFFFFFFF 1)))) 0) 2) 0 = 0 := by decide +kernel

def tMem : MemSlot := { vr := 4, ad := 0, off := BitVec.ofNat 19 (2 ^ 19 - 16), size := 4, ty := 0x8, stride := 0 }
theorem witness_memory_slot : tMem.size < 5 ∧ effAddr (getTile (tSlot id 2) 0) tMem.ad tMem.off % 16 = 0 ∧
    effAddr (getTile (tSlot id 2) 0) tMem.ad tMem.off + 16 ≤ 2 ^ 19 ∧ (tMem.vr.toNat * 2 ^ 14 + tMem.stride.toNat * 32) % 16 = 0 ∧
    effAddr (getTile (tSlot id 2) 0) tMem.ad tMem.off % 8 = 0 ∧ effAddr (getTile (tSlot id 2) 0) 0 (BitVec.ofNat 19 (2 ^ 19 - 1)) + 15 * (0 : BitVec 9).toNat < 2 ^ 19 ∧
    2 ^ 19 ≤ effAddr (getTile (tSlot (fun x => { x with ad := [(1, 1)] }) 2) 0) 1 (BitVec.ofNat 19 (2 ^ 19 - 1)) ∧
    effAddr (getTile (tSlot id 2) 0) 0 1 % 16 ≠ 0 ∧ effAddr (getTile (tSlot id 2) 0) 0 1 + 16 ≤ 2 ^ 19 := by decide +kernel
def tMesh : MeshSlot := { entry := 127, ad := 0, off := 0, len := 15, chan := 3, rsv := 0 }
theorem witness_mesh_slot : tMesh.rsv = 0 ∧ effAddr (getTile (tSlot id 3) 0) tMesh.ad tMesh.off + tMesh.len.toNat < 2 ^ 19 ∧
    (getTile (tSlot id 3) 0).sendEnd ≤ (getTile (tSlot id 3) 0).cc ∧ (getTile (tSlot id 3) 0).recvEnd ≤ (getTile (tSlot id 3) 0).cc ∧
    (getTile (tSlot (fun x => { x with sendEnd := 9 }) 3) 0).cc < (getTile (tSlot (fun x => { x with sendEnd := 9 }) 3) 0).sendEnd := by decide +kernel
/-- An XDROP entry whose cc ends. -/
def tDrop : State := setTile (tRun id) 0 { getTile (tRun id) 0 with
  made := [((getTile (tRun id) 0).cc, .drop 127)], inbox := [(127, some { word := 3, chan := 0, ready := 0, poison := false })] }
theorem witness_drop : (getTile tDrop 0).acts = [] ∧ (getTile tDrop 0).made = [((getTile tDrop 0).cc, .drop 127)] ∧
    (boxGet (getTile tDrop 0).inbox 127).isSome = true ∧ (0 : Nat) % 128 ≠ 127 % 128 := by decide +kernel
theorem test_store_writes_last_lines : memByte (tNext (.nop 0 0) (tNext (.nop 0 0) (tNext (.vst 0 { tMem with size := 0, off := BitVec.ofNat 19 (2 ^ 19 - 1) }) (tRun (tRegs 0x04030201 0)))))
    (sramAddr 0 (2 ^ 19 - 1) + 63) = 4 := by decide +kernel

/-! Results that land -/

/-- Tile 0 with one act due in the next cc. -/
def tAct (a : Act) : State := tRun fun x => { x with acts := [(1, a)] }
theorem witness_acts : (Tile.zero).only [] ∧ (getTile (tAct (.setQ 1 5 7)) 0).only [((getTile (tAct (.setQ 1 5 7)) 0).cc + 1, .setQ 1 5 7)] ∧
    (getTile (tAct (.setAd 7 9)) 0).only [((getTile (tAct (.setAd 7 9)) 0).cc + 1, .setAd 7 9)] ∧
    (getTile (tAct (.seed 1023)) 0).only [((getTile (tAct (.seed 1023)) 0).cc + 1, .seed 1023)] ∧
    (getTile (tAct (.pun 63 (.inc 255))) 0).only [((getTile (tAct (.pun 63 (.inc 255))) 0).cc + 1, .pun 63 (.inc 255))] ∧
    (getTile (tAct (.wr 5 [7] 4 0)) 0).only [((getTile (tAct (.wr 5 [7] 4 0)) 0).cc + 1, .wr 5 [7] 4 0)] ∧
    (getTile (tAct (.rdV 5 16 31 none 3)) 0).only [((getTile (tAct (.rdV 5 16 31 none 3)) 0).cc + 1, .rdV 5 16 31 none ((getTile (tAct (.rdV 5 16 31 none 3)) 0).cc + 3))] :=
  ⟨⟨rfl, rfl, rfl, rfl⟩, ⟨rfl, rfl, rfl, rfl⟩, ⟨rfl, rfl, rfl, rfl⟩, ⟨rfl, rfl, rfl, rfl⟩, ⟨rfl, rfl, rfl, rfl⟩, ⟨rfl, rfl, rfl, rfl⟩, rfl, rfl, rfl, rfl⟩
theorem witness_box_acts : let s := tRun fun x => { x with acts := [(1, .wrIn 5 127 0)], inbox := [(127, some { word := 3, chan := 0, ready := 0, poison := false })] }
    (getTile s 0).only [((getTile s 0).cc + 1, .wrIn 5 127 0)] ∧ (boxGet (getTile s 0).inbox 127).isSome = true :=
  ⟨⟨rfl, rfl, rfl, rfl⟩, by decide +kernel⟩
theorem witness_out_act : (getTile (tAct (.rdOut 5 127 3)) 0).only [((getTile (tAct (.rdOut 5 127 3)) 0).cc + 1, .rdOut 5 127 3)] ∧
    boxGet (getTile (tAct (.rdOut 5 127 3)) 0).outbox 127 = none ∧ ∀ w, tget (fun _ => 0) (tAct (.rdOut 5 127 3)).flaw w = 0 :=
  ⟨⟨rfl, rfl, rfl, rfl⟩, by decide +kernel, fun _ => rfl⟩
theorem witness_counters : (getTile (tAct (.pun 63 (.set 5))) 0).only (([.set 5] : List PunOp).map fun o => ((getTile (tAct (.pun 63 (.set 5))) 0).cc + 1, .pun 63 o)) ∧
    (getTile (tRun fun x => { x with acts := [(2, .pun 0 (.inc 1)), (2, .pun 0 (.inc 2))] }) 0).only (([.inc 1, .inc 2] : List PunOp).map fun o => (0 + 2, .pun 0 o)) ∧
    (PunOp.set 9 ∈ ([.set 9, .inc 3, .set 8] : List PunOp)) ∧
    ({ State.reset with syncNet := [{ due := 0, ctr := .chip 4095, op := .inc 1 }] }).syncNet = ([.inc 1] : List PunOp).map (fun o => { due := 0, ctr := .chip 4095, op := o }) :=
  ⟨⟨rfl, rfl, rfl, rfl⟩, ⟨rfl, rfl, rfl, rfl⟩, by decide, rfl⟩
theorem test_largest_pset_then_increments : punApply 100 [.inc 3, .set 8, .set 9, .inc 4] = 16 := by decide
theorem witness_loops : (0 : Nat) < 1 ∧ 1 ≤ (⟨1, 2047, 2047⟩ : LoopLv).left ∧ (⟨1, 2047, 2047⟩ : LoopLv).last + 1 = (⟨1, 2047, 2047⟩ : LoopLv).first + 1 ∧
    (⟨1, 2047, 2047⟩ : LoopLv).last < 2048 ∧ breakHit (tRun id) 0 (getTile (tRun id) 0) = none ∧
    tget (fun _ => 0) (getTile (tRun id) 0).blkFrom ((getTile (tRun id) 0).bidx / 32) ≤ (getTile (tRun id) 0).cc := by decide +kernel
theorem test_loop_runs_three_times : (List.range 7).map (fun k => (seqRun k (4, [⟨3, 4, 5⟩])).1) = [4, 5, 4, 5, 4, 5, 6] := by decide

/-- A row of INT8 products at the ends of INT32, and one whose sum leaves it. -/
def tRow : MmaRow := { af := 1, row := 255, fmt := 0x2, accz := false, land := 1, j := 0, iss := 0, wb := 0, buf := wbuf Tile.zero 0 }
theorem witness_array_rows : tRow.fmt = 0x2 ∧ ({ tRow with fmt := 0x8 } : MmaRow).fmt ≠ 0x2 ∧ tRow.land = (getTile (tAct (.accMma tRow 0 0)) 0).cc + 1 ∧
    (getTile (tAct (.accMma tRow 0 0)) 0).only [(tRow.land, .accMma tRow 0 0)] := ⟨rfl, by decide, rfl, rfl, rfl, rfl, rfl⟩
theorem test_int8_row_saturates :
    mmaLane { tRow with buf := { wbuf Tile.zero 0 with elems := BitVec.ofNat 65536 1 } } 127 0 0x7FFFFFFF 0 = (0x7FFFFFFF, true) := by decide +kernel

theorem witness_tile_fault : (getTile (tRun id) 0).st ≠ .faulted ∧ (getTile (tRun id) 0).own = some 0 ∧ purging (getCtx (tRun id) 0) = false := by decide +kernel
theorem witness_slot_frames : (getTile (tNext (.vadd 0 { tVec with ty := 1 }) (tRun id)) 0).st ≠ .faulted ∧
    Instr.vadd 0 tVec ∈ ([.vadd 0 tVec, .vsub 0 tVec] : List Instr) := by decide +kernel

/-! ### Gather engines and LPDDR -/

def tDesc (op : Nat) : Desc := { op := op, start := 96, rlen := 1, base := 90, rows := 0, stride := 0, chan := 3, sc := 2, target := 31, amount := 5 }
/-- Context 0 holds engine 0 with one descriptor; region 0 of the context covers the first 2 MiB. -/
def tGth (op : Nat) (f : Engine → Engine) : State :=
  wr (setEng (tRun id) 0 (f { Engine.zero with own := some 0, list := [tDesc op] })) (rMEM_CTX_RGN 0 0) fMEM_CTX_RGN_VALID 1
def tRd (op : Nat) : State := tGth op fun e => { e with active := true, upNext := 1, st := .waitSlot }
/-- Lines 90 and 91 staged for channel 3. -/
def tLn (n tick : Nat) (p : Bool) : GLine := { line := n, tick := tick, word := 7, poison := p, chan := 3, fixed := [], bad := false, mesh := true }

theorem witness_descriptor : (getEng (tGth 1 id) 0).own = some 0 ∧ meshRuns (getCtx (tGth 1 id) 0) = true ∧ (getEng (tGth 1 id) 0).st ≠ .faulted ∧
    descAt (getEng (tGth 1 id) 0) (getEng (tGth 1 id) 0).upNext = some (tDesc 1) ∧ (getCtx (tGth 1 id) 0).stepStart + (tDesc 1).start ≤ (tGth 1 id).now ∧
    (getEng (tGth 1 id) 0).active = false ∧
    (getEng (tGth 1 fun e => { e with active := true }) 0).active = true ∧ purging (getCtx (tGth 1 id) 0) = false := by decide +kernel
theorem witness_block : (∀ op ∈ [1, 2, 3], wantsSlot (tRd op) 0 (32 * ((tRd op).now / 32)) = true ∧ (getEng (tRd op) 0).own = some 0 ∧
      nextBlock (getEng (tRd op) 0) = some (tDesc op, [90, 91], 1, 0) ∧ (∀ n ∈ [90, 91], inRegions (tRd op) 0 (64 * n) 64 = true) ∧ (tDesc op).op = op) ∧
    (stagedFor (getEng (tRd 2) 0) 3 96 2).length < 2 ∧
    (stagedFor (getEng (tGth 2 fun e => { e with active := true, staging := [tLn 0 96 true, tLn 1 96 false] }) 0) 3 96 2).length = 2 := by decide +kernel
theorem witness_staging : ((getEng (tGth 1 fun e => { e with flight := [tLn 90 100 false] }) 0).flight.find? fun l => decide (l.tick ≤ 100)) = some (tLn 90 100 false) ∧
    ((getEng (tGth 1 fun e => { e with flight := [tLn 90 101 false] }) 0).flight.find? fun l => decide (l.tick ≤ 100)) = none ∧
    ([] : List GLine).length < 128 ∧ 128 ≤ (List.replicate 128 (tLn 90 100 false)).length ∧ (List.replicate 127 (tLn 90 100 false)).length < 128 ∧
    (tLn 90 100 true).poison = true ∧ (tLn 90 100 true).fixed = [] ∧ (tLn 90 100 false).bad = false ∧ ({ tLn 90 100 false with fixed := [(0, 0)] } : GLine).fixed ≠ [] := by decide +kernel
theorem witness_finish : let s := tGth 1 fun e => { e with active := true, upNext := 1, row := 1, sent := 2, lastEnd := 100 }
    (getEng s 0).own = some 0 ∧ descAt (getEng s 0) (getEng s 0).idx = some (tDesc 1) ∧ (getEng s 0).active = true ∧ (tDesc 1).rows < (getEng s 0).row ∧
    (getEng s 0).lastEnd ≤ s.now ∧ descLines (tDesc 1) ≤ (getEng s 0).sent ∧ (getEng s 0).st ≠ .faulted ∧ (getCtx s 0).stopped = false ∧
    ctrRefOf (tDesc 1).sc (tDesc 1).target 0 = some (.chip 31) := by decide +kernel
theorem witness_block_run : ((tDesc 1).rows + 1) * ((tDesc 1).rlen + 1) ≤ 2 ∧ (tDesc 1).rows = 0 ∧ 1 ≤ (tDesc 1).rlen := by decide
theorem test_block_ends_at_line_29 : (blockLines { tDesc 1 with base := 29 } 30 0 0) = ([29], 0, 1) := by decide +kernel
theorem witness_slot_owner : startable 127 3 = true ∧ ownChan 31 3 = 127 := by decide

/-- A reservation of window 0 for every channel, in force; tick 32 is slot 1, period 0 of channel 1. -/
def tRef (now : Nat) : State := { tRun id with refreshP := List.replicate 128 0, now := now }
theorem witness_refresh : (tRef 32).refreshP ≠ [] ∧ enginesHeld (tRef 32) = true ∧ inRefresh (tRef 32) 1 (((tRef 32).now / 32 + 128 - 1) % 128 / 4) = true ∧
    2048 ≤ (2048 : BitVec 16).toNat ∧ (2047 : BitVec 16).toNat < 2048 ∧ tget (fun _ => false) (tRef 32).hot 1 = false ∧
    holdsEngines (getCtx (tRef 32) 0) = true ∧ purging (getCtx (tRef 32) 0) = false ∧ groupOf (ownChan 0 (gSlot 32)) = groupOf 1 ∧
    enginesHeld State.reset = false := by decide +kernel
theorem witness_scrub : (∀ c : CtxId, holdsPlan (getCtx State.reset c) = true → (planTiles (getCtx State.reset c)).getLsbD 255 = false) ∧ State.reset.flaw = [] ∧
    sramAddr 255 0 ≤ 32 * (2 ^ 35 + 256 * 2 ^ 20 - 1) ∧ 32 * (2 ^ 35 + 256 * 2 ^ 20 - 1) < sramAddr 255 0 + 2 ^ 25 := by decide +kernel
/-- A code word with one wrong symbol is corrected, whatever the matrix of log 102. -/
theorem witness_corrected_symbol : ∃ j x, eccRead (BitVec.ofNat 272 (2 ^ 256)) = (.corrected j, x) := by
  have h : eccSyn (BitVec.ofNat 272 (2 ^ 256)) = 1 := by decide +kernel
  have g : ((List.range (68 * 15)).find? fun n => decide (eccMul (n / 15) (n % 15 + 1) = 1)).isSome = true := by
    rw [List.find?_isSome]
    exact ⟨960, by decide +kernel, by decide +kernel⟩
  obtain ⟨n, hn⟩ := Option.isSome_iff_exists.mp g
  exact ⟨n / 15, _, by simp only [eccRead, h, hn]; rfl⟩
/-- Patrol scrubbing on, at slot 31: channel 127 of group 3 is free. -/
def tPat : State := { wr State.reset rMEM_SCRUB_CTL fMEM_SCRUB_CTL_ENABLE 1 with now := 32 * 31, scrubAt := [(3, 31)] }
theorem witness_patrol : enginesHeld tPat = false ∧ rd tPat rMEM_SCRUB_CTL fMEM_SCRUB_CTL_ENABLE = 1 ∧
    chanFree tPat (32 * 3 + tget (fun _ => 0) tPat.scrubAt 3 % 32) = true ∧ tPat.flaw = [] ∧ tPat.rowErr = [] := by decide +kernel
/-- A stored request with its accesses still to be served, a word returned to a buffer, and a BAR4 access. -/
def tInb (needs : List Need) : Inb :=
  { pkt := { op := 0, ep := false, mc := false, dest := 0, cm := false, dm := false, len := 1, birth := 0, gen := 0, seq := 0, job := 0, srank := 0
             ce := false, status := 0, tgt := 0, data := [] }, ctx := none, at_ := 0, local_ := none, needs := needs }
def tRsp : RespW := { key := 1, loc := false, at_ := 0, addr := sramAddr 0 0, data := [9], needs := [.sram 0 true] }
def tAcc (who : HostWho) (needs : List Need) : HostAcc := { who := who, addr := 64, len := 8, at_ := 0, needs := needs }
/-- The last line of tile 0's SRAM and a whole period of channel 3, of a request that came with nothing else waiting. -/
def tOpn : State := { State.reset with inb := [tInb [.sram (2 ^ 19 - 1) false, .period 3]], now := 32 * 3 }
theorem witness_open_access : rd tOpn (rCLK_ZONE_CTL 0) fCLK_ZONE_CTL_STOPPED = 0 ∧ zoneDeep tOpn (zoneOf 0) = false ∧
    (tInb [.sram (2 ^ 19 - 1) false, .period 3]).needs.any (Need.onTile 0) = true ∧
    turnOf tOpn (Need.onTile 0) = some (.inb, [.sram (2 ^ 19 - 1) false, .period 3]) ∧
    [Need.sram (2 ^ 19 - 1) false, .period 3].find? (sramServable tOpn 0) = some (.sram (2 ^ 19 - 1) false) ∧
    chanFree tOpn 3 = true ∧ turnOf tOpn (Need.onGroup (groupOf 3)) = some (.inb, [.sram (2 ^ 19 - 1) false, .period 3]) ∧
    Need.period 3 ∈ [Need.sram (2 ^ 19 - 1) false, .period 3] ∧ chanFree State.reset 1 = false ∧
    (getTile (setTile State.reset 0 { Tile.zero with memBusy := true }) 0).memBusy = true := by decide +kernel
/-- One waiting entry of each kind for tile 0: the oldest has its turn. -/
theorem witness_turns : (tInb [.sram 0 true]).needs.any (Need.onTile 0) = true ∧ tRsp.needs.any (Need.onTile 0) = true ∧
    (tAcc (.barWrite 0) [.sram 0 true]).needs.any (Need.onTile 0) = true ∧ (tInb [.sram 0 true]).at_ ≤ tRsp.at_ ∧
    tRsp.at_ < ({ tInb [.sram 0 true] with at_ := 1 } : Inb).at_ ∧ tRsp.at_ ≤ (tAcc (.barWrite 0) []).at_ ∧
    (tAcc (.barWrite 0) []).at_ < ({ tRsp with at_ := 1 } : RespW).at_ := by decide
theorem witness_returned_data : sramServable { State.reset with respW := [tRsp] } 0 (.sram 0 true) = true ∧ tRsp.needs = [.sram 0 true] ∧
    tableAddr (2 ^ 36) ≤ tRsp.addr ∧ tRsp.addr = 0x10000000000 ∧ (0 : Nat) + 8 * tRsp.data.length ≤ tableAddr 0 := by decide +kernel
theorem witness_bar4_access : let s := { State.reset with hostAcc := [tAcc (.barRead 0 7) [.period 3]], now := 32 * 3 }
    chanFree s 3 = true ∧ s.inb = [] ∧ s.respW = [] ∧ s.hostAcc = [tAcc (.barRead 0 7) [.period 3]] ∧ NoFlaws s :=
  ⟨by decide +kernel, rfl, rfl, rfl, rfl, rfl, rfl⟩
theorem test_open_line_waits_for_its_bank :
    sramFree (setTile State.reset 0 { Tile.zero with openRd := [0] }) 0 0 true = false ∧
    sramFree (setTile State.reset 0 { Tile.zero with openRd := [0] }) 0 1 true = true := by decide +kernel
theorem test_memory_write_is_little_endian : memByte (memWrite State.reset 64 8 0x0102) 65 = 1 := by decide +kernel

/-! ### The mesh and the forwarding plane -/

theorem witness_sync_network : let s := { tRun id with syncNet := [{ due := 100, ctr := .chip 31, op := .inc 1 }, { due := 100, ctr := .chip 31, op := .set 5 }, { due := 101, ctr := .tile 0 63, op := .inc 1 }] }
    100 ≤ s.now ∧ (∃ i ∈ s.syncNet, i.ctr = .chip 31 ∧ i.due = 100) ∧ (∀ i ∈ s.syncNet, i.ctr = .chip 31 → i.due ≤ s.now → i.due = 100) ∧
    (∀ i ∈ s.syncNet, i.ctr = .chip 4095 → s.now < i.due) ∧ chipNow (tNext .syncIncrementApplied s) 31 = 6 := by decide +kernel

/-- Tile 0 and engine 0 have channel 0 to destination kind k: bursts of two words, four bursts from tick 8 of the step on. -/
def tChan (k : Nat) : Chan := { dkind := k, dest := 0, base := 0, ring := 127, ctr := 0, burst := 1, count := 4, first := 8, period := 20 }
def tMsh (k : Nat) (f : State → State) : State :=
  f (setCtx (setEng (tRun id) 0 { Engine.zero with own := some 0 }) 0 { tCtx with image := some { tPlan with chans := [(0, [tChan k]), (0x100, [tChan k]), (0x200, [tChan k])] } })
def tBox : BoxWord := { word := 5, chan := 0, ready := 8, poison := false }
def tWord (w : BitVec 512) (i : Nat) : Flight := { arrive := 100, src := 0, chan := 0, index := i, ctx := 0, word := w, poison := false }
def tFly (k : Nat) (w : BitVec 512) (i : Nat) (f : State → State) : State := tMsh k fun s => f { s with flight := [tWord w i] }

theorem witness_no_word_waits : ∀ k v, (k, some v) ∈ boxSet ([(127, some tBox)] : Tbl (Option BoxWord)) 127 none → k ∈ ([127] : List Nat).erase 127 := by
  have h : boxSet ([(127, some tBox)] : Tbl (Option BoxWord)) 127 none = [] := by decide +kernel
  simp [h]
theorem witness_departures : let s := tMsh 1 fun s => setEng (modTile s 0 fun x => { x with outbox := [(127, some tBox)], xout := [127] }) 0 { Engine.zero with own := some 0, list := [{ tDesc 1 with chan := 0 }], active := true, staging := [{ tLn 90 8 false with chan := 0, mesh := false }] }
    (1 : Nat) ≤ (tChan 1).burst ∧ ((0 : BitVec 10).toNat < 0x100 ∧ (getTile s 0).own = some 0 ∧ (getCtx s 0).image = some { tPlan with chans := [(0, [tChan 1]), (0x100, [tChan 1]), (0x200, [tChan 1])] }) ∧
    chanAt { tPlan with chans := [(0, [tChan 1]), (0x100, [tChan 1]), (0x200, [tChan 1])] } 0 0 = some (tChan 1) ∧ meshRuns (getCtx s 0) = true ∧ (tChan 1).dkind ≠ 0 ∧
    wordIdx s 0 0 0 < ((tChan 1).burst + 1) * (tChan 1).count ∧ (getCtx s 0).stepStart + wordDeparts (tChan 1) (wordIdx s 0 0 0) ≤ s.now ∧
    oldestOut (getTile s 0) 0 8 = some (127, tBox) ∧ oldestOut (getTile (tMsh 1 id) 0) 0 8 = none ∧ purging (getCtx s 0) = false ∧
    (getEng s 0).own = some 0 ∧ wordIdx s 0 0x100 0 < ((tChan 1).burst + 1) * (tChan 1).count ∧
    nextLine (getEng s 0) 0 8 = some { tLn 90 8 false with chan := 0, mesh := false } ∧ nextLine (getEng (tMsh 1 id) 0) 0 8 = none ∧ ({ s with now := 7 }).now < 8 ∧
    ([{ tick := 100, link := 23, chan := 0, ctx := 0, word := 1 }] : List Deliv).find? (fun d => d.link = 23 && d.chan = 0 && decide (d.tick ≤ s.now) && !(getCtx s d.ctx).stopped) =
      some { tick := 100, link := 23, chan := 0, ctx := 0, word := 1 } := by decide +kernel

/-- A well-formed descriptor of operation op on one word, into tile 0 and its counter 0. -/
def tDescW (op : Nat) : BitVec 512 := BitVec.ofNat 512 (op * 2 ^ 58 + 1 + 2 ^ 200)
theorem witness_arrivals : (∀ k ∈ [1, 2, 3, 4], (tFly k 5 7 id).flight.find? (fun f => f.src = 0 && f.chan = 0 && decide (f.arrive ≤ (tFly k 5 7 id).now)) = some (tWord 5 7) ∧
      ((getCtx (tFly k 5 7 id) 0).image.bind fun p => chanAt p 0 0) = some (tChan k) ∧ (tChan k).dkind = k) ∧
    (getTile (tFly 1 5 127 id) 0).xin.length < 64 ∧ boxGet (getTile (tFly 1 5 127 id) 0).inbox 127 = none ∧
    tget (fun _ => 0) (getTile (tFly 1 5 127 id) 0).freedAt 127 ≤ 100 ∧
    (boxGet (getTile (tFly 1 5 127 fun s => modTile s 0 fun x => { x with inbox := [(127, some tBox)] }) 0).inbox 127).isSome = true ∧
    purging (getCtx (tFly 1 5 127 id) 0) = false ∧
    (getAbuf (tFly 2 5 4 id) (abufOf tPlan 0)).freeAt = none ∧ (getAbuf (tFly 2 5 4 id) (abufOf tPlan 0)).valid.getLsbD 4 = false ∧
    payWord (getAbuf (tFly 2 5 4 id) (abufOf tPlan 0)).pay 4 = 0 ∧
    (getAbuf (tFly 2 5 4 fun s => setAbuf s 0 { abufZero with valid := 16 }) (abufOf tPlan 0)).valid.getLsbD 4 = true ∧
    (getEng (tFly 3 5 0 id) 0).staging.length < 128 ∧
    128 ≤ (getEng (tFly 3 5 0 fun s => setEng s 0 { Engine.zero with staging := List.replicate 128 (tLn 0 0 false) }) 0).staging.length := by decide +kernel
theorem witness_descriptors : descOk (tDescW 1) = true ∧ descBounds (tFly 4 (tDescW 1) 0 id) 0 (tDescW 1) = true ∧ orderOp (dOp (tDescW 1)) = false ∧
    (tget (fun _ => []) (tFly 4 (tDescW 1) 0 id).reqq 0).length < 256 ∧ descOk (tDescW 0xE) = true ∧ orderOp (dOp (tDescW 0xE)) = true ∧
    (getCtx (tFly 4 (tDescW 0xE) 0 fun s => modCtx s 0 fun x => { x with dm := true }) 0).dm = true ∧ (getCtx (tFly 4 0 0 id) 0).dm = false := by decide +kernel

/-- Link 0 is UP; context 0 owns its position 0, in which it sends t and expects r; slot 64 begins at tick 256. -/
def tTx (k : Nat) : TxE := { kind := k, srca := 1, abuf := 0, bsel := true, srcb := 2, rel := false, fop := 3, stok := 0xF }
def tRx : RxE := { kind := 1, due := 99, dlv := true, chan := 0, rfld := false, abuf := 0, rel := false, fop := 0, tokctr := 28 }
def tBeadsOf (e : TxE) (r : RxE) : Plan := { tPlan with phases := [{ frame := 64, reps := 16 }], beads := [{ link := 0, flux := 1, mask := 1, tx := [[e]], rx := [[r]] }] }
def tBeads (k : Nat) : Plan := tBeadsOf (tTx k) tRx
def tLnkOf (p : Plan) (now : Nat) : State :=
  { wr (regSet (setCtx (tRun id) 0 { tCtx with image := some p }) (rFWD_OWN 0 0) 1) (rLNK_STATUS 0) fLNK_STATUS_STATE 6 with now := now }
def tLnk (k now : Nat) (f : State → State) : State := f (tLnkOf (tBeads k) now)
def tPay : BitVec 2560 := BitVec.ofNat 2560 (2 ^ 2559 + 7)

theorem witness_slot_begins (k : Fin 3) : SlotBegins (tLnk (k + 1) 256 id) 0 ∧ lnkUp (tLnk (k + 1) 256 id) 0 = true ∧
    rd (tLnk (k + 1) 256 id) (rLNK_STATUS 0) fLNK_STATUS_INCOMPAT = 0 ∧ fluxSlot (tLnk (k + 1) 256 id) 0 ((tLnk (k + 1) 256 id).now / 4) = false := by
  have a : ∀ k : Fin 3, (rxLive (tLnk (k + 1) 256 id) 0 = true ∧ lnkQuiet (tLnk (k + 1) 256 id) 0 = false ∧
      (tLnk (k + 1) 256 id).now % beadTicks (tLnk (k + 1) 256 id) 0 = 0 ∧
      (getLink (tLnk (k + 1) 256 id) 0).lastSlot ≠ some ((tLnk (k + 1) 256 id).now / 4)) ∧ lnkUp (tLnk (k + 1) 256 id) 0 = true ∧
      rd (tLnk (k + 1) 256 id) (rLNK_STATUS 0) fLNK_STATUS_INCOMPAT = 0 ∧ fluxSlot (tLnk (k + 1) 256 id) 0 ((tLnk (k + 1) 256 id).now / 4) = false := by decide +kernel
  exact ⟨⟨(a k).1.1, (a k).1.2.1, (a k).1.2.2.1, (a k).1.2.2.2⟩, (a k).2⟩
set_option synthInstance.maxSize 512 in
theorem witness_planned_slot (k : Fin 3) : PlannedSlot (tLnk (k + 1) 256 id) 0 0 (tBeads (k + 1)) (tTx (k + 1)) := by
  have a : ∀ k : Fin 3, plannedAt (tLnk (k + 1) 256 id) 0 ((tLnk (k + 1) 256 id).now / 4) =
      some (0, getCtx (tLnk (k + 1) 256 id) 0, tBeads (k + 1), false, 0, 0, tTx (k + 1)) := by decide +kernel
  exact ⟨(witness_slot_begins k).1, (witness_slot_begins k).2.1, (witness_slot_begins k).2.2.1, (witness_slot_begins k).2.2.2, 0, 0, a k⟩
/-- An INT64 Fold whose second source is an assembly entry, and one that releases the entry it sends. -/
def tFoldE : TxE := { tTx 3 with fop := 1, bsel := false }
set_option synthInstance.maxSize 512 in
theorem witness_fold_slot : plannedAt (tLnkOf (tBeadsOf tFoldE tRx) 256) 0 64 =
      some (0, getCtx (tLnkOf (tBeadsOf tFoldE tRx) 256) 0, tBeadsOf tFoldE tRx, false, 0, 0, tFoldE) ∧ tFoldE.kind = 3 ∧ ({ tTx 1 with rel := true } : TxE).rel = true ∧
    ((([{ tick := 256, link := 0, ctx := 0, pay := some tPay }] : List FoldB).find? fun f => f.tick = 256 && f.link = 0 && f.ctx = 0).map (·.pay)).join = some tPay ∧
    foldBeads tFoldE.fop (payOf 64 [2 ^ 63]) (payOf 64 [2 ^ 64 - 1]) = .inr 0 := by decide +kernel
theorem witness_slot_sources : let full := tLnk 1 256 fun s => setAbuf s 0 { abufZero with valid := 31, full := 252, pay := tPay }
    let r : List Released := [{ tick := 252, link := 1, ctx := 0, pay := tPay }, { tick := 244, link := 1, ctx := 0, pay := tPay }, { tick := 244, link := 2, ctx := 0, pay := 1 }]
    abufAt (getAbuf full (abufOf (tBeads 1) 0)) 252 = some tPay ∧ abufAt (getAbuf (tLnk 1 256 id) (abufOf (tBeads 1) 0)) 252 = none ∧
    releasedAt { full with rel := r } 0 1 252 = some tPay ∧ releasedAt full 0 1 252 = none ∧ releasedAt { full with rel := r } 0 1 (256 - 12) = some tPay ∧
    releasedAt { full with rel := r } 0 2 (256 - 12) = some 1 ∧ (foldBeads 3 tPay 1).isLeft = true ∧ purging (getCtx full 0) = false ∧
    voidAt { getCtx full 0 with faultTick := some 248 } 256 = true ∧ voidAt { getCtx full 0 with faultTick := some 249 } 256 = false := by decide +kernel
theorem witness_free_slot : let s := tLnk 1 (4 * 15) id
    let q : Replay := { bead := { seq := 4, hdr := tHdr 1, pay := 0, at_ := 0 }, req := 56 }
    rxLive s 0 = true ∧ lnkQuiet s 0 = false ∧ s.now % beadTicks s 0 = 0 ∧ (getLink s 0).lastSlot = none ∧ fluxSlot s 0 (s.now / 4) = true ∧ (getLink s 0).txq = [] ∧
    (getLink (setLink s 0 { getLink s 0 with rplq := [q] }) 0).rplq.find? (fun r => decide (r.req + 4 ≤ s.now)) = some q ∧
    plannedAt s 0 (s.now / 4) = none ∧ (getLink s 0).rplq = [] ∧ (getLink s 0).ctrlq = [] ∧ (getLink s 0).special = [] ∧
    slotDue (tLnk 1 61 id) 0 = false ∧ rawPeriod { tLnk 1 61 id with lclk := 4 } 0 = true ∧ (getLink (tLnk 1 61 id) 0).txWait = false ∧
    (getLink (setLink s 0 { getLink s 0 with txWait := true }) 0).txWait = true ∧ rawPeriod { tLnk 1 61 id with lclk := 5 } 0 = false ∧
    lnkQuiet (wr s (rPWR_IDLE (16 + 0)) fPWR_IDLE_STATE 1) 0 = true := by decide +kernel

theorem witness_folds : (foldBeads 1 (payOf 64 [2 ^ 63]) (payOf 64 [2 ^ 64 - 1])) = .inr 0 ∧ foldBeads 1 (payOf 64 [2 ^ 63]) (payOf 64 [2 ^ 63 - 1]) = .inl (payOf 64 [2 ^ 64 - 1]) ∧
    (∀ f ∈ [2, 3, 4, 5, 6], (foldBeads f tPay (payOf 64 [1])).isLeft = true) := by decide +kernel

/-- The bead of slot 64: in sequence, of job 7, generation 0, planned or void. -/
def tBd (cls : Nat) : W64 := mkHdr cls false false 0 0xF 0 64 7
/-- Context 0 expects it, from 256 on and due at 355. -/
def tArr (now : Nat) (f : State → State) : State := tLnk 1 now fun s => f (modCtx s 0 fun x => { x with gen := 0 })
theorem witness_arrival_slot : hRpl (tBd 1) = false ∧ 64 % 256 = hSlot (tBd 1) ∧ 300 - expOf (tArr 300 id) 0 < 4 * 64 + 512 ∧ 4 * 64 < 300 - expOf (tArr 300 id) 0 + 512 ∧
    arrivalSlot (tArr 300 id) 0 (tBd 1) none = 64 := by decide +kernel
/-- It arrives clean. -/
def tClean (h : W64) : WireBead := { h := h, pay := tPay, err := 0 }
theorem witness_clean_bead : rxDecode (tClean (tBd 1)) = .ok (tBd 1) tPay 0 ∧ rxDecode (tClean (tBd 7)) = .ok (tBd 7) tPay 0 := by decide +kernel
theorem witness_fresh (f : Fin 2) : FreshBead (tArr (300 + 55 * f) id) 0 (tBd (1 + 6 * f)) ∧ beadSlot (tArr (300 + 55 * f) id) 0 (tBd (1 + 6 * f)) = 64 := by
  have a : ∀ f : Fin 2, rxLive (tArr (300 + 55 * f) id) 0 = true ∧ (getLink (tArr (300 + 55 * f) id) 0).has (unwrap (getLink (tArr (300 + 55 * f) id) 0).rxNext
      (hLseq (tBd (1 + 6 * f))) 4096) = false ∧ beadSlot (tArr (300 + 55 * f) id) 0 (tBd (1 + 6 * f)) = 64 := by decide +kernel
  exact ⟨⟨(a f).1, (a f).2.1⟩, (a f).2.2⟩
theorem witness_planned_arrival : let s := tArr 300 id
    hClass (tBd 1) = 1 ∧ hClass (tBd 7) = 7 ∧ (getLink s 0).rxErr = [] ∧ rd s (rLNK_FENCE 0) fLNK_FENCE_ENABLE = 0 ∧ ownerOf s 0 64 = some 0 ∧ ownerOf s 0 65 = none ∧
    s.recov = [] ∧ (getCtx s 0).image = some (tBeads 1) ∧ keepsProgram (getCtx s 0) = true ∧ voidAt (getCtx s 0) s.now = false ∧
    rxEntry (tBeads 1) (getCtx s 0) (resumeStep s 0) 0 64 = some (0, 0, tRx) ∧ tRx.kind = 1 ∧ isFlux (fluxN s 0) 64 = false ∧
    hEpoch (tBd 1) = (getCtx s 0).job.toNat ∧ hGen (tBd 1) = (getCtx s 0).gen.toNat ∧ s.now < 4 * 64 + tRx.due ∧ lehrGet s 0 64 = none ∧
    hGen (tBd 1) ≠ ({ getCtx s 0 with gen := 255 }).gen.toNat ∧ 4 * 64 + tRx.due ≤ (tArr 355 id).now ∧ (tArr 354 id).now < 4 * 64 + tRx.due ∧
    purging (getCtx s 0) = false ∧ (lehrGet (lehrSet s 0 64 (some { slot := 64, at_ := 299, stok := 0, pay := 0 })) 0 64).isSome = true ∧
    hEpoch (mkHdr 1 false false 0 0xF 0 64 8) ≠ (getCtx s 0).job.toNat := by decide +kernel
/-- A position that no context owns, one whose context has stopped, and a bead of job 7 on a link fenced for job 8. -/
theorem witness_refused_arrivals : beadSlot (tArr 300 id) 0 (mkHdr 1 false false 0 0xF 0 65 7) = 65 ∧ ownerOf (tArr 300 id) 0 65 = none ∧
    voidAt (getCtx (tArr 300 fun s => modCtx s 0 fun x => { x with faultTick := some 248 }) 0) 300 = true ∧
    fencedOut (wr (wr (tArr 300 id) (rLNK_FENCE 0) fLNK_FENCE_ENABLE 1) (rLNK_FENCE 0) fLNK_FENCE_TAG 8) 0 (tBd 1) = true := by decide +kernel
theorem witness_due_tick : let s := tArr 355 fun s => lehrSet s 0 64 (some { slot := 64, at_ := 354, stok := 0xF, pay := tPay })
    (∀ d : CtxId, d ≠ 0 → (getCtx s d).image = none) ∧ keepsProgram (getCtx s 0) = true ∧ voidAt (getCtx s 0) s.now = false ∧ releasedNow s 0 0 = false ∧
    dueEntries (tBeads 1) (getCtx s 0) (resumeStep s 0) 0 s.now = [(64, 0, 0, tRx)] ∧
    lehrGet s 0 64 = some { slot := 64, at_ := 354, stok := 0xF, pay := tPay } ∧ tRx.rfld = false ∧ tRx.dlv = true ∧ lehrGet (tArr 355 id) 0 64 = none := by decide +kernel

/-- A receive Fold with its assembly entry full. -/
def tRxF : RxE := { tRx with rfld := true, fop := 3 }
def tRxFold : State := setAbuf (lehrSet (tLnkOf (tBeadsOf (tTx 1) tRxF) 355) 0 64 (some { slot := 64, at_ := 354, stok := 0xF, pay := tPay })) 0
  { abufZero with valid := 31, full := 300, pay := tPay }
theorem witness_receive_fold : dueEntries (tBeadsOf (tTx 1) tRxF) (getCtx tRxFold 0) (resumeStep tRxFold 0) 0 tRxFold.now = [(64, 0, 0, tRxF)] ∧
    tRxF.rfld = true ∧ tRxF.dlv = true ∧ abufAt (getAbuf tRxFold (abufOf (tBeadsOf (tTx 1) tRxF) tRxF.abuf)) 355 = some tPay ∧
    (foldBeads tRxF.fop tPay tPay).isLeft = true := by decide +kernel

/-! ### Links -/

/-- Link 0 in a state of R146 at tick `now`, nothing planned on it. -/
def tUp (st now : Nat) (f : Link → Link) : State :=
  { setLink (wr (wr State.reset (rLNK_STATUS 0) fLNK_STATUS_STATE st) (rLNK_CTL 0) fLNK_CTL_ENABLE 1) 0 (f Link.zero) with now := now }
def tSent (seq at_ : Nat) : SentBead := { seq := seq, hdr := tHdr 0, pay := 0, at_ := at_ }

theorem witness_sequences : (0 : Nat) < 4096 ∧ 4095 < 5000 + 4096 / 2 ∧ 5000 < 4095 + 4096 / 2 ∧ unwrap 5000 (4095 % 4096) 4096 = 4095 ∧
    (Link.zero).rxNext ≤ 0 ∧ (Link.zero).rxCum ≤ 0 ∧ (0 : Nat) < 1 ∧ (Link.zero).has 0 = false := by decide +kernel
/-- Eleven bytes in error, an error in the CRC bytes, a reserved CLASS, and one byte in error. -/
def tErr (h : W64) (e : Nat) : WireBead := { h := h, pay := 0, err := BitVec.ofNat 2816 e }
theorem witness_decoding : 10 < errBytes (tErr 0 (2 ^ 88 - 1)).err ∧ errBytes (tErr 0 (2 ^ 80 - 1)).err ≤ 10 ∧ (tErr 0 (2 ^ 80 - 1)).err.toNat < 2 ^ 2784 ∧
    2 ^ 2784 ≤ (tErr 0 (2 ^ 2784)).err.toNat ∧ errBytes (tErr 0 (2 ^ 2784)).err ≤ 10 ∧ 2 ^ 63 ≤ (tErr (tHdr 8) 0).h.toNat ∧ (tErr (tHdr 7) 0).h.toNat < 2 ^ 63 := by decide +kernel
theorem witness_bad_bead : rxDecode (tErr 0 (2 ^ 88 - 1)) = .bad .uncorrectable := by decide +kernel
theorem witness_errors : let s := tUp 6 400 fun x => { x with lastRx := 161 }
    rxLive s 0 = true ∧ tooMany (getLink s 0) ((getLink s 0).rxCount + 1) = false ∧ (getLink s 0).unsure = false ∧ s.now < (getLink s 0).lastRx + 240 ∧
    (getLink s 0).nakOut = [] ∧ fluxSlot (tUp 6 60 id) 0 (nearestSlot (60 - expOf (tUp 6 60 id) 0)) = true ∧
    (getLink (tUp 6 60 fun x => { x with nakOut := [3] }) 0).nakOut ≠ [] ∧ rd s (rLNK_CTL 0) fLNK_CTL_ENABLE = 1 ∧
    tooMany (getLink (tUp 6 60 fun x => { x with errAt := List.replicate 64 0 }) 0) ((getLink (tUp 6 60 fun x => { x with errAt := List.replicate 64 0 }) 0).rxCount + 1) = true ∧
    tooMany (getLink (tUp 6 60 fun x => { x with errAt := List.replicate 63 0 }) 0) 1 = false ∧ 15 ≤ ({ Link.zero with consec := 15 }).consec := by decide +kernel
theorem witness_naks : let s := tUp 6 400 fun x => { x with txSeq := 4100, txAck := 4096, ring := [tSent 4099 380, tSent 4096 (400 - 12)] }
    let r : Replay := { bead := tSent 4099 380, req := 390 }
    unwrap (getLink s 0).txAck (3 : BitVec 12).toNat 4096 = 4099 ∧ 4099 < (getLink s 0).txSeq ∧ (getLink s 0).rplq = [] ∧
    (getLink s 0).ring.find? (fun b => decide (b.seq = 4099)) = some (tSent 4099 380) ∧ (getLink s 0).ring.find? (fun b => decide (b.seq = 4098)) = none ∧
    unwrap (getLink s 0).txAck (2 : BitVec 12).toNat 4096 = 4098 ∧ r ∈ (getLink (tUp 6 400 fun x => { x with rplq := [r] }) 0).rplq ∧
    (getLink s 0).ring.find? (fun b => decide (b.seq = (getLink s 0).txAck)) = some (tSent 4096 388) ∧ (getLink s 0).txAck ∉ (getLink s 0).nakIn ∧
    388 + 2 * rd s (rLNK_HOP 0) fLNK_HOP_HOP + 12 ≤ s.now ∧ fluxDeadline 16 0 ≤ 10000 := by decide +kernel
theorem witness_flux_budget : let s := tLnk 1 (fluxDeadline 16 56) fun s => modLink s 0 fun x => { x with rplq := [{ bead := tSent 4 0, req := 56 }] }
    (∃ r ∈ (getLink s 0).rplq, fluxDeadline (fluxN s 0) r.req ≤ s.now) ∧ (0 : CtxId) ∈ ctxsOn s 0 isRunning ∧ purging (getCtx s 0) = false := by decide +kernel
/-- An EMPTY, CTRL, OPEN, MGMT or HELLO bead in sequence 0 that acknowledges sequences 0 and 1 of four sent. -/
def tH (cls : Nat) : W64 := withAck (mkHdr cls false false 0 0 0 0 0) 1 false
def tIn : State := tUp 6 400 fun x => { x with txSeq := 4 }
theorem witness_bead_in_sequence (cls : Fin 8) : InOrder tIn 0 (tH cls) ∧ hClass (tH cls) = cls := by
  have a : rxLive tIn 0 = true ∧ (∀ c : Fin 8, unwrap (getLink tIn 0).rxNext (hLseq (tH c)) 4096 = (getLink tIn 0).rxNext ∧ hClass (tH c) = c) ∧
      (getLink tIn 0).rxCum = (getLink tIn 0).rxNext ∧ (getLink tIn 0).rxAcc = [] ∧ (getLink tIn 0).unsure = false ∧ (getLink tIn 0).held = [] := by decide +kernel
  exact ⟨⟨a.1, (a.2.1 cls).1, a.2.2.1, a.2.2.2.1, a.2.2.2.2.1, a.2.2.2.2.2⟩, (a.2.1 cls).2⟩
theorem witness_corrected_bead : rxDecode (tErr (tH 6) 1) = .ok (tH 6) 0 1 ∧ rxDecode (tErr (tH 0) 0) = .ok (tH 0) 0 0 := by decide +kernel
theorem witness_acknowledges : hNak (tH 0) = false ∧ unwrap (getLink tIn 0).txAck (hAck (tH 0) + 1) 4096 ≤ (getLink tIn 0).txSeq ∧
    (getLink tIn 0).txAck < unwrap (getLink tIn 0).txAck (hAck (tH 0) + 1) 4096 := by decide +kernel

/-- The first bead of a packet of two, its last, and a header two sequences ahead. -/
def tFrag (off : Nat) (last : Bool) : BitVec 2560 := BitVec.ofNat 2560 (off + if last then 2 ^ 16 else 0)
theorem witness_open_beads : (getLink tIn 0).fdrop = false ∧ rd tIn (rLNK_FENCE 0) fLNK_FENCE_ENABLE = 0 ∧ fAbort (tFrag 0 true) = false ∧
    fOffset (tFrag 0 true) = (getLink tIn 0).fexp ∧ fOffset (tFrag 312 true) = ({ Link.zero with fexp := 312 }).fexp ∧
    unwrap (getLink tIn 0).rxNext (hLseq (mkHdr 2 false false 2 0 0 0 0)) 4096 = 2 ∧ (getLink tIn 0).rxNext < 2 ∧ (getLink tIn 0).naks = [] ∧
    (getLink (tUp 6 400 fun x => { x with rxCum := 1, rxNext := 1 }) 0).has (unwrap (getLink (tUp 6 400 fun x => { x with rxCum := 1, rxNext := 1 }) 0).rxNext (hLseq (tH 2)) 4096) = true ∧
    lnkUp tIn 0 = true ∧ 16 ≤ ({ Link.zero with retPend := 16 }).retPend ∧ ({ Link.zero with retPend := 1, retFirst := 144 }).retFirst + 256 ≤ tIn.now ∧
    ({ Link.zero with retPend := 15, retFirst := 145 }).retPend < 16 ∧ tIn.now < ({ Link.zero with retPend := 15, retFirst := 145 }).retFirst + 256 := by decide +kernel

/-- Sequence 1 is held behind the missing sequence 0, and goes on with it. -/
def tHeldB : OpenB := { seq := 1, mgmt := false, fil := false, at_ := 390, pay := tFrag 312 true }
def tGap : State := tUp 6 400 fun x => { x with rxNext := 2, rxAcc := [1], held := [tHeldB] }
theorem witness_held_bead : rxDecode (tErr (tH 2) 0) = .ok (tH 2) 0 0 ∧ rxLive tGap 0 = true ∧
    unwrap (getLink tGap 0).rxNext (hLseq (tH 2)) 4096 = (getLink tGap 0).rxCum ∧ (getLink tGap 0).held = [tHeldB] ∧ tHeldB.seq = (getLink tGap 0).rxCum + 1 ∧
    (getLink tGap 0).rxAcc = [tHeldB.seq] ∧ (getLink tGap 0).rxNext = tHeldB.seq + 1 ∧ (getLink tGap 0).unsure = false ∧ (getLink tGap 0).fdrop = false ∧
    rd tGap (rLNK_FENCE 0) fLNK_FENCE_ENABLE = 0 ∧ fAbort 0 = false ∧ fLast 0 = false ∧ fOffset 0 = (getLink tGap 0).fexp ∧ fAbort tHeldB.pay = false ∧
    fOffset tHeldB.pay = (getLink tGap 0).fexp + 312 := by decide +kernel
theorem test_held_bead_follows : ((getLink (tNext (.openBead 0 (tErr (tH 2) 0).h (tErr (tH 2) 0).pay (tErr (tH 2) 0).err) tGap) 0).obuf.map (·.seq)) = [0, 1] := by decide +kernel
/-- A HELLO from chassis 5. -/
def tHello : BitVec 2560 := BitVec.ofNat 2560 (5 * 2 ^ 64 + 3)
theorem witness_neighbours : tIn.recOpen = [] ∧ ([(255, 100)] : List (Nat × Nat)).find? (fun e => decide (e.1 = (255 : BitVec 8).toNat)) = some ((255 : BitVec 8).toNat, 100) ∧
    (getLink (tUp 6 400 fun x => { x with rtts := [40] }) 0).rtts ≠ [] ∧ ([(3, 0, 100)] : List (Nat × Nat × Nat)) = [(3, ((0 : LinkId) : Nat), 100)] ∧ tIn.now < 100 + 1200 ∧ rxDecode { h := tH 5, pay := tHello, err := 0 } = .ok (tH 5) tHello 0 ∧ rd tIn (rLNK_NBR0 0) fLNK_NBR0_VALID = 0 ∧ (regGet (regSet tIn (rLNK_NBR1 0) 5) (rLNK_NBR1 0)).toNat = payLane tHello 64 1 ∧
    lnkState tIn 0 = 6 ∧ rd tIn (rLNK_CTL 0) fLNK_CTL_ENABLE = 1 ∧ rd (wr tIn (rLNK_NBR0 0) fLNK_NBR0_VALID 1) (rLNK_NBR0 0) fLNK_NBR0_VALID = 1 ∧
    (regGet tIn (rLNK_NBR1 0)).toNat ≠ payLane tHello 64 1 ∧ rd tIn (rLNK_LANE_MAP 0) fLNK_LANE_MAP_MAP = 0x3210 ∧
    (getLink (tUp 6 1200001 fun x => { x with helloAt := 2 }) 0).helloAt + 1200000 ≤ (tUp 6 1200001 id).now + 1 ∧ lnkState (tUp 5 0 id) 0 = 5 ∧
    (getLink (tUp 5 0 id) 0).helloAt ≤ (getLink (tUp 5 0 id) 0).stateAt ∧ (getLink tIn 0).lockLost = none ∧
    tIn.now < 0 + 1200 ∧ 0 + 1200 ≤ (tUp 6 1200 fun x => { x with lockLost := some 0 }).now ∧ rxLive (tUp 6 1200 fun x => { x with lockLost := some 0 }) 0 = true ∧
    1 ≤ (5 : BitVec 4).toNat ∧ (5 : BitVec 4).toNat ≤ 5 ∧ lnkState tIn 0 ≠ 8 ∧ lnkState tIn 0 ≠ 0 ∧ (0 : CtxId) ∈ planCtxs (tLnk 1 256 id) 0 := by decide +kernel

/-- This end is the master of link 0. -/
def tMst (s : State) : State := wr s (rLNK_STATUS 0) fLNK_STATUS_MASTER 1
theorem witness_retraining : lnkState tIn 0 = 6 ∧ isMaster (tMst tIn) 0 = true ∧ isMaster tIn 0 = false ∧ (255 : BitVec 8) ≠ 0 ∧ linkHeld (tMst tIn) 0 = false ∧
    linkHeld (tMst (tLnk 1 256 id)) 0 = true ∧ lnkState (tMst (tLnk 1 256 id)) 0 = 6 ∧ (0 : CtxId) ∈ planCtxs (tMst (tLnk 1 256 id)) 0 ∧
    isMaster (tMst (tLnk 1 256 id)) 0 = true ∧
    tIn.now < unwrap tIn.now (256 * (2 : BitVec 45).toNat) (2 ^ 53) ∧ (7 : Nat) = (7 : BitVec 8).toNat ∧ tIn.cmds = [] ∧ (getLink tIn 0).ownReq = none ∧
    lnkState (tUp 7 512 fun x => { x with grant := some { absorbed := 0, eq := false, width := 0, forced := false, start := 512 } }) 0 = 7 ∧
    rd (tUp 7 512 id) (rLNK_LANE_MAP 0) fLNK_LANE_MAP_MAP = 0x3210 ∧ isMaster (tLnk 1 256 id) 0 = false ∧ linkHeld (tLnk 1 256 id) 0 = true ∧
    lnkState (tMst (tUp 4 0 id)) 0 = 4 ∧ linkHeld tIn 0 = false := by decide +kernel
def tTr : TrainResult := { lanes := 15, hash := 0, coeff := 0, gid := 0, assigned := true, equalise := false, preTx := 0, preRx := 0 }
theorem witness_training : lnkState (tUp 8 1200000000 id) 0 = 8 ∧ rd (wr (tUp 8 1200000000 id) (rLNK_CTL 0) fLNK_CTL_AUTO_RETRY 1) (rLNK_CTL 0) fLNK_CTL_AUTO_RETRY = 1 ∧
    (getLink (tUp 8 1200000000 id) 0).retryAt + 1200000000 ≤ (tUp 8 1200000000 id).now ∧
    (∀ n ∈ [1, 2, 3, 4, 5], lnkState (tUp n 0 id) 0 = n ∧ (getLink (tUp n (trainLimit n) id) 0).stateAt + trainLimit (lnkState (tUp n (trainLimit n) id) 0) ≤ (tUp n (trainLimit n) id).now) ∧
    ({ Link.zero with lanesOk := 15 }).lanesOk ≠ 0 ∧ (15 : BitVec 4) &&& ~~~ 15 = 0 ∧ (15 : BitVec 4) &&& ~~~ 7 ≠ 0 ∧
    (∀ i, i < 4 → tget (fun _ => 0) (Link.zero).laneFails i < 3) ∧ tget (fun _ => 0) ({ Link.zero with laneFails := [(3, 2)] }).laneFails 3 = 2 ∧
    (Link.zero).attempts < 2 ∧ (Link.zero).fullEq = true ∧ ({ Link.zero with fullEq := false }).fullEq = false ∧ ({ Link.zero with coeff := some (1, 0) }).coeff = some (1, tTr.hash) ∧ tTr.equalise = false ∧ (Link.zero).laneFails = [] ∧ (Link.zero).reqWidth < 2 ∧
    (tUp 5 0 id).cmds = [] := by decide +kernel
theorem test_link_comes_up : lnkState (tNext (.trainingStateComplete 0 tTr) (tUp 5 0 id)) 0 = 6 := by decide +kernel

/-! ### Open traffic -/

/-- A request or response of operation op, job 7 and rank 3, on one word at u. -/
def tNi (op u : Nat) (data : List W64) (f : NiPkt → NiPkt) : NiPkt :=
  f { (tInb []).pkt with op := op, len := 1, job := 7, srank := 3, seq := 5, tgt := BitVec.ofNat 64 u, data := data }
/-- Its beads in the receive buffer of link 0. -/
def tObuf (p : NiPkt) (s : State) : State := modLink s 0 fun x => { x with obuf := p.beads.map fun b => { seq := 0, mgmt := false, fil := false, at_ := 0, pay := b } }
/-- A valid Rank entry: INB_HIGH 5, tokens 1, rate 1. -/
def tRank : List W64 := [BitVec.ofNat 64 (2 ^ 62 + 9), 5, 0, BitVec.ofNat 64 (2 ^ 32 + 2 ^ 16), 0]
/-- Context 0 is open for job 7; rank 3 is cached. -/
def tNiS (f : State → State) : State :=
  f { wr (modCtx (tUp 6 400 id) 0 fun x => { x with st := .opened, job := 7, tiles := 1 }) (rMEM_CTX_RGN 0 0) fMEM_CTX_RGN_VALID 1 with rankC := [(3, tRank)] }
/-- A descriptor of one word to rank 3. -/
def tDw : BitVec 512 := BitVec.ofNat 512 (2 ^ 58 + 3 * 2 ^ 32 + 1 + 2 ^ 200)
def tReq : ReqDesc := { word := tDw, src := 0, chan := 0, index := 0, at_ := 0 }
def tOut (key : Nat) (f : Outst → Outst) : Outst :=
  f { key := key, ctx := 0, rank := 3, pkt := tNi 1 0 [] id, desc := tReq, sent := 0, resend := none, copies := 0 }
def tOk (data : List W64) (st : Nat) : NiPkt := tNi 0x20 0 data fun p => { p with status := st, len := data.length }

theorem witness_packets_ok : (tNi 2 8 [2 ^ 63] id).ok ∧ (tNi 0x20 0 [] fun p => { p with len := 0, status := 127, seq := 2 ^ 24 - 1, srank := 2 ^ 16 - 1 }).ok ∧
    (tNi 2 8 (List.replicate 512 1) fun p => { p with len := 512, job := 0, srank := 2 ^ 20 - 1 }).ok :=
  ⟨by unfold NiPkt.ok; decide, by unfold NiPkt.ok; decide, by unfold NiPkt.ok; decide +kernel⟩
theorem test_packet_of_514_words : (tNi 2 8 (List.replicate 512 1) fun p => { p with len := 512 }).beads.length = 14 := by decide +kernel
theorem witness_issue : let s := tNiS fun s => { s with reqq := [(0, [tReq, tReq])] }
    tget (fun _ => []) s.reqq 0 = tReq :: [tReq] ∧ (getCtx s 0).stopped = false ∧ s.recPhase = 0 ∧ s.outst.length < 8192 ∧ ordMet s 0 tReq.word = true ∧
    dOp tReq.word = 1 ∧ dMc tReq.word = false ∧ rankCached s 0 (dDest tReq.word % 65536) = some tRank ∧ tRank.length = 5 ∧ getField tRank 0 rkState = 1 ∧
    (getField tRank 2 rkIssued + 2 ^ 32 - getField tRank 2 rkDone) % 2 ^ 32 < 4096 ∧ getField tRank 0 rkGid ≠ ownGid s ∧ 1 ≤ getField tRank 3 rkTokens ∧
    getField [0, 0, 0, 0, 0] 0 rkState ≠ 1 ∧ purging (getCtx s 0) = false := by decide +kernel
/-- Rank 3 is this module itself; a PUT to rank 3, one far outside the context, and a multicast PUT to group 9. -/
def tSelf : List W64 := [BitVec.ofNat 64 (2 ^ 62), 5, 0, BitVec.ofNat 64 (2 ^ 32 + 2 ^ 16), 0]
def tDwOf (op w0 w1 : Nat) : BitVec 512 := BitVec.ofNat 512 (op * 2 ^ 58 + w0 + 1 + w1 * 2 ^ 64 + 2 ^ 200)
def tSelfPkt (u : Nat) : NiPkt := { (tInb []).pkt with op := 1, len := 1, job := 7, tgt := BitVec.ofNat 64 u }
theorem witness_self_packets : (reqPkt (tNiS id) 0 (tDwOf 1 (3 * 2 ^ 32) 0) (ownGid (tNiS id)) 0).1 = tSelfPkt 0 ∧
    (reqPkt (tNiS id) 0 (tDwOf 1 (3 * 2 ^ 32) (2 ^ 21)) (ownGid (tNiS id)) 0).1 = tSelfPkt (2 ^ 21) := by decide +kernel
theorem witness_issue_forms : (descOk (tDwOf 1 (3 * 2 ^ 32) 0) = true ∧ ordMet (tNiS id) 0 (tDwOf 1 (3 * 2 ^ 32) 0) = true) ∧
    (descOk (tDwOf 2 (3 * 2 ^ 32) 0) = true ∧ ordMet (tNiS id) 0 (tDwOf 2 (3 * 2 ^ 32) 0) = true) ∧
    (descOk (tDwOf 2 (2 ^ 55 + 9 * 2 ^ 32) 0) = true ∧ ordMet (tNiS id) 0 (tDwOf 2 (2 ^ 55 + 9 * 2 ^ 32) 0) = true) ∧
    dOp (tDwOf 2 (3 * 2 ^ 32) 0) = 2 ∧ dMc (tDwOf 2 (2 ^ 55 + 9 * 2 ^ 32) 0) = true ∧ dMc (tDwOf 2 (3 * 2 ^ 32) 0) = false ∧
    getField tSelf 0 rkGid = ownGid (tNiS id) ∧ getField tSelf 0 rkState = 1 ∧
    rankCached (tNiS fun s => { s with rankC := [(3, tSelf)] }) 0 (dDest (tDwOf 1 (3 * 2 ^ 32) 0) % 65536) = some tSelf ∧
    tgtStatus (tNiS id) 0 (tSelfPkt 0) = 0 ∧ tgtStatus (tNiS id) 0 (tSelfPkt (2 ^ 21)) ≠ 0 ∧
    (tNiS id).routeC = [] ∧ tget (fun _ => false) (tNiS id).retired (activeV (tNiS id)) = false ∧
    (getCtx (modCtx (tNiS id) 0 fun x => { x with stopped := true }) 0).stopped = true := by decide +kernel
theorem witness_no_flaws : NoFlaws (tNiS id) := ⟨rfl, rfl, rfl⟩
theorem witness_responses (k : Fin 4) : let p := [tOk [9] 0, tOk [] 0, tOk [] 1, tOk [] 2].getD k (tOk [] 0)
    ResponseAt (tNiS fun s => tObuf p { s with outst := [tOut 1 id] }) 0 p 0 := by
  have a : ∀ k : Fin 4, let p := [tOk [9] 0, tOk [] 0, tOk [] 1, tOk [] 2].getD k (tOk [] 0)
      let s := tNiS fun s => tObuf p { s with outst := [tOut 1 id] }
      frontPkt s 0 = some (p, true) ∧ p.mc = false ∧ p.op = 0x20 ∧ p.dest = ownGid s ∧ (getLink s 0).route = none ∧ s.recPhase = 0 ∧
      allCtx.find? (fun d : CtxId => decide ((getCtx s d).st ≠ .closed) && decide ((getCtx s d).job.toNat = p.job)) = some 0 := by decide +kernel
  exact a k
theorem witness_response_cases : let s := tNiS fun s => { s with outst := [tOut 1 id] }
    (tOk [9] 0).gen = (getCtx s 0).gen ∧ (∀ p ∈ [tOk [9] 0, tOk [] 0, tOk [] 1, tOk [] 2], matchOut s 0 p = some (tOut 1 id) ∧ p.ce = false) ∧
    (tOk [9] 0).data ≠ [] ∧ ctrRefOf (dSc tDw) (dTarget tDw) (dTile tDw) = some (.tile 0 0) ∧ 2 ≤ (tOk [] 2).status ∧ (tOk [] 2).status < 128 ∧
    ({ tOk [] 0 with ce := true } : NiPkt).ce = true ∧ rankCached s 0 (tOut 1 id).rank = some tRank ∧
    ({ s with echoed := [3] } : State).echoed.contains (65536 * 0 + (tOut 1 id).rank) = true ∧
    (tOk [] 0).gen ≠ (getCtx (modCtx s 0 fun x => { x with gen := 1 }) 0).gen ∧ matchOut (tNiS id) 0 (tOk [] 0) = none := by decide +kernel
theorem witness_timeout : let s := tNiS fun s => { s with outst := [tOut 1 id], now := 1200000 }
    let v := tNiS fun s => { s with outst := [tOut 1 fun o => { o with resend := some 2048 }], now := 2048 }
    (∃ o ∈ s.outst, o.sent + 1200000 ≤ s.now) ∧ s.respW = [] ∧
    v.outst.find? (mayResend v) = some (tOut 1 fun o => { o with resend := some 2048 }) ∧
    (tOut 1 id).pkt.mc = false ∧ rankCached v 0 (tOut 1 id).rank = some tRank ∧ s.outst.find? (mayResend s) = none ∧ expired v (tOut 1 id).pkt.birth = false ∧ tget (fun _ => false) v.retired (activeV v) = false ∧ v.routeC = [] ∧
    expired { s with now := 17 * 2 ^ 16 + 65535 } 0 = false ∧ expired { s with now := 18 * 2 ^ 16 } 0 = true := by decide +kernel
theorem witness_caches : rankCached State.reset 7 65535 = none ∧ chanFree { State.reset with now := 32 * (chanOf (rankAddr 7 65535) % 128) } (chanOf (rankAddr 7 65535)) = true ∧
    State.reset.rankC.length < 4096 ∧ (State.reset.flaw = [] ∧ State.reset.poison = [] ∧ State.reset.rowErr = []) ∧
    ([{ ctx := 7, rank := 65535, work := .note .done }] : List RankWait) ≠ [] ∧ (rankCached (tNiS id) 0 3).isSome = true ∧ chanFree State.reset 1 = false ∧
    routeCached State.reset (verOf true) (2 ^ 20 - 1) = none ∧ rd State.reset rOPN_RT_BASE fOPN_RT_BASE_BASE = tableAddr 0 ∧
    chanFree { State.reset with now := 32 * chanOf (tableAddr (0x800000 + 8 * (2 ^ 20 - 1))) } (chanOf (tableAddr (0x800000 * verOf true + 8 * (2 ^ 20 - 1)))) = true := by decide +kernel

/-- Links 0 and 1 are UP on ports 0 and 1; the entry of module 9 names port 1. -/
def tHop (p : NiPkt) (e : W64) : State :=
  tNiS fun s => { tObuf p (wr (regSet s rFWD_PORT_MAP0 (BitVec.ofNat 64 0xFFFFFFFFFFFFFF10)) (rLNK_STATUS 1) fLNK_STATUS_STATE 6) with routeC := [(9, e)] }
def tFar : NiPkt := tNi 2 8 [7] fun p => { p with dest := 9, dm := true }
theorem witness_routes : let s := tHop tFar (BitVec.ofNat 64 (2 ^ 63 + 0xFFF1))
    frontPkt s 0 = some (tFar, true) ∧ (getLink s 0).route = none ∧ opKnown tFar.op = true ∧ tFar.mc = false ∧ tFar.dest ≠ ownGid s ∧
    routeOf s tFar = .go [1] false ∧ (0 : LinkId) ≠ 1 ∧ routeOf (tHop tFar 0) tFar = .drop rOPN_DROP0 fOPN_DROP0_NO_ROUTE ∧
    routeOf (tNiS id) tFar = .wait ∧ expired s tFar.birth = false ∧ tget (fun _ => false) s.retired (verOf tFar.ep) = false ∧
    tget (fun _ => false) ({ s with retired := [(0, true)] }).retired (verOf tFar.ep) = true ∧
    routeCached s (verOf tFar.ep) tFar.dest = some (BitVec.ofNat 64 (2 ^ 63 + 0xFFF1)) ∧ candPorts s (BitVec.ofNat 64 (2 ^ 63 + 0xFFF1)) = [1] ∧
    portLinks s 1 = [1] := by decide +kernel

/-- Group 9 of version 0 is a tree of link 1 and this module. -/
def tMc : NiPkt := tNi 2 8 [7] fun p => { p with dest := 9, mc := true, dm := true }
def tTree : State := memWrite (tHop tMc (BitVec.ofNat 64 (2 ^ 63 + 2 ^ 62))) (tableAddr (0x1000000 + 16 * 9)) 8 (2 ^ 63 + 2 ^ 25 + 2)
theorem witness_tree : frontPkt tTree 0 = some (tMc, true) ∧ (getLink tTree 0).route = none ∧ opKnown tMc.op = true ∧ tMc.mc = true ∧
    routeOf tTree tMc = .go [1] true ∧ (0 : LinkId) ∉ ([1] : List LinkId) ∧ portOf tTree 1 < 8 ∧ openLink tTree 1 = true := by decide +kernel

/-- Requests of one word at an address, for this module. -/
def tTo (u : Nat) (f : NiPkt → NiPkt) : NiPkt := tNi 2 u [7] f
def tReqAt (p : NiPkt) : State := tNiS (tObuf p)
theorem witness_request (k : Fin 5) : let p := [tTo 8 id, tTo (2 ^ 21) id, tTo 8 fun p => { p with job := 8 }, tTo 8 fun p => { p with seq := 4101 }, tTo 8 fun p => { p with seq := 4 }].getD k (tTo 8 id)
    RequestAt (tReqAt p) 0 p := by
  have a : ∀ k : Fin 5, let p := [tTo 8 id, tTo (2 ^ 21) id, tTo 8 fun p => { p with job := 8 }, tTo 8 fun p => { p with seq := 4101 }, tTo 8 fun p => { p with seq := 4 }].getD k (tTo 8 id)
      frontPkt (tReqAt p) 0 = some (p, true) ∧ p.mc = false ∧ opKnown p.op = true ∧ opResp p.op = false ∧ opMgmt p.op = false ∧
      p.dest = ownGid (tReqAt p) ∧ (getLink (tReqAt p) 0).route = none ∧ (tReqAt p).recPhase = 0 ∧ expired (tReqAt p) p.birth = false := by decide +kernel
  exact a k
theorem witness_request_cases : let s := tReqAt (tTo 8 id)
    jobCtx s 7 = some 0 ∧ jobCtx s 8 = none ∧ rankCached s 0 (3 % 65536) = some tRank ∧ getField tRank 1 rkInbHigh = 5 ∧ bits (tTo 8 id).tgt 43 41 = 0 ∧
    inDataSpace 8 (tgtBytes (tTo 8 id)) = true ∧ inBounds s 0 (2 ^ 21 - 8) 8 = true ∧ inBounds s 0 (2 ^ 21) 8 = false ∧ inDataSpace (2 ^ 21) 8 = true ∧
    storeRoom s (tTo 8 id) = true ∧ s.routeC = [] ∧ tget (fun _ => false) s.retired (activeV s) = false ∧
    (5 + 2 ^ 24 - getField tRank 1 rkInbHigh) % 2 ^ 24 ≤ 4095 ∧ 4095 < (4 + 2 ^ 24 - getField tRank 1 rkInbHigh) % 2 ^ 24 ∧
    (getField tRank 1 rkInbHigh + 2 ^ 24 - 4) % 2 ^ 24 ≤ 4095 ∧ rankCached { s with rankC := [] } 0 3 = none ∧ tgtStatus s 0 (tTo 8 id) = 0 ∧
    tgtStatus s 0 (tTo (2 ^ 21) id) = 2 ∧ storeRoom { s with inb := List.replicate 1024 (tInb []) } (tTo 8 id) = false ∧ retryUse s < 64 ∧
    4095 < (4101 + 2 ^ 24 - getField tRank 1 rkInbHigh) % 2 ^ 24 ∧ 4095 < (getField tRank 1 rkInbHigh + 2 ^ 24 - 4101) % 2 ^ 24 := by decide +kernel
theorem witness_execute : (∀ op ∈ [1, 2, 8, 9, 0xA, 0xB, 0xC, 0xD, 0xE, 0xF], let i : Inb := { tInb [] with pkt := tNi op 8 (if op = 1 then [] else if op = 0xF then [7, 8] else [7]) fun p => if op = 0xF then { p with len := 2 } else p }
      i.needs = [] ∧ i.local_ = none ∧ expired State.reset i.pkt.birth = false ∧ i.pkt.data.length = i.pkt.dataLen ∧ i.pkt.mc = false ∧ i.pkt.job ≠ 0 ∧ 1 ≤ i.pkt.len ∧
      opKnown i.pkt.op = true ∧ i.pkt.dm = false) ∧ State.reset.routeC = [] ∧ State.reset.respW = [] := by decide +kernel
/-- A stored request that shares tile 0 with the next one; one past its lifetime; a BAR4 read and a returned word past theirs; and an
Alloy sum that fits and one that does not. -/
theorem witness_waiting : let i : Inb := { tInb [.sram 0 false] with pkt := tNi 1 (2 ^ 40) [] id }
    let j : Inb := { tInb [] with pkt := tNi 1 (2 ^ 40 + 64) [] id }
    i.needs ≠ [] ∧ j.needs = [] ∧ i.pkt.op ≠ 0x30 ∧ j.pkt.op ≠ 0x30 ∧ shareUnit j.pkt i.pkt = true ∧
    expired { State.reset with now := 18 * 2 ^ 16 } (tInb []).pkt.birth = true ∧ (tAcc (.barRead 1 5) []).at_ + 1200000 ≤ ({ State.reset with now := 1200000 }).now ∧
    tRsp.at_ + 1200000 ≤ ({ State.reset with now := 1200000 }).now ∧ (tOut 1 id).key = tRsp.key ∧ (tOut 1 id).rank < 65536 := by decide +kernel
theorem witness_alloy_add : alloyAdd 1 [0, 0] [0x3F8000003F800000] = some [0x200000000000, 0x200000000000] ∧ alloyAdd 0 [0, 0] [0x3F8000003F800000] = none := by decide +kernel
theorem witness_windows : let s := tNiS fun s => { s with now := 76800 }
    s.rateWin < s.now / 1024 ∧ rankCached s 0 3 = some tRank ∧ tRank.length = 5 ∧ s.echoed.contains (65536 * 0 + 3) = false ∧
    getField tRank 3 rkTokens ≤ max (getField tRank 3 rkRate) 14 ∧ getField tRank 3 rkCalm + 1 < rd s rOPN_CC_CTL fOPN_CC_CTL_INC_PERIOD ∧
    rd (wr s rOPN_CC_CTL fOPN_CC_CTL_INC_PERIOD 1) rOPN_CC_CTL fOPN_CC_CTL_INC_PERIOD ≤ getField tRank 3 rkCalm + 1 ∧ s.congWin < s.now / 76800 := by decide +kernel

/-! ### Zones, time and steps -/

/-- Zone 0 with a change under way, at a tick. -/
def tZone (now : Nat) (f : Zone → Zone) : State := { setZone State.reset 0 (f Zone.zero) with now := now }
def tZctl (f : Fld) (v : Nat) (s : State) : State := wr s (rCLK_ZONE_CTL 0) f v
theorem witness_zone_changes : (getZone (tZone 100 fun z => { z with change := some (.voltage 200) }) 0).change = some (.voltage 200) ∧
    (getZone (tZone 100 fun z => { z with change := some .toStop }) 0).change = some .toStop ∧ (tZone 100 id).now % 4 = 0 ∧
    rd (tZone 100 id) (rCLK_ZONE_CTL 0) fCLK_ZONE_CTL_STOPPED = 0 ∧ 84 + 16 ≤ (tZone 100 id).now ∧ (Zone.zero).target < 5 ∧
    68 + 32 ≤ (tZone 100 id).now ∧ (Zone.zero).shed = false ∧ (Zone.zero).stretchNow = false ∧ rd (tZone 100 id) (rPWR_IDLE 0) fPWR_IDLE_STATE = 0 ∧
    zoneCtxs State.reset 0 isRunning = [] ∧ zoneCtxs (tRun id) 0 isRunning ≠ [] ∧
    (4094 : Nat) < 0 + 4095 ∧ (getZone (tZone 128 fun z => { z with decided := 127 }) 0).decided ≠ 0 ∧
    (tZone 127 id).now / 64 ≤ ((getZone (tZone 127 fun z => { z with decided := 65 }) 0).decided - 1) / 64 ∧
    ((getZone (tZone 128 fun z => { z with decided := 65 }) 0).decided - 1) / 64 < (tZone 128 id).now / 64 ∧
    (getZone (tZone 5000 fun z => { z with lastChange := 905 }) 0).lastChange + 4096 ≤ (tZone 5000 id).now + 1 ∧
    (tZone 4999 id).now + 1 < (getZone (tZone 4999 fun z => { z with lastChange := 905 }) 0).lastChange + 4096 ∧
    zoneStopped (tZone 100 id) 0 = false ∧ zoneIdle (tZone 100 id) 0 = false ∧ zoneDeep (tZone 100 id) 0 = false ∧
    (getZone (tZone 100 fun z => { z with change := some (.stopped 84) }) 0).change = some (.stopped 84) ∧
    (getZone (tZone 100 fun z => { z with change := some (.switched 68), shed := true }) 0).change = some (.switched 68) ∧
    (getZone (tZone 100 fun z => { z with stretchNow := true }) 0).stretchNow = true ∧ zoneStopped (tZctl fCLK_ZONE_CTL_STOPPED 1 (tZone 100 id)) 0 = true ∧
    (edgesIn 3 0 0 0 false).str = false ∧ 0 < patLen 3 := by decide +kernel
theorem witness_window_checks : let s := { setZone (tRun id) 0 { Zone.zero with armedAt := some 0 } with now := 4095 }
    zoneCtxs s 0 isRunning ≠ [] ∧ (getZone s 0).armedAt = some 0 ∧ 0 + 4095 ≤ s.now ∧ delivered (getZone s 0) < zoneReq s 0 ∧
    (0 : CtxId) ∈ zoneCtxs s 0 isRunning ∧ purging (getCtx s 0) = false ∧
    zoneReq s 0 ≤ delivered { getZone s 0 with hist := [(6, 4096)] } := by decide +kernel
/-- Zone 0 at step 3 of five that pass, at a temperature in 1/16 °C, in a state f of the context. -/
def tTmp (temp : Int) (f : State → State) : State :=
  f (wr (tZctl fCLK_ZONE_CTL_STEP 3 (setZone State.reset 0 { Zone.zero with temp := temp, armedAt := some 0 })) (rCLK_XING 0) fCLK_XING_STEP_OK 31)
def tHeld : State := tTmp 2000 fun s => tZctl fCLK_ZONE_CTL_FLOOR 4 { setCtx s 0 tCtx with now := 10000 }
theorem witness_temper : (∀ p ∈ [(16 * 125, 4), (-640, 2)], let s := tTmp p.1 id
      (getZone s 0).decided = 0 ∧ (getZone s 0).change = none ∧ zoneDeep s 0 = false ∧ (getZone s 0).lastChange = 0 ∧ supplyShed s = false ∧
      temperChoice s 0 = some p.2 ∧ changePasses s 0 p.2 = true) ∧ zoneStep (tTmp 0 id) 0 = 3 ∧
    temperChoice tHeld 0 = some 4 ∧ changePasses tHeld 0 4 = false := by decide +kernel
/-- The rows of R208 for a zone within its cap and floor: 16 and 32 stretches of the last 4,096 ticks, and temperatures between. -/
def tStr (n : Nat) (temp : Int) : State := modZone (tTmp temp id) 0 fun z => { z with stretches := List.replicate n 0 }
theorem witness_temper_rows : zoneStep (tStr 0 0) 0 ≤ floorStep (tStr 0 0) 0 ∧ capStep (tStr 0 0) 0 ≤ zoneStep (tStr 0 0) 0 ∧
    (16 * rd (tStr 0 1600) rCLK_TEMPER fCLK_TEMPER_T_HI : Int) ≤ (getZone (tStr 0 1600) 0).temp ∧
    (getZone (tStr 0 1599) 0).temp < (16 * rd (tStr 0 1599) rCLK_TEMPER fCLK_TEMPER_T_HI : Int) ∧
    (16 * rd (tStr 0 1599) rCLK_TEMPER fCLK_TEMPER_T_LO : Int) < (getZone (tStr 0 1599) 0).temp ∧
    powerUnder (tStr 0 0) = true ∧ supplyShed (tStr 0 0) = false ∧
    stretchN (getZone (tStr 0 0) 0) (tStr 0 0).now < rd (tStr 0 0) rCLK_TEMPER fCLK_TEMPER_DROOP_HI ∧
    rd (wr (tStr 8 0) rCLK_TEMPER fCLK_TEMPER_DROOP_HI 8) rCLK_TEMPER fCLK_TEMPER_DROOP_HI ≤ stretchN (getZone (tStr 8 0) 0) (tStr 8 0).now ∧
    supplyShed (wr (tStr 0 0) rPWR_STATUS fPWR_STATUS_SHED 1) = true := by decide +kernel
theorem witness_slow_zone : let s := tZctl fCLK_ZONE_CTL_STEP 4 (wr (tTmp 0 id) (rCLK_XING 0) fCLK_XING_STEP_OK 15)
    floorStep s 0 < zoneStep s 0 ∧ floorStep s 0 ≠ zoneStep s 0 ∧ (getZone s 0).change = none := by decide +kernel
theorem witness_shed : (0x8001 : BitVec 16).getLsbD 15 = true ∧ (0x8001 : BitVec 16).getLsbD 1 = false ∧ zoneStep (tTmp 0 id) 0 < floorStep (tTmp 0 id) 0 ∧
    (getZone (tTmp 0 id) 0).change = none ∧ zoneDeep (tTmp 0 id) 0 = false := by decide +kernel

/-- Link 3, the upstream one, is UP; the module follows. -/
def tTime (st now : Nat) (f : TimeSt → TimeSt) : State :=
  { wr (wr (wr (wr State.reset rTIM_STATUS fTIM_STATUS_STATE st) rTIM_ROLE fTIM_ROLE_ROLE 3) rTIM_ROLE fTIM_ROLE_UPSTREAM 3) (rLNK_STATUS 3) fLNK_STATUS_STATE 6
    with now := now, tim := f TimeSt.zero }
def tSyncH (rpl : Bool) : W64 := mkHdr 4 rpl false 0 0 0 0 0
theorem witness_time : State.reset.cmds = [] ∧ 2 ^ 32 ≤ (tTime 1 0 fun t => { t with frac := 2 ^ 32 - 1 }).tim.frac + rd State.reset rTIM_RATE fTIM_RATE_RATE ∧
    TimeSt.zero.todSet = none ∧ (regGet State.reset rTIM_TOD_SEC).toNat < 2 ^ 62 ∧ rd State.reset rTIM_TOD_NS fTIM_TOD_NS_NS < 10 ^ 9 ∧
    0 + rd (wr State.reset rTIM_RATE fTIM_RATE_RATE 1) rTIM_RATE fTIM_RATE_RATE < 2 ^ 32 ∧
    (95999 : Nat) < 0 + 48000 * (0 + 2) ∧ holdsPlan (getCtx (tRun id) 0) = true ∧ purging (getCtx (tRun id) 0) = false ∧
    hClass (tSyncH false) = 4 ∧ hRpl (tSyncH false) = false ∧ hRpl (tSyncH true) = true ∧ (byteField 0 36 1).testBit 4 = false ∧
    (byteField (BitVec.ofNat 2560 (16 * 2 ^ 288)) 36 1).testBit 4 = true ∧ lnkState (tUp 6 4096 id) 0 = 6 ∧
    (getLink (tUp 6 4096 id) 0).syncAt / 4096 < (tUp 6 4096 id).now / 4096 := by decide +kernel
theorem witness_sync_in_order (f : Bool) : InOrder tIn 0 (tSyncH f) := by
  have a : ∀ f, rxLive tIn 0 = true ∧ unwrap (getLink tIn 0).rxNext (hLseq (tSyncH f)) 4096 = (getLink tIn 0).rxNext ∧
      (getLink tIn 0).rxCum = (getLink tIn 0).rxNext ∧ (getLink tIn 0).rxAcc = [] ∧ (getLink tIn 0).unsure = false ∧ (getLink tIn 0).held = [] := by decide +kernel
  exact a f
/-- Link 3 carries a SYNC bead to a module of a role in a time state: an echo, time-valid, of four equal stamps, or 5 ticks apart. -/
def tRole (role st now : Nat) (f : TimeSt → TimeSt) : State := wr (tTime st now f) rTIM_ROLE fTIM_ROLE_ROLE role
def tEcho (n : Nat) : BitVec 2560 := BitVec.ofNat 2560 (0x12 * 2 ^ 288 + n * 2 ^ 192)
theorem witness_exchanges : rxDecode { h := tSyncH false, pay := tEcho 0, err := 0 } = .ok (tSyncH false) (tEcho 0) 0 ∧ (byteField (tEcho 0) 36 1).testBit 4 = true ∧
    exchange ((byteField (tEcho 5) 0 8 * 2 ^ 32 + byteField (tEcho 5) 8 4 : Nat) : Int) ((5 * 2 ^ 32 + 0 : Nat) : Int)
      ((byteField (tEcho 5) 24 8 * 2 ^ 32 + byteField (tEcho 5) 32 4 : Nat) : Int) ((byteField (tEcho 5) 16 8 * 2 ^ 32 + byteField (tEcho 5) 12 4 : Nat) : Int) =
      (10 * 2 ^ 32, 0) ∧
    syncValid (tRole 2 1 0 id) 3 (tSyncH false) (tEcho 5) 0 = true ∧ syncValid (tRole 2 1 0 id) 3 (tSyncH true) (tEcho 5) 0 = false ∧
    follows (tRole 1 4 0 id) = false ∧ timRole (tRole 2 1 0 id) = 2 ∧ upstream (tRole 2 1 0 id) = 3 ∧ timState (tRole 2 1 0 id) = 1 ∧ planHeld (tRole 2 1 0 id) = false ∧
    2 * 2 ^ 32 < (10 * 2 ^ 32 : Int).natAbs ∧ timState (tRole 2 2 0 fun t => { t with badOff := 3 }) = 2 ∧
    rd (tRole 2 2 0 id) rTIM_LIMIT fTIM_LIMIT_OFF_LIMIT * 2 ^ 27 < (10 * 2 ^ 32 : Int).natAbs ∧
    ((0 : Int).natAbs : Int) ≤ rd (tRole 2 2 0 id) rTIM_LIMIT fTIM_LIMIT_OFF_LIMIT * 2 ^ 27 ∧
    timRole (tRole 3 1 0 id) = 3 ∧ (tRole 3 1 0 id).tim.frac < 2 ^ 32 ∧ (tRole 3 1 0 id).tim.joined = false ∧ 2 ^ 31 < (10 * 2 ^ 32 : Int).natAbs ∧
    planHeld (setCtx (tRole 3 1 0 id) 0 tCtx) = true ∧ rd State.reset rTIM_STATUS fTIM_STATUS_MASTER_EPOCH < byteField (BitVec.ofNat 2560 (2 ^ 544)) 68 4 ∧
    (byteField (tEcho 0) 36 1).testBit 1 = true := by decide +kernel
theorem witness_upstream_bead : InOrder (tRole 2 1 0 id) 3 (tSyncH false) := by unfold InOrder; decide +kernel
/-- The pattern has started at root edge 1; a pulse comes at it, and at another edge. -/
def tPat1 (f : State → State) : State := f { State.reset with tim := { TimeSt.zero with pat0 := some 1 } }
theorem witness_pulses : TimeSt.zero.pat0 = none ∧ (tPat1 id).tim.pat0 = some (rootEdge (tPat1 id) (1 : BitVec 2).toNat) ∧
    (1 : Nat) ≠ rootEdge (tPat1 id) (2 : BitVec 2).toNat ∧ planHeld (tPat1 fun s => setCtx s 0 tCtx) = true ∧
    (95999 : Nat) < 0 + 48000 * (0 + 2) ∧ ({ tPat1 id with lclk := 96000 } : State).tim.pulseAt + 48000 * (0 + 2) ≤ 96000 := by decide +kernel
/-- A time of day that waits for a bead boundary, and an announced rate that is due, in a state whose next LCLK edge is a count edge. -/
def tTod (now : Nat) : State := tTime 1 now fun t => { t with frac := 2 ^ 32 - 1, todSet := some (1, 2, 3), rateAt := now + 1, nextRate := 0xFFF80000 }
theorem witness_tod : (tTod 3).tim.todSet = some (1, 2, 3) ∧ (tTod 3).tim.todLoad = false ∧ (tTod 3).tim.incSet = none ∧
    2 ^ 32 ≤ (tTod 3).tim.frac + rd (tTod 3) rTIM_RATE fTIM_RATE_RATE ∧ (∀ z : ZoneId, (getZone (tTod 3) z).edges = 0) ∧
    (tNext .lclkEdge (tTod 3)).now % 4 = 0 ∧ (tNext .lclkEdge (tTod 4)).now % 4 ≠ 0 ∧ (tTod 3).tim.rateAt = (tNext .lclkEdge (tTod 3)).now := by decide +kernel
theorem witness_servo : let s := tTime 1 65536 fun t => { t with thetas := [4, 4, 4, 4], good := 3 }
    let v := tTime 2 65536 fun t => { t with thetas := [100000000000] }
    let u := tTime 2 16384 id
    let h := tTime 3 1200000 id
    let w := wr (tTime 2 2400000 fun t => { t with lastValid := 1 }) rTIM_ROLE fTIM_ROLE_STANDBY 1
    timRole s = 3 ∧ follows s = true ∧ s.now % 65536 = 0 ∧ s.tim.updAt < s.now ∧ s.tim.thetas ≠ [] ∧ timState s ≠ 2 ∧ s.tim.good = 3 ∧
    (s.tim.thetas.foldl (· + ·) 0).natAbs ≤ 2 ^ 29 * s.tim.thetas.length ∧ timState v = 2 ∧
    rd v rTIM_LIMIT fTIM_LIMIT_OFF_LIMIT * 2 ^ 27 * v.tim.thetas.length < (v.tim.thetas.foldl (· + ·) 0).natAbs ∧
    timRole (tRole 2 1 65536 fun t => { t with thetas := [4] }) = 2 ∧ timState (tRole 2 3 65536 id) = 3 ∧
    timState u = 2 ∧ follows u = true ∧ u.tim.lastValid + 16384 ≤ u.now ∧ timState h = 3 ∧ h.tim.holdSince + 1200000 ≤ h.now ∧
    rd w rTIM_ROLE fTIM_ROLE_STANDBY = 1 ∧ follows w = true ∧ w.tim.seqAt + 2400000 ≤ w.now ∧ lnkState w (upstream w) = 6 ∧ w.tim.seqAt < w.tim.lastValid ∧
    (getLink w 3).syncAt / syncEvery w 3 < w.now / syncEvery w 3 ∧ tget (fun _ => (0, 0)) w.tim.syncIn 5 = (0, 0) ∧ upstream w ≠ 5 := by decide +kernel
theorem test_lclk_edge_counts : (tNext .lclkEdge State.reset).lclk = 1 ∧ (tNext .lclkEdge State.reset).now = 0 := by decide +kernel

/-- Context 0 has an armed parison that launches at tick 4096. -/
def tArmed (now : Nat) (f : Plan → Plan) : State :=
  { setCtx State.reset 0 { tCtx with plan := .armed, ran := false, launchAt := 4096, image := some (f tPlan) } with now := now }
theorem witness_launch : let s := tArmed 4096 id
    let m := tArmed 4096 fun p => { p with multi := true }
    let z := wr (tArmed 4096 id) (rCLK_ZONE_CTL 0) fCLK_ZONE_CTL_STEP 4
    (getCtx s 0).image = some tPlan ∧ (getCtx s 0).plan = .armed ∧ (getCtx s 0).launchAt ≤ s.now ∧ tPlan.multi = false ∧ timState m < 2 ∧
    (getCtx m 0).lateArm = false ∧ purging (getCtx m 0) = false ∧ (tArmed 4095 id).now < (getCtx (tArmed 4095 id) 0).launchAt ∧
    slowZones z (getCtx z 0) = [0] ∧ tPlan.tiles.getLsbD 0 = true ∧ tPlan.tiles.getLsbD 255 = false ∧ tPlan.engines.getLsbD 0 = true ∧
    inZone (getCtx s 0) 0 = true ∧ (getZone s 0).armedAt = none ∧ zoneArmed s 0 = false ∧ zoneArmed (setZone (tRun id) 0 { Zone.zero with armedAt := some 0 }) 0 = true ∧
    (getCtx (setCtx s 0 { getCtx s 0 with lateArm := true }) 0).lateArm = true ∧ holdsPlan (getCtx m 0) = true ∧ holdsPlan (getCtx m 1) = false := by decide +kernel
theorem witness_launch_zone : let s := wr (tArmed 4096 id) (rCLK_ZONE_CTL 0) fCLK_ZONE_CTL_STEP 0
    slowZones s (getCtx s 0) = [] ∧ (getCtx s 0).launchAt ≤ s.now ∧ (getCtx s 0).lateArm = false := by decide +kernel
/-- Context 0 at the end of its step. -/
def tEnd (f : Tile → Tile) : State := { tRun f with now := 4096 }
theorem witness_steps : let s := tEnd id
    runsOn (getCtx s 0) (stepEnd s 0) = true ∧ stepEnd s 0 ≤ s.now ∧ lastStep (getCtx s 0) (stepNum s 0) = false ∧ stepNum s 0 + 1 < 2 ^ 48 ∧
    s.cmds = [] ∧ (getCtx s 0).plan = .running ∧ (getCtx s 0).st = .opened ∧
    lastStep { getCtx s 0 with image := some { tPlan with stepCount := 1 } } 0 = true ∧ (planTiles (getCtx s 0)).getLsbD 0 = true ∧
    0 ∈ leftChans (getTile (tEnd fun x => { x with outbox := [(0, some tBox)] }) 0) ∧ purging (getCtx s 0) = false ∧ tPlan.lens ≠ [] ∧
    (∀ t : TileId, (planTiles (getCtx s 0)).getLsbD t = true → leftChans (getTile s t) = []) ∧ (tRun id).now < stepEnd (tRun id) 0 := by decide +kernel
/-- Context 0 at the end of a step at resume step rs, of a plan of n steps, in a state of the context. -/
def tEndAt (rs n : Nat) (st : CtxSt) : State :=
  setCtx { tEnd id with hang := { HangSt.zero with queue := [0], cur := some 0 } } 0 { tCtx with rs := rs, st := st, image := some { tPlan with stepCount := n } }
theorem witness_step_limits : let w := tEndAt (2 ^ 48 - 1) 0 .opened
    let e := tEndAt 0 1 .replay
    2 ^ 48 ≤ stepNum w 0 + 1 ∧ lastStep (getCtx w 0) (stepNum w 0) = false ∧ stepEnd w 0 ≤ w.now ∧ (getCtx w 0).plan = .running ∧ purging (getCtx w 0) = false ∧
    (getCtx e 0).plan = .running ∧ stepEnd e 0 ≤ e.now ∧ lastStep (getCtx e 0) (stepNum e 0) = true ∧ (getCtx e 0).st = .replay ∧ e.hang.queue ≠ [] ∧
    lastStep (getCtx (tEndAt 0 1 .opened) 0) (stepNum (tEndAt 0 1 .opened) 0) = true := by decide +kernel
theorem witness_nothing_left : leftFaults (tEnd id) 0 = tEnd id := by decide +kernel

/-! ### Twin mode -/

/-- Context 0 is twinned with module 9 over links 0 and 1. -/
def tTw (f : State → State) : State :=
  let c (x : Fld) (v : Nat) (s : State) : State := wr s rDET_TWIN_CTL x v
  f (c fDET_TWIN_CTL_LINKB 1 (c fDET_TWIN_CTL_PARTNER 9 (c fDET_TWIN_CTL_ENABLE 1 (wr (wr (tRun id) (rLNK_STATUS 0) fLNK_STATUS_STATE 6) (rLNK_STATUS 1) fLNK_STATUS_STATE 6))))
def tIt (k : BitVec 2) (sig : W64) : TwinItem := { kind := k, unit := 0, window := 0, step := 0, sig := sig }
def tTwp (is : List TwinItem) (stop : Bool) : TwinPacket := { link := 0, magic := 0x5457, stop := stop, pnum := 5, digest := 0, items := is }
def tTws (f : TwinSt → TwinSt) : State := tTw fun s => { s with twin := f s.twin }

theorem witness_no_twin : twinCtx State.reset = none ∧ twinCtx (tTw id) = some 0 := by decide +kernel
theorem witness_tile_window : let s := tTw fun s => modTile s 0 fun x => { x with wpos := [(4194303, 0, 1023, 10)], cc := 265 }
    let v := modTile s 0 fun x => { x with cc := 266 }
    (getTile s 0).own = some 0 ∧ (getTile s 0).wpos.find? (fun e => decide ((getTile s 0).wclosed ≤ e.1)) = some (4194303, 0, 1023, 10) ∧
    (getTile s 0).cc < 10 + 256 ∧ stepPassed s 0 (4194303 / 2 ^ 22) = false ∧ 10 + 256 ≤ (getTile v 0).cc ∧
    stepPassed { s with now := 4096 + XI } 0 (4194303 / 2 ^ 22) = true ∧ stepPassed { s with now := 4095 + XI } 0 0 = false ∧ s.twin.part = [] ∧ s.twin.own.length < 4096 ∧
    (getCtx s 0).faultTick = none ∧ (getCtx (modCtx s 0 fun x => { x with faultTick := some 99 }) 0).faultTick = some 99 ∧ 99 < s.now ∧
    99 < (getCtx s 0).launchAt + stepOffset tPlan (resumeStep s 0) (4194303 / 2 ^ 22 + 1) + XI := by decide +kernel
theorem witness_tile_window_met : let q : TwWait := { item := { tIt 1 7 with window := 4194303 }, at_ := 0, first := 0, last := 0 }
    let i : TwinItem := { kind := 1, unit := BitVec.ofNat 8 0, window := BitVec.ofNat 22 4194303, step := 0, sig := 8 }
    [q].find? (fun q => sameItem q.item i) = some q ∧ i.sig ≠ q.item.sig ∧ ({ i with sig := 7 }).sig = q.item.sig ∧
    (tTw id).twin.diff = false ∧ purging (getCtx (tTw id) 0) = false := by decide +kernel
theorem witness_link_window : let s := tTw fun s => regSet { s with now := 4092 + 16 } (rFWD_OWN 0 0) 1
    linkWindow s 0 0 = some (4092, true) ∧ 4092 + 16 ≤ s.now ∧ ({ s with now := 4107 }).now < 4092 + 16 ∧ (getCtx s 0).faultTick = none ∧ (4107 : Nat) < 4092 + 16 ∧ tget (fun _ => (0, 0)) s.twin.next 0 = (0, 0) := by decide +kernel
def tWt (at_ : Nat) : TwWait := { item := tIt 1 7, at_ := at_, first := 3, last := 2 ^ 32 - 1 }
theorem witness_packet_send : let s := tTws fun t => { t with queue := [tWt 0] }
    s.twin.queue ≠ [] ∧ s.twin.queue.length < 128 ∧ (∀ w ∈ s.twin.queue, ({ s with now := 255 }).now < w.at_ + 256) ∧
    0 + 256 ≤ ({ s with now := 256 }).now ∧ 128 ≤ (List.replicate 128 (tWt 100)).length ∧
    rd s rDET_TWIN_CTL fDET_TWIN_CTL_LINKA = (0 : LinkId).val ∧ rd s rDET_TWIN_CTL fDET_TWIN_CTL_LINKB = (1 : LinkId).val ∧ (0 : LinkId) ≠ 1 ∧
    openLink s 0 = true ∧ openLink s 1 = true ∧ portOf s 0 < 8 ∧ portOf s 1 < 8 := by decide +kernel
theorem witness_stop_packet : let s := tTw fun s => modCtx s 0 fun x => { x with plan := .faulted }
    s.twin.queue = [] ∧ s.twin.stop = false ∧ (getCtx s 0).plan = .faulted ∧ (getCtx s 0).purge = none ∧ portOf s 0 < 8 ∧ portOf s 1 < 8 ∧ (getCtx (tTw id) 0).plan ≠ .faulted ∧ twinCtx s = some 0 := by decide +kernel
theorem witness_receive : let s := tTws fun t => { t with own := [tWt 0] }
    ({ tTwp [] false with magic := 0x5458 }).magic ≠ 0x5457 ∧ (∃ i ∈ (tTwp [tIt 3 0] false).items, i.kind ≠ 1 ∧ i.kind ≠ 2) ∧
    (∀ i ∈ (tTwp [tIt 1 0, tIt 2 0] false).items, i.kind = 1 ∨ i.kind = 2) ∧ (5 : BitVec 32).toNat ∉ s.twin.seen ∧
    (5 : BitVec 32).toNat ∈ (tTws fun t => { t with seen := [5] }).twin.seen ∧ digest8 (getCtx s 0) = some (tTwp [] false).digest ∧
    (∀ o ∈ s.twin.own, sameItem o.item (tIt 2 7) = false) ∧ s.twin.part.length < 4096 ∧ isRunning (getCtx s 0) = true ∧ purging (getCtx s 0) = false ∧
    rd s rDET_TWIN_DIV fDET_TWIN_DIV_CAUSE = 0 ∧ s.twin.own.find? (fun w => sameItem w.item (tIt 1 7)) = some (tWt 0) ∧ (tWt 0).item.sig = (tIt 1 7).sig ∧
    (tWt 0).item.sig ≠ (tIt 1 8).sig ∧ (getCtx s 0).faultTick = none ∧ rd (wr s rDET_TWIN_DIV fDET_TWIN_DIV_CAUSE 6) rDET_TWIN_DIV fDET_TWIN_DIV_CAUSE ≠ 0 ∧
    (tTws fun t => { t with diff := true }).twin.diff = true ∧ s.twin.diff = false ∧ (tTwp [] true).items = [] ∧ isRunning (getCtx (modCtx s 0 fun x => { x with plan := .faulted }) 0) = false ∧
    digest8 (getCtx s 0) ≠ some ({ tTwp [] false with digest := 1 }).digest := by decide +kernel
theorem witness_full_store : (List.replicate 4096 (tWt 0)).length = 4096 := List.length_replicate
theorem witness_item_timeout : let s := tTws fun t => { t with own := [tWt 0], part := [tWt 1] }
    (∀ w ∈ s.twin.own ++ s.twin.part, 65535 < w.at_ + 65536) ∧ (∃ w ∈ s.twin.own ++ s.twin.part, w.at_ + 65536 ≤ 65536) ∧
    (∃ w ∈ [] ++ (tTws fun t => { t with part := [tWt 0] }).twin.part, w.at_ + 65536 ≤ 65536) ∧ twinCtx s = some 0 := by decide +kernel
theorem test_twins_that_differ_fault : (getCtx (tNext (.twinPacketReceive (tTwp [tIt 1 8] false)) (tTws fun t => { t with own := [tWt 0] })) 0).plan = .faulted := by decide +kernel

/-! ### Faults, reset, hang detection and recovery -/

/-- Context 0 has faulted at tick 92. -/
def tFlt (f : Ctx → Ctx) : State := modCtx (tRun id) 0 fun x => f { x with plan := .faulted, faultTick := some 92 }
theorem witness_fault_stop : (getCtx (tFlt id) 0).faultTick = some 92 ∧ (getCtx (tFlt id) 0).stopped = false ∧ 92 + 8 ≤ (tFlt id).now ∧
    ({ tFlt id with now := 99 }).now < 92 + 8 ∧ (getCtx (tFlt id) 0).st ≠ .replay ∧
    (let s : State := { (tFlt fun x => { x with st := .replay }) with hang := { HangSt.zero with queue := [1], cur := some 0 } };
      (getCtx s 0).st = .replay ∧ s.hang.cur = some 0 ∧ s.hang.queue ≠ [] ∧ s.hang.queue.contains 0 = false) ∧
    (getCtx (tFlt fun x => { x with stopped := true }) 0).stopped = true ∧ (getCtx (tFlt id) 0).plan = .faulted := by decide +kernel
/-- A record waits whole in its channel. -/
def tRec (c : Option CtxId) (code : BitVec 16) : FaultRec := mkRec (tRun id) c true 100 { code := code, engine := 6, unit := 0, offset := 0, d0 := 0, d1 := 0, d2 := 0 }
def tLog (c : Option CtxId) (code : BitVec 16) (f : Ctx → Ctx) : State := { faultPush (modCtx (tRun id) 0 f) (tRec c code) with now := 200 }
theorem witness_record : let s := tLog none 0x4005 id
    firstRec (gather s).gathered = some (recWords (tRec none 0x4005)) ∧ wCtx ((recWords (tRec none 0x4005)).getD 0 0) = none ∧ (gather s).faultHeld = [] ∧
    (recWords (tRec none 0x4005)).length = 8 ∧ wCode ((recWords (tRec none 0x4005)).getD 0 0) ≠ 0x4001 ∧ wCode ((recWords (tRec none 0x4001)).getD 0 0) = 0x4001 ∧
    (∃ k : Nat, k < 17 ∧ headRecord s (4 + k) = some (recWords (tRec none 0x4005))) ∧ (∀ k : Fin 17, headRecord State.reset (4 + k) = none) :=
  ⟨by decide +kernel, by decide +kernel, by decide +kernel, by decide +kernel, by decide +kernel, by decide +kernel, ⟨faultChan 6 0 - 4, by decide +kernel⟩, by decide +kernel⟩
theorem witness_stop_record : let v := tLog (some 0) 0x2003 id
    let r := recWords (tRec (some 0) 0x2003)
    firstRec (gather v).gathered = some r ∧ wCtx (r.getD 0 0) = some 0 ∧ (gather v).faultHeld = [] ∧ r.length = 8 ∧
    inStop (getCtx (gather v) 0) (r.getD 0 0) = true ∧ (getCtx (gather v) 0).codes = [] ∧
    inStop { getCtx (gather v) 0 with gen := 1 } (r.getD 0 0) = false ∧
    (List.replicate 8 (0 : BitVec 16)).length = 8 ∧ BitVec.ofNat 16 (wCode (r.getD 0 0)) ∈ [(0x2003 : BitVec 16)] ∧
    BitVec.ofNat 16 (wCode (r.getD 0 0)) ∉ [(0x2004 : BitVec 16)] := by decide +kernel
/-- A record its unit holds, over a free channel and over a full one. -/
def tHeldRec (s : State) : State := { s with faultHeld := [{ chan := faultChan 6 0, item := tRec none 0x4005 }] }
theorem witness_record_held : let s := tHeldRec (tRun id)
    let v := tHeldRec ((List.replicate 16 (tRec none 0x4005)).foldl faultPush (tRun id))
    (∃ h, s.faultHeld = [h] ∧ v.faultHeld = [h]) ∧ caneFree (faultChan 6 0) v.now (getCane v (faultChan 6 0)) < 8 ∧ v.gathered = [] ∧ 8 ≤ caneFree (faultChan 6 0) s.now (getCane s (faultChan 6 0)) ∧ s.gathered = [] :=
  ⟨⟨_, rfl, rfl⟩, by decide +kernel, by decide +kernel, by decide +kernel, by decide +kernel⟩
theorem witness_spill : let s := wr (wr State.reset rSEC_BOOT fSEC_BOOT_MODE 0) rGAF_FLOG_CTL fGAF_FLOG_CTL_WR 256
    gafferDown s = false ∧ s.spill < 2 ^ 32 ∧ rd s rGAF_FLOG_CTL fGAF_FLOG_CTL_WR ≠ s.spill ∧
    (rd s rGAF_FLOG_CTL fGAF_FLOG_CTL_WR + 2 ^ 32 - s.spill) % 2 ^ 32 ≤ 256 ∧ (2 ^ 16 - 1 : Nat) < 2 ^ 16 ∧ (15 : Nat) < 16 := by decide +kernel

/-- The module serves, and packet p of window C0 has been taken. -/
def tServe (s : State) : State := wr s rSEC_BOOT fSEC_BOOT_MODE 0
def tHeldC (p : Packet) : HeldCmd := { src := .pf 0, who := 0, pkt := p, taken := 0, free := true, started := false, info := 0 }
def tTurn (p : Packet) (s : State) : State := { tServe s with cmds := [tHeldC p] }
theorem witness_reset_turn (k : Fin 2) (r : Bool) : let p := tPkt (0x11 + BitVec.ofNat 16 k) []
    let s := tTurn p (modCtx (tRun id) 0 fun x => { x with st := if r then .replay else .opened })
    CmdTurn s (.pf 0) p (tHeldC p) ∧ pcode p = 0x11 + k := by
  have a : ∀ (k : Fin 2) (r : Bool), let p := tPkt (0x11 + BitVec.ofNat 16 k) []
      let s := tTurn p (modCtx (tRun id) 0 fun x => { x with st := if r then .replay else .opened })
      (served s (.pf 0) = true ∧ s.cmds.find? (isCmd (.pf 0) p) = some (tHeldC p) ∧ (tHeldC p).started = false ∧ mayStart s (cmdsBefore s (.pf 0) p) (tHeldC p) = true ∧
      (ctxOps.contains (pcode p) = true → (getCtx s (pctx p)).st ≠ .closed)) ∧ pcode p = 0x11 + k := by decide +kernel
  exact a k r
theorem witness_resetting_turn (k : Fin 2) : let p := tPkt (0x11 + BitVec.ofNat 16 k) []
    CmdTurn (tTurn p (modCtx (tRun id) 0 fun x => { x with st := .resetting })) (.pf 0) p (tHeldC p) := by
  have a : ∀ k : Fin 2, let p := tPkt (0x11 + BitVec.ofNat 16 k) []
      let s := tTurn p (modCtx (tRun id) 0 fun x => { x with st := .resetting })
      served s (.pf 0) = true ∧ s.cmds.find? (isCmd (.pf 0) p) = some (tHeldC p) ∧ (tHeldC p).started = false ∧ mayStart s (cmdsBefore s (.pf 0) p) (tHeldC p) = true ∧
      (ctxOps.contains (pcode p) = true → (getCtx s (pctx p)).st ≠ .closed) := by decide +kernel
  exact a k
/-- A purge of context 0 began at tick 0. -/
def tPurge (pend : BitVec 8) (now : Nat) (f : Ctx → Ctx) : State :=
  { tServe (modCtx (tRun id) 0 fun x => f { x with st := .resetting, purge := some { began := 0, pending := pend } }) with now := now }
theorem witness_purge : (getCtx (tPurge 255 119999 id) 0).purge = some { began := 0, pending := 255 } ∧ (∀ e : PurgeEngine, (255 : BitVec 8).getLsbD e = true ∧ (255 : BitVec 8) &&& ~~~ (1#8 <<< e.val) ≠ 0) ∧
    (tPurge 255 119999 id).now < 0 + 120000 ∧ (tCtx.tiles.getLsbD 0 = true ∧ tCtx.tiles.getLsbD 1 = false ∧ tCtx.engines.getLsbD 0 = true) ∧
    (128 : BitVec 8) = 1#8 <<< (7 : PurgeEngine).val ∧ genFree (getCtx (tPurge 128 119999 id) 0) (tPurge 128 119999 id).now = true ∧
    twinOn (tTw fun s => modCtx s 0 fun x => { x with purge := some { began := 0, pending := 255 } }) 0 = true ∧
    genFree (getCtx (tPurge 0 1199999 fun x => { x with genLeft := [(1, some 0)] }) 0) 1199999 = false ∧
    genFree (getCtx (tPurge 0 1200000 fun x => { x with genLeft := [(1, some 0)] }) 0) 1200000 = true ∧
    0 + 120000 ≤ (tPurge 1 120000 id).now ∧ (tPurge 1 120000 id).recPhase = 0 ∧ dead (tPurge 1 120000 id) = false ∧ (tPurge 1 120000 id).pwr.quenched = false ∧
    (getCtx (tPurge 0 0 fun x => { x with wiping := true }) 0).wiping = true ∧ rgnOf (tGth 1 id) 0 0 = some (0, 2 ^ 21) := by decide +kernel

/-- HANG_CTL.ENABLE, at a sample. -/
def tHang (f : HangSt → HangSt) : State := { wr (tServe State.reset) rGAF_HANG_CTL fGAF_HANG_CTL_ENABLE 1 with now := 8192, hang := f HangSt.zero }
theorem witness_sample : rd (wr State.reset rGAF_HANG_CTL fGAF_HANG_CTL_ENABLE 0) rGAF_HANG_CTL fGAF_HANG_CTL_ENABLE = 0 ∧ gafferDown (tHang id) = false ∧ rd (tHang id) rGAF_HANG_CTL fGAF_HANG_CTL_ENABLE = 1 ∧
    (tHang id).now % 4096 = 0 ∧ (tHang id).hang.at_ ≠ (tHang id).now + 1 ∧ (4097 : Nat) + 4096 = (tHang id).now + 1 ∧ (tHang id).hang.cur = none ∧
    ({ tHang id with now := 8191 }).now % 4096 ≠ 0 := by decide +kernel
theorem witness_no_cycle : cyclesOf (stuck (tHang id) (waiting (tHang id))) = [] := by decide +kernel
/-- Tiles 0 and 1 each wait on a counter that the other's channel moves; the closed path has stood for k samples. -/
def tLoop (k : Nat) : State :=
  let ch (d : Nat) : Chan := { dkind := 1, dest := d, base := 0, ring := 0, ctr := 5, burst := 0, count := 1, first := 0, period := 1 }
  let t : Tile := { Tile.zero with own := some 0, st := .waiting, issued := 9, stall := some { cond := .local 5 1, since := 0, bound := none } }
  let s := setCtx (setTile (setTile (tHang id) 0 t) 1 t) 0 { tCtx with image := some { tPlan with tiles := 3, chans := [(0, [ch 1]), (1, [ch 0])] } }
  { s with hang := { s.hang with at_ := 4097, cycles := [([(0, 0), (0, 1)], k)], marks := [(0, 0, 9), (0, 1, 9)] } }
theorem witness_cycle : cyclesOf (stuck (tLoop 3) (waiting (tLoop 3))) = [[(0, 0), (0, 1)]] := by decide +kernel
theorem witness_suspect : (0 : CtxId) ∈ suspects (tLoop 3) [(0, 0), (0, 1)] ∧ (1 : CtxId) ∉ suspects (tLoop 3) [(0, 0), (0, 1)] ∧ (getCtx (tLoop 3) 0).st = .opened ∧
    (getCtx (tLoop 3) 0).image.isSome = true ∧ mayReplay (wr (tLoop 3) rGAF_HANG_CTL fGAF_HANG_CTL_REPLAY 1) 0 = true ∧
    suspects (modCtx (tLoop 3) 0 fun x => { x with st := .resetting }) [(0, 0), (0, 1)] = [] ∧ (tLoop 3).hang.cycles = [([(0, 0), (0, 1)], 3)] ∧ (tLoop 3).hang.at_ + 4096 = (tLoop 3).now + 1 := by decide +kernel
def tRcv (n : Nat) (now : Nat) : State := { tServe State.reset with recPhase := n, now := now }
def tRes (pg : BitVec 32) (bad : BitVec 128) : PhaseResult := { ms := 0, powerGood := pg, tilesBad := 0, xing := [], chanBad := bad, chanFull := 1, width := 0, speed := 0, flit := false }
theorem witness_recovery : watched (tRcv 0 0) = true ∧ dead (tRcv 0 0) = false ∧ (1 ≤ (1 : BitVec 4).toNat ∧ (4 : BitVec 4).toNat ≤ 4) ∧ watched (tRcv 2 0) = true ∧
    (∀ n ∈ [1, 2, 3, 4, 5, 6, 7], recLate (tRcv n (recLimit n + 1)) = true ∧ recLate (tRcv n (recLimit n)) = false ∧ recBroken (tRcv n 0) (tRes (2 ^ 32 - 1) 0) = false) ∧
    recLate (tRcv 8 9600000001) = true ∧ recLate (tRcv 8 9600000000) = false ∧ recBroken (tRcv 3 0) (tRes 0 0) = true ∧ recBroken (tRcv 5 0) (tRes 0 1) = true ∧
    recBroken (tRcv 8 0) (tRes 0 0) = false := by decide +kernel
theorem test_purge_advances_generation : (getCtx (tNext (.purgeAck 0 7) (tPurge 128 1000 id)) 0).gen = 1 := by decide +kernel

/-! ### The host interface -/

/-- Any packet of C0 whose context is open, or that acts on no open context, has its turn once the module serves. -/
theorem witness_turn (p : Packet) (s : State) (h : ctxOps.contains (pcode p) = true → (getCtx s (pctx p)).st ≠ .closed)
    (v : s.pwr.quenched = false ∧ dead (tServe s) = false ∧ s.recPhase = 0) : CmdTurn (tTurn p s) (.pf 0) p (tHeldC p) := by
  have m : bootMode (tServe s) = 0 := by rw [bootMode, tServe, rd_wr_same _ _ _ (by unfold Fld.ok; decide)]; exact Nat.zero_mod _
  refine ⟨?_, by simp [tTurn, tHeldC, isCmd], rfl, ?_, h⟩
  · show served (tServe s) (.pf 0) = true
    simp [served, gafferDown, m, v.2.1, show (tServe s).pwr.quenched = false from v.1, show (tServe s).recPhase = 0 from v.2.2]
  · simp [mayStart, copyMay, cmdsBefore, tTurn, tHeldC, isCmd]
/-- CmdTurn as a decision. -/
def CmdTurnB (s : State) (src : Src) (p : Packet) (h : HeldCmd) : Bool :=
  served s src && decide (s.cmds.find? (isCmd src p) = some h) && !h.started && mayStart s (cmdsBefore s src p) h &&
    (!ctxOps.contains (pcode p) || decide ((getCtx s (pctx p)).st ≠ .closed))
theorem cmdTurn_of (s : State) (src : Src) (p : Packet) (h : HeldCmd) (e : CmdTurnB s src p h = true) : CmdTurn s src p h := by
  simp only [CmdTurnB, Bool.and_eq_true, Bool.not_eq_true', decide_eq_true_eq, Bool.or_eq_true] at e
  exact ⟨e.1.1.1.1, e.1.1.1.2, e.1.1.2, e.1.2, fun g => e.2.resolve_left (by rw [g]; decide)⟩
/-- Window C0 with words of unit 0. -/
def tWin (ws : List (Nat × W64)) : State := { tServe State.reset with winMem := ws }
/-- A NOP of one unit in sequence 1. -/
def tNopW : List (Nat × W64) := [(0, (BitVec.ofNat 64 (1 * 2 ^ 48 + 1))), (3, BitVec.ofNat 64 (2 ^ 32))]
theorem witness_windows_of_host : winValid (tWin []) 0 = false ∧ winTake (tWin []) 0 = 0 ∧ (64 : BitVec 20).toNat / 64 = 1 ∧ (24 : BitVec 20).toNat / 8 % 8 = 3 ∧
    fget ⟨63, 32⟩ (BitVec.ofNat 64 (2 ^ 32)) = winExpect (tWin []) 0 ∧ fget ⟨63, 32⟩ (BitVec.ofNat 64 (2 ^ 33)) ≠ winExpect (tWin []) 0 ∧
    fget ⟨63, 32⟩ (BitVec.ofNat 64 (2 ^ 33)) ≠ 0 := by decide +kernel
theorem witness_packet_take : let s := tWin tNopW
    let v := { s with cmds := List.replicate 64 (tHeldC (tPkt 1 [])) }
    winValid s 0 = true ∧ (64 / 64 + 16384 - winTake s 0) % 16384 = winUnits s 0 ∧ (0 / 64 + 16384 - winTake s 0) % 16384 < winUnits s 0 ∧ served s (winSrc s 0) = true ∧
    tget (fun _ => false) s.ideBad 15 = false ∧ (s.cmds.filter fun k => winOf k.src = 0).length < 64 ∧ takeCheck s (winSrc s 0) (winPacket s 0) = none ∧
    64 ≤ (v.cmds.filter fun k => winOf k.src = 0).length ∧ (winPacket s 0).opcode = 1 := by decide +kernel
/-- Every command of the windows has a packet that spells it; one of LENGTH 0 fails its checks, and a NOP passes them. -/
theorem witness_host_commands : (∀ e ∈ hostCmds, ∃ p, pcode p = e.2.1 ∧ e.2.2 p = true ∧ takeCheck (tServe State.reset) (.pf 0) { p with length := 0 } = some stBadParam) ∧
    served (tServe State.reset) (.pf 0) = true ∧ served State.reset (.pf 0) = false ∧ takeCheck (tServe State.reset) (.pf 0) (tPkt 1 []) = none := by
  refine ⟨?_, by decide +kernel, by decide +kernel, by decide +kernel⟩
  have a : ∀ e ∈ hostCmds, ∃ k ∈ List.range 8, let p := tPkt (BitVec.ofNat 16 e.2.1) [BitVec.ofNat 64 (k * 2 ^ 8 + (if e.2.1 = 0x22 then k * 2 ^ 63 else 0))]
      pcode p = e.2.1 ∧ e.2.2 p = true ∧ takeCheck (tServe State.reset) (.pf 0) { p with length := 0 } = some stBadParam := by decide +kernel
  intro e he
  obtain ⟨k, -, h⟩ := a e he
  exact ⟨_, h⟩
theorem witness_take_checks : let s := tServe State.reset
    let arm : Packet := { tPkt 0x21 [0] with gen := 1 }
    takeCheck s (.vf 0) (tPkt 0x50 []) = some stDenied ∧ bootMode s = 0 ∧ (getCtx s 0).vfOwn = false ∧ ctxBusy (getCtx s 0) = false ∧ arm.gen ≠ (getCtx s 0).gen ∧
    ctxBusy (getCtx (modCtx s 0 fun x => { x with st := .resetting }) 0) = true ∧ arm.length.toNat = 1 ∧ arm.context.toNat = (0 : CtxId).val := by decide +kernel
theorem witness_order : let n := tHeldC (tPkt 1 [])
    isReset n = false ∧ isCopy n = false ∧ isCopy (tHeldC (tPkt 0x30 [])) = true ∧ isReset (tHeldC (tPkt 0x12 [])) = true ∧
    ({ tPkt 1 [] with flags := 0x4000 }).flags.getLsbD 14 = true ∧ pcode (tPkt 0x40 []) = 0x40 ∧ mayStart State.reset [n] n = false := by decide
theorem witness_copy_order : let a := tHeldC { tPkt 0x32 [0, 0, 64, 0] with tag := 1 }
    let b := { tHeldC { tPkt 0x32 [0, BitVec.ofNat 64 32, 64, 0] with tag := 2 } with started := true }
    isCopy a = true ∧ isCopy b = true ∧ a.started = false ∧ (copyClash State.reset a b = true ∨ copyClash State.reset a a = true) ∧
    8 ≤ (((List.replicate 8 b).filter fun k => winOf k.src = winOf a.src).filter isCopy).length ∧
    copyMay State.reset [{ tHeldC { tPkt 0x32 [0, BitVec.ofNat 64 4096, 64, 0] with tag := 2 } with started := true }] a = true := by decide +kernel
theorem witness_reply : let p : Packet := { tPkt 1 [0, 16] with reply := 32, flags := 0x83FF }
    (tHeldC p).src ≠ .sideband ∧ p.reply.toNat / 32 ≠ 0 ∧ p.flags.getLsbD 15 = true ∧ pf p 1 31 0 < (List.replicate 17 0).length := by decide
theorem witness_fence : let p := tPkt 0x40 [BitVec.ofNat 64 (2 ^ 63)]
    let s := tServe (tRun id)
    let v := { s with cmds := [{ tHeldC (tPkt 0x30 []) with started := true }, tHeldC p] }
    pcode p = 0x40 ∧ pf p 0 47 0 ≤ stepNum s (pctx p) ∧ pf (tPkt 0x40 [0]) 0 63 63 = 0 ∧ cmdsBefore (tTurn p s) (.pf 0) p = [] ∧
    CmdTurnB v (.pf 0) p (tHeldC p) = true ∧ (∃ k ∈ cmdsBefore v (.pf 0) p, winOf k.src = winOf (.pf 0) ∧ pcode k.pkt ≠ 0x40) := by decide +kernel
theorem test_packet_becomes_valid : winValid (tNext (.windowWrite (.pf 0) 24 true (BitVec.ofNat 64 (2 ^ 32))) (tWin [(0, BitVec.ofNat 64 (1 * 2 ^ 48 + 1))])) 0 = true := by decide +kernel
theorem witness_take_check_rows : let s := tServe State.reset
    layout (pcode (tPkt 0x99 [])) = none ∧ bootMode (wr s rSEC_BOOT fSEC_BOOT_MODE 3) = 3 ∧ layout (pcode (tPkt 0x20 [])) ≠ none ∧ pcode (tPkt 0x20 []) ∉ romOps ∧
    allowed s (.pf 0) (tPkt 0x20 []) = true ∧ pcode (tPkt 0x20 []) ∉ [0x11, 0x12, 0x23, 0x80] ∧ pcode (tPkt 0x20 []) ∈ genOps ∧ (tPkt 0x20 []).gen = (getCtx s 0).gen ∧
    fieldsOk (.pf 0) { tPkt 1 [] with length := 2 } = false ∧ fieldsOk (.pf 0) (tPkt 1 []) = true ∧ timeRange (tPkt 1 []) = false ∧
    fieldsOk (.pf 0) (tPkt 0x50 [0, BitVec.ofNat 64 (10 ^ 9 * 2 ^ 32)]) = true ∧ timeRange (tPkt 0x50 [0, BitVec.ofNat 64 (10 ^ 9 * 2 ^ 32)]) = true ∧
    (getCtx (modCtx s 0 fun x => { x with vfOwn := true }) 0).vfOwn = true := by decide +kernel

/-! ### Contexts, plans and copies -/

/-- The smallest image, as offset, bytes and value: class LC1, one replayable step of 4,096 ticks, a buffer map of tile 0 and a
refresh reservation. -/
def tImg : List (Nat × Nat × Nat) :=
  [(0, 8, leBytes [0x54, 0x48, 0x45, 0x4F, 0x50, 0x49, 0x4D, 0x47]), (8, 2, 1), (12, 1, 1), (13, 1, 3), (24, 1, 1), (32, 8, 4096 + 2 ^ 63), (160, 4, 8 + 4), (452, 4, 2),
   (512, 2, 9), (514, 2, 0xFFFF), (520, 8, 576), (528, 8, 16), (544, 2, 7), (546, 2, 0xFFFF), (552, 8, 640), (560, 8, 128), (576, 8, 4 * 2 ^ 60)]
def tLoadP : Packet := tPkt 0x20 (768 :: List.replicate 20 0)
/-- A module that can serve plans. Context 0, in REPLAY, holds tile 0; a PLAN_LOAD of the 768 bytes in its staging area has been taken. -/
def tMod : State :=
  let s := setCtx (tTurn tLoadP State.reset) 0 { Ctx.zero with st := .replay, tiles := 1, loadPay := tLoadP.payload }
  let m := { s with tileMap := (List.range 256).map fun t => (t, some (t / 16 * 17 + t % 16)), hang := { HangSt.zero with cur := some 0 } }
  (List.range 16).foldl (fun s z => wr s (rCLK_XING z) fCLK_XING_STEP_OK 31) m
def tImgS : State := tImg.foldl (fun s e => memWrite s (stagingAddr 0 + e.1) e.2.1 e.2.2) tMod
def tLoadS : State := memWrite tImgS (stagingAddr 0 + 256) 64 (leBytes (sha512 (ldOf tImgS 0 tLoadP.payload).digestBytes))
theorem witness_image_loads : (ldOf tLoadS 0 tLoadP.payload).refused = none := by decide +kernel
theorem witness_load_turn : CmdTurn tLoadS (.pf 0) tLoadP (tHeldC tLoadP) ∧ pcode tLoadP = 0x20 ∧ (getCtx tLoadS (pctx tLoadP)).plan = .none :=
  ⟨cmdTurn_of _ _ _ _ (by decide +kernel), by decide, by decide +kernel⟩
theorem witness_load_refused : (ldOf (tTurn tLoadP (tRun id)) 0 tLoadP.payload).refused = some (headErr 1 0) := by decide +kernel
theorem reload_of (s : State) (c : CtxId) (rs : Nat) (p : List W64) (h : (ldOf s c p).refused = none) (e : (getCtx s c).loadPay = p) : (reload s c rs).2 = true := by
  subst e
  simp [reload, h]
theorem hang_again (s : State) (x h : HangSt) (e : s.hang = h) : ({ { s with hang := x } with hang := h } : State) = s := by
  subst e
  rfl
/-- The same image loads again when context 0 is the suspect the detector replays. -/
theorem witness_replay (s : State) (e : s = { tLoadS with hang := { HangSt.zero with queue := [0] } }) : gafferDown s = false ∧ s.hang.cur = none ∧ s.hang.queue = [0] ∧ (getCtx s 0).st = .replay ∧
    allCtx.find? (fun d : CtxId => s.hang.queue.contains d) = some 0 ∧
    (reload { s with hang := { s.hang with queue := s.hang.queue.erase 0, cur := some 0 } } 0 (tget (fun _ => 0) s.hang.steps 0)).2 = true := by
  have g : gafferDown { tLoadS with hang := { HangSt.zero with queue := [0] } } = false := by decide +kernel
  have k : (getCtx { tLoadS with hang := { HangSt.zero with queue := [0] } } 0).st = .replay := by decide +kernel
  have h : tLoadS.hang = { HangSt.zero with cur := some 0 } := by decide +kernel
  have p : (getCtx tLoadS 0).loadPay = tLoadP.payload := by decide +kernel
  have r : ∀ n, (reload tLoadS 0 n).2 = true := fun n => reload_of tLoadS 0 n _ witness_image_loads p
  have q : ∀ v : HangSt, v = { HangSt.zero with cur := some 0 } → ({ { tLoadS with hang := { HangSt.zero with queue := [0] } } with hang := v } : State) = tLoadS := by
    rintro _ rfl
    exact hang_again _ _ _ h
  subst e
  refine ⟨g, rfl, rfl, k, by decide, ?_⟩
  rw [q _ (by decide)]
  exact r _

/-- A packet of C0 for a context in a state. -/
def tCmd (code : BitVec 16) (ws : List W64) (f : State → State) : State := tTurn (tPkt code ws) (f (tRun id))
def tOpenP : Packet := tPkt 0x10 ([BitVec.ofNat 64 (7 * 2 ^ 48 + 16), 2, 0, 0, 0, 2 ^ 63] ++ [BitVec.ofNat 64 (2 ^ 63 + 2 ^ 32)] ++ List.replicate 7 0 ++ List.replicate 24 (0x7FFF : W64))
theorem witness_open : let s := wr (tTurn tOpenP (setCtx State.reset 3 { Ctx.zero with st := .opened, ctrLen := 16 })) rGAF_LOCATION fGAF_LOCATION_GID_VALID 1
    let v := setCtx s 3 { Ctx.zero with st := .opened, engines := 2 }
    CmdTurnB s (.pf 0) tOpenP (tHeldC tOpenP) = true ∧ pcode tOpenP = 0x10 ∧ (∀ l : LinkId, fluxMask s l (pw tOpenP (14 + l)) = false) ∧ (getCtx s (pctx tOpenP)).st = .closed ∧
    rd s rGAF_LOCATION fGAF_LOCATION_GID_VALID = 1 ∧ s.boot.lcAt = none ∧ openClash s tOpenP = false ∧ freeCounters s (pf tOpenP 0 12 0) = some 16 ∧
    openRegion tOpenP 0 = some (0, 1) ∧ openClash v tOpenP = true ∧ freeCounters (setCtx s 3 { Ctx.zero with st := .opened, ctrLen := 4081 }) 16 = none ∧ rd State.reset rGAF_LOCATION fGAF_LOCATION_GID_VALID = 0 ∧ fluxMask s 0 0x8000 = true ∧ (getCtx s 3).st ≠ .closed ∧ (getCtx s 3).ctrLen ≠ 0 := by decide +kernel
def tArmP (n : Nat) : Packet := tPkt 0x21 [BitVec.ofNat 64 n]
theorem witness_arm : let s := tTurn (tArmP 240384) (modCtx (tLnk 1 0 id) 0 fun x => { x with plan := .parison })
    let i := tBeads 1
    (getCtx s 0).image = some i ∧ (getCtx s 0).plan = .parison ∧ CmdTurnB s (.pf 0) (tArmP 240384) (tHeldC (tArmP 240384)) = true ∧ s.now + 240000 ≤ 240384 ∧
    (pw (tArmP 240384) 0).toNat % 256 = 0 ∧ (pw (tArmP 239999) 0).toNat < s.now + 240000 ∧ s.now + 12000000000 < (pw (tArmP 12000000001) 0).toNat ∧
    (pw (tArmP 240000) 0).toNat % 256 ≠ 0 ∧ i.beads ≠ [] ∧ armTime s i = true ∧ armTime (wr s rTIM_STATUS fTIM_STATUS_STATE 1) i = false ∧
    armResume i (resumeStep s 0) = true ∧ armResume { i with lens := [(4096, false)] } 1 = false ∧ (getCtx (tRun id) 0).plan ≠ .parison := by decide +kernel
def tAbP (now_ : Bool) : Packet := tPkt 0x22 [if now_ then BitVec.ofNat 64 (2 ^ 63) else 0]
theorem witness_abort : let s := tTurn (tAbP false) (modCtx (tRun id) 0 fun x => { x with plan := .armed, launchAt := 1200 })
    let r := tTurn (tAbP false) (tRun id)
    (getCtx s 0).plan = .armed ∧ (tHeldC (tAbP false)).taken + 1200 ≤ (getCtx s 0).launchAt ∧ pf (tAbP false) 0 63 63 = 0 ∧ pf (tAbP true) 0 63 63 = 1 ∧
    CmdTurnB s (.pf 0) (tAbP false) (tHeldC (tAbP false)) = true ∧ (getCtx r 0).plan = .running ∧ abortEnd r 0 tPlan 0 = some 4096 ∧
    (tHeldC (tAbP false)).taken + 1200 ≤ 4096 ∧ (getCtx r 0).endStep = none ∧ 4096 < ({ tHeldC (tAbP false) with taken := 2897 }).taken + 1200 ∧
    (getCtx (modCtx r 0 fun x => { x with plan := .armed, launchAt := 1199 }) 0).launchAt < (tHeldC (tAbP true)).taken + 1200 ∧ abortEnd (modCtx r 0 fun x => { x with rs := 1 }) 0 tPlan 0 = none ∧
    (getCtx r 0).faultTick = none ∧ pcode (tAbP true) = 0x22 := by decide +kernel
theorem witness_copies : let s := wr (tRun id) (rMEM_CTX_RGN 0 0) fMEM_CTX_RGN_VALID 1
    let p := tPkt 0x30 [0, BitVec.ofNat 64 (2 ^ 21 - 8), 8]
    let q := tPkt 0x30 [0, BitVec.ofNat 64 (2 ^ 63 + 2 ^ 32 - 8), 8]
    pcode p = 0x30 ∧ pf p 1 63 63 = 0 ∧ inBounds s 0 (pf p 1 40 0) (pf p 2 40 0) = true ∧ inBounds s 0 (2 ^ 21) 8 = false ∧ pf q 1 63 63 = 1 ∧
    pf q 1 40 0 + pf q 2 40 0 ≤ 2 ^ 32 ∧ (getCtx (modCtx s 0 fun x => { x with plan := .complete }) 0).plan = .complete ∧ (getCtx s 0).plan ≠ .none ∧
    (s.flaw = [] ∧ s.poison = [] ∧ s.rowErr = []) ∧ (pf (tPkt 0x33 [0x101]) 0 7 0).testBit 0 = true ∧ (rgnOf s 0 0).isSome = true ∧ rgnOf s 0 7 = none ∧
    pf (tPkt 0x33 [0x101]) 0 8 8 = 1 := by decide +kernel
/-- A copy command of C0 that has started: its one piece, from offset off on, waits for its last access. -/
def tPiece (p : Packet) (a : Nat) (n : List Need) (info : Nat) (f : State → State) : State :=
  { f (tRun id) with cmds := [{ tHeldC p with started := true, info := info }], hostAcc := [{ who := .piece (.pf 0) p 0, addr := a, len := 8, at_ := 100, needs := n }] }
theorem witness_pieces : let p := tPkt 0x32 [0, 5760, 8]
    let s := tPiece p 5760 [.period 3] 0 id
    let b := sramAddr 0 0
    let v := tPiece (tPkt 0x32 [0, BitVec.ofNat 64 b, 8]) b [.sram 0 true] 0 id
    s.inb = [] ∧ s.respW = [] ∧ (s.hostAcc.map (·.needs) = [[.period 3]] ∧ chanFree s 3 = true) ∧
    (v.hostAcc.map (·.needs) = [[.sram 0 true]] ∧ (0 : Nat) / 2 ^ 19 = (0 : TileId).val ∧ zoneStopped v (zoneOf 0) = false ∧ zoneDeep v (zoneOf 0) = false ∧ sramFree v 0 (0 % 2 ^ 19) true = true) ∧
    s.cmds.find? (isCmd (.pf 0) p) = some { tHeldC p with started := true } ∧ (tHeldC p).info = 0 ∧ pcode p = 0x32 ∧ 0 + 8 ≤ pf p 2 40 0 ∧
    (tPiece p 5760 [.period 3] 1 id).cmds.any (fun h => h.info ≠ 0) = true ∧ accessesOf 5760 8 true = [.period 3] ∧ accessesOf b 8 true = [.sram 0 true] ∧
    (scanLines { s with poison := [(90, 1)] } 5760 1 5760).1 = some 0 := by decide +kernel
theorem test_fill_clears : let p := tPkt 0x32 [0, 5760, 8]
    memByte (tNext (.openLpddrAccess 3) (tPiece p 5760 [.period 3] 0 fun s => memWrite s 5760 8 0xFF)) 5760 = 0 := by decide +kernel

/-! ### Tables, time and links -/

/-- Routing version 1 is retired; version 0 is active. -/
def tTab (p : Packet) : State := tTurn p { tRun id with retired := [(1, true)] }
theorem witness_tables : let p := tPkt 0x60 [BitVec.ofNat 64 (1 * 2 ^ 60 + 2 ^ 56 + 2 ^ 20 - 1), 1, 64]
    let q := tPkt 0x60 [BitVec.ofNat 64 (3 * 2 ^ 60 + 65535), 1, 64]
    let s := tTab p
    pf p 0 63 60 = 1 ∧ pf p 0 56 56 ≠ activeV s ∧ retiredV s (pf p 0 56 56) = true ∧ pf (tPkt 0x60 [BitVec.ofNat 64 (2 * 2 ^ 60 + 2 ^ 56)]) 0 63 60 = 2 ∧
    pf q 0 63 60 = 3 ∧ (getCtx s 0).st ≠ .closed ∧ (getCtx (modCtx s 0 fun x => { x with plan := .none }) 0).plan ≠ .armed ∧ (getCtx s 0).plan = .running ∧
    retiredV { tRun id with retired := [] } 1 = false ∧ pf (tPkt 0x61 [0, 0]) 0 0 0 = activeV s ∧ pf (tPkt 0x61 [1, BitVec.ofNat 64 (tableAddr 0)]) 0 0 0 ≠ activeV s ∧
    pf (tPkt 0x61 [1, BitVec.ofNat 64 (tableAddr 0)]) 1 40 0 ≠ 0 ∧ retiredV { tRun id with retired := [] } (1 - activeV (tRun id)) = false ∧
    (∀ k, k < 9 → epochCount (tRun id) (decide (1 - activeV (tRun id) = 1)) k = 0) ∧ 1199999 < (regGet (tRun id) rOPN_FLIP).toNat + 1200000 ∧
    (regGet (tRun id) rOPN_FLIP).toNat + 1200000 ≤ 1200000 ∧ (∃ k, k < 9 ∧ epochCount { tRun id with inb := [tInb []] } false k ≠ 0) := by
  refine ⟨by decide, by decide +kernel, by decide +kernel, by decide, by decide, by decide +kernel, by decide +kernel, by decide +kernel, by decide +kernel, by decide +kernel,
    by decide +kernel, by decide, by decide +kernel, by decide +kernel, by decide +kernel, by decide +kernel, ⟨8, by decide, by decide +kernel⟩⟩
theorem witness_time_commands : timRole State.reset < 2 ∧ 2 ≤ timRole (tTime 2 0 id) ∧ pf (tPkt 0x51 [0, 5, 3]) 2 1 1 = 1 ∧ pf (tPkt 0x51 [0, 5, 3]) 2 0 0 = 1 ∧
    todTotal State.reset + (pw (tPkt 0x51 [0, BitVec.ofInt 64 (-1), 2]) 1).toInt * 2 ^ 32 < 0 ∧ 0 ≤ todTotal State.reset + (pw (tPkt 0x51 [0, 5, 3]) 1).toInt * 2 ^ 32 ∧
    pf (tPkt 0x51 [0, 5, 1]) 2 1 1 = 0 ∧ 48 * (drainStamps 16 State.reset).1.length ≤ pf (tPkt 0x52 [0, 0]) 1 31 0 := by decide +kernel
def tLk (op : Nat) (w1 : W64) : Packet := tPkt 0x70 [BitVec.ofNat 64 (op * 2 ^ 8), w1]
theorem witness_link_commands : (∀ op ∈ [1, 2, 3, 4, 5, 6, 7], pf (tLk op 8) 0 11 8 = op ∧ pf (tLk op 8) 0 4 0 < 24 ∧
      CmdTurnB (tTurn (tLk op 8) (tUp 6 400 id)) (.pf 0) (tLk op 8) (tHeldC (tLk op 8)) = true) ∧
    lnkState (tTurn (tLk 1 8) (tUp 6 400 id)) 0 = 6 ∧ (pw (tLk 1 8) 1).toNat % 4 < 3 ∧ (getLink (tUp 6 400 id) 0).ownReq = none ∧ linkHeld (tUp 6 400 id) 0 = false ∧
    (pw (tLk 1 8) 1).toNat / 8 % 2 = 1 ∧ lnkState (tUp 8 400 id) 0 ≠ 6 ∧ lnkState State.reset 0 = 0 ∧ rd State.reset (rLNK_LANE_MAP 0) fLNK_LANE_MAP_MAP = 0x3210 ∧
    ((List.range 4).map (physLane 0x3210)).Nodup ∧ ¬((List.range 4).map (physLane 0x3211)).Nodup ∧
    (getLink (modLink (tUp 6 400 id) 0 fun x => { x with ownReq := some { id := 1, eq := false, width := 0, forced := false } }) 0).ownReq.isSome = true ∧
    pf (tLk 3 8) 1 3 3 = 1 ∧ linkHeld (tLnk 1 256 id) 0 = true ∧ pf (tLk 3 0) 1 3 3 = 0 ∧ pf (tPkt 0x71 [0, 0, BitVec.ofNat 64 (2 ^ 23)]) 2 23 0 = 2 ^ (23 : LinkId).val := by decide +kernel
theorem test_fence_word_queued : (getLink (tNext (.linkCtlFenceOn (.pf 0) (tLk 4 7)) (tTurn (tLk 4 7) (tUp 6 400 id))) 0).ctrlq = [BitVec.ofNat 64 (0x06 * 2 ^ 56 + 2 ^ 12 + 7)] := by decide +kernel

/-! ### Records, identity, life cycle and policy -/

theorem witness_fault_read : let s := wr (tTurn (tPkt 0x80 [0, 64, 256]) (tRun id)) rGAF_FLOG_CTL fGAF_FLOG_CTL_WR 1
    (flogWr s + 2 ^ 32 - flogRd s) % 2 ^ 32 = 1 ∧ (getCtx s 0).vfOwn = false ∧ 64 * min 1 (pf (tPkt 0x80 [0, 64, 256]) 2 8 0) ≤ pf (tPkt 0x80 [0, 64, 256]) 1 31 0 ∧
    CmdTurnB s (.pf 0) (tPkt 0x80 [0, 64, 256]) (tHeldC (tPkt 0x80 [0, 64, 256])) = true ∧
    CmdTurnB { s with cmds := [{ tHeldC (tPkt 0x80 [0, 64, 256]) with src := .vf 0 }] } (.vf 0) (tPkt 0x80 [0, 64, 256]) { tHeldC (tPkt 0x80 [0, 64, 256]) with src := .vf 0 } = true ∧
    (regSet s (rGAF_FLOG 0 0) (BitVec.ofNat 64 (2 ^ 46)) |> fun v => (flogOf v 0).length) = 1 := by decide +kernel
theorem witness_identity : lcState (tServe State.reset) ≠ 5 ∧ lcState (wr (tServe State.reset) rSEC_LC fSEC_LC_STATE 5) = 5 ∧ bootMode (tServe State.reset) = 0 ∧
    bootMode (wr State.reset rSEC_BOOT fSEC_BOOT_MODE 3) = 3 ∧ served (wr State.reset rSEC_BOOT fSEC_BOOT_MODE 3) (.pf 0) = true ∧
    rd (tServe State.reset) rSEC_FW_STAGED fSEC_FW_STAGED_VALID = 0 ∧ rd (wr (tServe State.reset) rSEC_FW_STAGED fSEC_FW_STAGED_VALID 1) rSEC_FW_STAGED fSEC_FW_STAGED_VALID = 1 ∧
    State.reset.boot.stLen ≤ 0x10000000 ∧ (∀ n ∈ [1, 2, 3], pf (tPkt 0x90 [0, 0, BitVec.ofNat 64 n]) 2 3 0 = n) := by decide +kernel
/-- A token of zeros is no token. -/
theorem witness_lifecycle : (∀ c : CtxId, (getCtx State.reset c).st = .closed) ∧ State.reset.fuse.tcount < 128 ∧ (getCtx (tRun id) 0).st ≠ .closed ∧
    (tokenBad (useCrypto (tServe State.reset)) (List.replicate 120 0) 2).isSome = true ∧ lcAllowed (lcOf State.reset.fuse) (2 + lcOf State.reset.fuse) ≤ true ∧
    (∃ n, n < 16 ∧ lcAllowed (lcOf State.reset.fuse) n = true) ∧ State.reset.fuse.fieldAt ≤ State.reset.fuse.tcount ∧ ({ State.reset.boot with lcAt := some 9 }).lcAt = some 9 := by decide +kernel
theorem witness_twin_set : let p := tPkt 0xD0 [BitVec.ofNat 64 (2 ^ 63 + 9), 1 * 2 ^ 8]
    let s := tTw fun s => modCtx s 0 fun x => { x with dm := true }
    (getCtx s (Fin.ofNat 8 (pf p 0 58 56))).st = .opened ∧ pf p 0 63 63 = 1 ∧ twinRefused (tRun id) p = some 1 ∧ pf (tPkt 0xD0 [0, 0]) 0 63 63 = 0 ∧
    (getCtx (tRun id) (Fin.ofNat 8 (pf p 0 58 56))).dm = false := by decide +kernel
theorem witness_policy : pf (tPkt 0xE0 [BitVec.ofNat 64 (8 + 4 + 2400 * 2 ^ 16)]) 0 3 3 = 1 ∧ pf (tPkt 0xE0 [BitVec.ofNat 64 (8 + 4 + 2400 * 2 ^ 16)]) 0 31 16 = 2400 ∧
    pf (tPkt 0xE0 [0]) 0 3 3 = 0 ∧ pf (tPkt 0xE0 [0]) 0 31 16 = 0 := by decide

/-- RFC 8032, test 1: the empty message. -/
theorem test_ed25519 : edVerify (bytesBE 32 0xd75a980182b10ab7d54bfed3c964073a0ee172f3daa62325af021a68f707511a) []
    (bytesBE 64 0xe5564300c360ac729086e2cc806e828a84877f1eb8e5d974d873e065224901555fb8821590a33bacc61e39701cf9b46bd25bf5f0595bbe24655141438e7a100b) = true := by
  decide +kernel
/-- Key 0, and the token's key, of the fuses in the next two witnesses; the fused hashes are the part's (log 104). -/
def tKeyHash : BitVec 512 := BitVec.ofNat 512 0xa2dda735ee37f9185a5cf88f03e935a8c3df2d89003f18e6f09bfd5357ddb1731fc6d7b43f33295e1bc1101f246aa126d01c86bce855c0584263ab79c6cfd57d
def tFus (f : FuseSt → FuseSt) : State := { State.reset with fuse := f State.reset.fuse }
/-- BLANK to PROVISION, signed by the key. -/
def tToken : Nat := 0xd1c09524fb69324cd19bf97440ec7d6d40e3d69b887a99acacecd57d0c52d107d02a9d450be57b3b58ff99eae2fd41a18d8f20f29712d9f34736609661a2e0a29da598ba148c03aa643e21d77153265730d6f2ad0a8a3622da4b6cebc276a3b000000000000000000000001000001003154434c53484c56
theorem witness_token (h : Config.tokenHash = tKeyHash) :
    tokenBad (useCrypto (wr (regSet (tServe (tFus fun x => { x with base := 0, tcount := 0 })) rGAF_SERIAL_HASH 0) rSEC_LC fSEC_LC_STATE 0)) (bytesLE 120 tToken) 1 = none := by
  unfold tokenBad
  rw [h]
  decide +kernel
/-- An image of an empty body, signed with key 0. -/
def tImage : Nat := 0x31f9e626dc46e68900d46304df4cf03c186a1559b7d068b47e1ba1ece9f11a824ed6b25e6426c6099b4ab1cf8705d93f42916119d12ed13053c7fc52ce8cead3eda27f97a3238a5817a4147bd31b9632fec7e87d21883ffb0f2855d3cd1d047cee96cd321a9f483dc15570b05e420d607806dd6502854f1bdb8ef7e35e183cf29da598ba148c03aa643e21d77153265730d6f2ad0a8a3622da4b6cebc276a3b0000000000000000000000000003000000000000000000013146414753484c56
def tCells (a v n : Nat) : List Host.Cell :=
  (List.range n).filterMap fun k => if (v >>> (8 * k)) % 256 = 255 then none else some (a + k, BitVec.ofNat 8 (v >>> (8 * k)))
def tFlash : State :=
  { wr State.reset rSEC_BOOT fSEC_BOOT_PHASE 3 with recPhase := 3, flash := tCells 0 tImage 256 ++ tCells commitAt 0x975ef3982ee1053d0e562d1b57c1c5844bc4634ab8bd0e259995259d2ff7f43e6b38d4bd9f3b4e72ab5d7df2151ad854391e0183143864aceadd244e816963f2 64 }
theorem witness_image (h : Config.keyHash 0 = tKeyHash) : fwReject tFlash (flashImg tFlash) true = none ∧ bootPhase tFlash = 3 ∧ tFlash.recPhase = 3 := by
  have hk : (flashImg tFlash).key = 0 := by decide +kernel
  unfold fwReject keyOk
  rw [hk, h]
  decide +kernel
theorem witness_no_image : fwReject State.reset (flashImg State.reset) true = some 1 := by decide +kernel
/-- Two links UP at x4, each alone on its port, with the same neighbour and no planned positions. -/
def tTwinPair : State :=
  let up (l : Nat) (s : State) : State := wr (wr (wr (wr s (rLNK_STATUS l) fLNK_STATUS_STATE 6) (rLNK_STATUS l) fLNK_STATUS_WIDTH 0) (rLNK_NBR0 l) fLNK_NBR0_VALID 1)
    (rLNK_NBR0 l) fLNK_NBR0_GID 9
  regSet (regSet (up 1 (up 0 (modCtx (tRun id) 0 fun x => { x with dm := true }))) rFWD_PORT_MAP0 0xFFFFFFFFFFFFFF10) rFWD_PORT_MAP1 0xFFFFFFFF
theorem witness_twin_on : twinRefused tTwinPair (tPkt 0xD0 [BitVec.ofNat 64 (2 ^ 63 + 9), 1 * 2 ^ 8]) = none ∧ (getCtx tTwinPair 0).st = .opened ∧
    CmdTurnB (tTurn (tPkt 0xD0 [BitVec.ofNat 64 (2 ^ 63 + 9), 1 * 2 ^ 8]) tTwinPair) (.pf 0) (tPkt 0xD0 [BitVec.ofNat 64 (2 ^ 63 + 9), 1 * 2 ^ 8])
      (tHeldC (tPkt 0xD0 [BitVec.ofNat 64 (2 ^ 63 + 9), 1 * 2 ^ 8])) = true := by decide +kernel

/-! ### Registers, BAR4, function resets, DOE, SPDM and IDE -/

theorem witness_plain_register (v : W64) : PlainReg State.reset rMEM_SCRUB_CTL v ∧ PlainReg State.reset rGAF_FLOG_CTL v := by
  refine ⟨⟨by decide, by decide, by decide, by decide, by decide, by decide, fun s1 => ⟨rfl, rfl, rfl, rfl⟩⟩,
    ⟨by decide, by decide, by decide, by decide, by decide, by decide, fun s1 => ⟨rfl, rfl, rfl, rfl⟩⟩⟩
theorem witness_register_write : (∃ r, regAt rMEM_SCRUB_CTL = some r) ∧ msixWord .management rMEM_SCRUB_CTL = none ∧ isPba .management rMEM_SCRUB_CTL = false ∧
    rMEM_SCRUB_CTL % 8 = 0 ∧ (BitVec.ofNat 26 rMEM_SCRUB_CTL).toNat = rMEM_SCRUB_CTL ∧ Reaches State.reset .management ∧
    regAt (0x3FFFFF8 : BitVec 26).toNat = none ∧ isDbg (0x3FFFFF8 : BitVec 26).toNat = false ∧
    msixWord .management (0x3FFFFF8 : BitVec 26).toNat = none ∧ isPba .management (0x3FFFFF8 : BitVec 26).toNat = false ∧ (0x3FFFFF8 : BitVec 26).toNat % 8 = 0 := by
  refine ⟨⟨_, rfl⟩, by decide, by decide, by decide, by decide, ⟨rfl, ?_⟩, ?_, by decide, by decide, by decide, by decide⟩ <;> decide +kernel
theorem witness_register_turned_away : msixWord .management (0x3FFFFFC : BitVec 26).toNat = none ∧ isPba .management (0x3FFFFFC : BitVec 26).toNat = false ∧
    (0x3FFFFFC : BitVec 26).toNat % 8 ≠ 0 ∧ lcOpen (wr State.reset rSEC_LC fSEC_LC_STATE 2) = false ∧ lcOpen (wr State.reset rSEC_LC fSEC_LC_STATE 5) = false ∧
    (0xFFF8 : BitVec 26).toNat < 0x10000 ∧ (0xFFF8 : BitVec 26).toNat % 8 = 0 ∧ msixWord (.vf 7) (0x187FC : BitVec 26).toNat = some (4096 * 8 + 511) ∧
    (0x187FC : BitVec 26).toNat % 4 = 0 ∧ msixWord .management (0x108000 : BitVec 26).toNat = some 0 := by decide +kernel
theorem witness_commit : (Instr.lnkCommit .sideband 23 1, Block.lnk 23) ∈ [(Instr.fwdCommit .sideband 1, Block.fwd), (.timCommit .sideband 1, .tim), (.opnCommit .sideband 1, .opn)] ++
      (List.finRange 24).map (fun l => (Instr.lnkCommit .sideband l 1, Block.lnk l)) ++ (List.finRange 21).map (fun k => (Instr.sbdCaneCommit .sideband k 1, Block.cane k)) ∧
    Reaches (wr State.reset rSEC_LC fSEC_LC_STATE 1) .sideband := by
  refine ⟨?_, rfl, fun _ => ?_⟩ <;> decide +kernel
/-- A snapshot waits. -/
def tSnap (b : Block) (now : Nat) (ws : List (Nat × W64)) : State := { State.reset with now := now, snaps := [{ block := b, at_ := 0, words := ws }] }
theorem witness_snapshot : let ws : List (Nat × W64) := [(rFWD_PORT_MAP0, 5), (rFWD_PORT_MAP1, 6)]
    (tSnap .fwd 3 ws).snaps.find? (fun k => decide (k.block = .fwd)) = some { block := .fwd, at_ := 0, words := ws } ∧ (tSnap .fwd 3 ws).now < 4 * (0 / 4 + 1) ∧
    4 * (0 / 4 + 1) ≤ (tSnap .fwd 4 ws).now ∧ (ws.map (·.1)).Nodup ∧
    (tSnap .opn 4 [(rOPN_RT_CTL, fset fOPN_RT_CTL_ACTIVE 0 1)]).cmds = [] ∧ (1 : Nat) < 2 ∧ 1 ≠ activeV (tSnap .opn 4 [(rOPN_RT_CTL, fset fOPN_RT_CTL_ACTIVE 0 1)]) := by decide +kernel
theorem witness_same_cycle : let s := writeShadow (tSnap .fwd 3 []) rFWD_PORT_MAP0 5
    (tget (fun _ => (0, 0)) (tSnap .fwd 3 []).shadowAt rFWD_PORT_MAP0).1 ≠ gclk (tSnap .fwd 3 []) + 1 ∧ (tget (fun _ => (0, 0)) s.shadowAt rFWD_PORT_MAP0).1 = gclk s + 1 ∧
    stagedMask rFWD_PORT_MAP0 ≠ 0 ∧ shadowSeen s rFWD_PORT_MAP0 ≠ shadowGet s rFWD_PORT_MAP0 ∧
    flagFresh (flagSet State.reset (rSBD_CANE_STAT 4) fSBD_CANE_STAT_OVR) (rSBD_CANE_STAT 4) fSBD_CANE_STAT_OVR = true ∧
    flagFresh State.reset (rSBD_CANE_STAT 4) fSBD_CANE_STAT_OVR = false := by decide +kernel
theorem witness_snapshots_that_act : let ws : List (Nat × W64) := [(rTIM_ROLE, fset fTIM_ROLE_ROLE 0 3), (rTIM_MASTER_RATE, 0), (rTIM_TOD_INC, 0), (rTIM_TOD_STEP, 7)]
    let c : List (Nat × W64) := [(rSBD_CANE_CTL 20, 1)]
    (tSnap .tim 4 ws).snaps.find? (fun k => decide (k.block = .tim)) = some { block := .tim, at_ := 0, words := ws } ∧ (ws.map (·.1)).Nodup ∧
    (∀ o ∈ ws.map (·.1), o ∈ stagedRegs .tim) ∧ timRole (tSnap .tim 4 ws) = 0 ∧ fget fTIM_ROLE_ROLE (fset fTIM_ROLE_ROLE 0 3) = 3 ∧
    (tSnap (.cane 20) 4 c).snaps.find? (fun k => decide (k.block = .cane 20)) = some { block := .cane 20, at_ := 0, words := c } ∧ (c.map (·.1)).Nodup ∧
    rOPN_FLIP ∉ [rOPN_RT_CTL] ∧ (tSnap .opn 4 []).snaps.find? (fun k => decide (k.block = .fwd)) = none := by decide +kernel
theorem witness_link_registers : let v := fset fLNK_CTL_REQUEST (fset fLNK_CTL_ENABLE 0 1) 1
    let w := fset fLNK_CTL_FORCE v 1
    let h := wr (tLnk 1 256 id) (rLNK_CTL 0) fLNK_CTL_ENABLE 1
    fget fLNK_CTL_ENABLE (0 : W64) = 0 ∧ rd tIn (rLNK_CTL 0) fLNK_CTL_ENABLE = 1 ∧ fget fLNK_CTL_ENABLE v = 1 ∧ fget fLNK_CTL_REQUEST v = 1 ∧ lnkState tIn 0 = 6 ∧
    fget fLNK_CTL_WIDTH v < 3 ∧ (getLink tIn 0).ownReq = none ∧ linkHeld tIn 0 = false ∧ isMaster tIn 0 = false ∧ isMaster (tMst tIn) 0 = true ∧
    linkHeld (tMst tIn) 0 = false ∧ lnkState (tMst tIn) 0 = 6 ∧ (getLink (tMst tIn) 0).ownReq = none ∧
    fget fLNK_CTL_ENABLE w = 1 ∧ fget fLNK_CTL_REQUEST w = 1 ∧ fget fLNK_CTL_FORCE w = 1 ∧ fget fLNK_CTL_WIDTH w < 3 ∧ lnkState h 0 = 6 ∧ linkHeld h 0 = true ∧
    rd h (rLNK_CTL 0) fLNK_CTL_ENABLE = 1 ∧ (getLink h 0).ownReq = none ∧
    fget fLNK_FENCE_ENABLE (fset fLNK_FENCE_ENABLE 0 1) ≠ rd tIn (rLNK_FENCE 0) fLNK_FENCE_ENABLE ∧ fget fTIM_SNAP_SNAP (fset fTIM_SNAP_SNAP 0 1) = 1 ∧
    fget fTIM_TS_ARM_ARM (fset fTIM_TS_ARM_ARM 0 1) = 1 := by decide +kernel
theorem witness_fifo_read : let it : CaneIt := { data := 5, last := true, par := false, poison := false, at_ := 0 }
    let s (k : Nat) : State := { setCane State.reset k { caneReset k with items := [it] } with now := 400 }
    (∀ k ∈ [0, 1], (getCane State.reset k).items = [] ∧ edgesSince (caneRdPeriod k) 3 it.at_ 0 = false ∧ (getCane (s k) k).items = it :: [] ∧ edgesSince (caneRdPeriod k) 3 it.at_ (s k).now = true ∧
      (getCane (s k) k).held = none) ∧ (Instr.hstEvent .management, 1) ∈ [(Instr.timTsData .management, 0), (Instr.hstEvent .management, 1)] := by
  refine ⟨?_, by simp⟩
  decide +kernel
theorem witness_debug : let s := wr (wr (tRun id) rSEC_LC fSEC_LC_STATE 1) rDBG_CTL fDBG_CTL_ENABLE 1
    pd31On s = true ∧ lcOpen s = true ∧ (getTile s (rd s rDBG_SEL fDBG_SEL_TILE)).own = some 0 ∧
    (getTile (wr s rDBG_SEL fDBG_SEL_TILE 63) (rd (wr s rDBG_SEL fDBG_SEL_TILE 63) rDBG_SEL fDBG_SEL_TILE)).own = none ∧
    fget fGAF_RECOVERY_START (fset fGAF_RECOVERY_START 0 1) = 1 ∧ dead s = false ∧ s.pwr.quenched = false ∧ s.recPhase = 0 ∧
    (∀ c : CtxId, (getCtx State.reset c).st = .closed) ∧ (getCtx s 0).st ≠ .closed ∧ fget fDBG_CTL_ENABLE (fset fDBG_CTL_ENABLE 0 1) = 1 ∧
    (getCtx (modCtx s 0 fun x => { x with plan := .parison }) 0).plan = .parison ∧ pd31On (modCtx s 0 fun x => { x with plan := .parison }) = true ∧
    (getCtx s 0).plan ≠ .parison := by decide +kernel

theorem witness_bar4 : let v := modCtx { State.reset with vfApt := [(8, fset fHST_APERTURE_BASE 0 0x80000)] } 7 fun x => { x with vfOwn := true, st := .opened, tiles := 1 }
    barReach State.reset 0 0 = true ∧ barReach State.reset 0 (0xE000000000 - 8) = true ∧ barReach State.reset 0 (0xE000000000 - 7) = false ∧
    State.reset.flaw = [] ∧ State.reset.poison = [] ∧ State.reset.rowErr = [] ∧ barReach State.reset 1 0 = false ∧ barReach v 8 0 = true ∧
    (tAcc (.barWrite 5) [.period 3]).who = .barWrite 5 ∧ (tAcc (.barWrite 5) [.period 3]).len = 8 ∧ chanFree { State.reset with hostAcc := [tAcc (.barWrite 5) [.period 3]], now := 32 * 3 } 3 = true ∧
    barReach v 8 (2 ^ 32) = false := by decide +kernel
theorem witness_function_reset : (getCtx (tRun id) 0).st = .opened ∧ (∀ c : CtxId, (getCtx (tRun id) c).st ≠ .replay) ∧ (getCtx (tRun id) 0).vfOwn = false ∧
    (getCtx (modCtx (tRun id) 0 fun x => { x with vfOwn := true }) 0).vfOwn = true ∧ (getCtx (modCtx (tRun id) 0 fun x => { x with vfOwn := true }) 0).st = .opened ∧
    (tHeldC (tPkt 0x10 [])).src ≠ .vf 3 ∧ (2 : BitVec 8).toNat ≤ 2 := by decide +kernel
/-- A connection of a port that has come to phase n, with an endpoint ID assigned. -/
def tSpdm (port : SpdmPort) (n : Nat) (ses : Option Bool) : State :=
  setSpdm (wr (tServe State.reset) rSBD_STATUS fSBD_STATUS_EID 9) port { phase := n, session := ses, log := [] }
theorem witness_spdm : ∀ port ∈ [SpdmPort.doe, .mctp], ∀ n ∈ [0, 1, 2, 3], SpdmServes (tSpdm port n none) port n ∧
    (getSpdm (tSpdm port n (some false)) port).session = some false ∧ (getSpdm (tSpdm port n none) port).session ≠ some false := by
  unfold SpdmServes; decide +kernel
theorem witness_algorithms : let req : List Byte := [0, 0, 0, 0, 0, 0, 0, 0, 0, 2, 0, 0, 4, 0, 0, 0]
    (leBytes ((req.map (·.toNat)).drop 8 |>.take 4)).testBit 9 = true ∧ (leBytes ((req.map (·.toNat)).drop 12 |>.take 4)).testBit 2 = true := by decide
theorem witness_certificate (s : State) : (0 : BitVec 16).toNat < (spdmChain s).length ∧ 1 ≤ (4 : BitVec 8).toNat ∧ (4 : BitVec 8).toNat ≤ 4 := by
  simp [spdmChain, bytesLE]
theorem witness_ide : (7 : BitVec 4).toNat < 8 ∧ (15 : BitVec 4).toNat = 15 ∧ (getSpdm (tSpdm .doe 3 (some true)) .doe).session = some true ∧
    (∀ port ∈ [SpdmPort.doe, .mctp], (getSpdm State.reset port).session ≠ some true) ∧ isSecure (wr State.reset rHST_IDE fHST_IDE_LINK_SECURE 1) 15 = true ∧
    isSecure (wr State.reset rHST_IDE fHST_IDE_SEL_SECURE 0x80) 7 = true := by decide +kernel

/-! ### Sideband, test access and Cane FIFOs -/

/-- A module that serves MCTP requests. -/
def tMctp (f : State → State) : State := f (wr (wr (tServe State.reset) rSBD_STATUS fSBD_STATUS_EID 9) rSEC_LC fSEC_LC_STATE 1)
theorem witness_address : rd State.reset rSBD_STATUS fSBD_STATUS_I3C = 0 ∧ rd State.reset rSBD_STATUS fSBD_STATUS_STATIC_ADDR = rd State.reset rSBD_STATUS fSBD_STATUS_STATIC_ADDR ∧
    (∃ st : BitVec 7, rd State.reset rSBD_STATUS fSBD_STATUS_STATIC_ADDR = st.toNat) ∧ (∃ st : BitVec 7, rd State.reset rSBD_STATUS fSBD_STATUS_STATIC_ADDR ≠ st.toNat) ∧
    rd (wr State.reset rSBD_STATUS fSBD_STATUS_I3C 1) rSBD_STATUS fSBD_STATUS_I3C = 1 := by
  refine ⟨by decide +kernel, rfl, ⟨BitVec.ofNat 7 (rd State.reset rSBD_STATUS fSBD_STATUS_STATIC_ADDR), by decide +kernel⟩,
    ⟨BitVec.ofNat 7 (rd State.reset rSBD_STATUS fSBD_STATUS_STATIC_ADDR + 1), by decide +kernel⟩, by decide +kernel⟩
theorem witness_mctp : MctpServes (tMctp id) 9 ∧ (1 : BitVec 8) ≠ 0 ∧ (254 : BitVec 8) ≠ 255 ∧ rd State.reset rSBD_STATUS fSBD_STATUS_EID = 0 ∧
    (tMctp fun s => { s with sbd := { s.sbd with busy := [9] } }).sbd.busy.contains (9 : BitVec 8).toNat = true ∧ State.reset.sbd.busy.contains (9 : BitVec 8).toNat = false ∧
    gafferDown { tMctp id with recPhase := 2 } = true ∧ rd { tMctp id with recPhase := 2 } rSBD_STATUS fSBD_STATUS_EID ≠ 0 := by
  unfold MctpServes; decide +kernel
theorem witness_sideband_command : served (tMctp id) .sideband = true ∧ ((tMctp id).cmds.filter fun h => winOf h.src = 8).length < 64 ∧
    takeCheck (tMctp id) .sideband (tPkt 1 []) = none ∧
    (takeCheck (tMctp id) .sideband (tPkt 0x07FF [0])).isSome = true ∧ ({ tHeldC (tPkt 1 []) with src := .sideband }).src = .sideband := by decide +kernel
theorem witness_job_notice : (allCtx.filter fun (d : CtxId) => decide ((getCtx (tMctp fun s => setCtx s 3 { tCtx with job := 5 }) d).st ≠ .closed) &&
      decide ((getCtx (tMctp fun s => setCtx s 3 { tCtx with job := 5 }) d).job = 5)) = [3] ∧ 8 ≤ caneFree 20 0 (getCane (tMctp id) 20) ∧
    2 * (4 : BitVec 25).toNat % 8 = 0 ∧ MctpServes (tMctp fun s => setCtx s 3 { tCtx with job := 5 }) 9 := by
  unfold MctpServes; decide +kernel
theorem witness_sensors : 1 ≤ (26 : BitVec 32).toNat ∧ (26 : BitVec 32).toNat ≤ 26 ∧ 1 ≤ (24 : BitVec 16).toNat ∧ (24 : BitVec 16).toNat ≤ 24 ∧ (2 : BitVec 8).toNat ≤ 2 ∧
    (3 : BitVec 8).toNat ≤ 3 ∧ (tMctp id).sbd.events = [] ∧
    (({ (tMctp id).sbd with events := [(7, [1])] }).events.filter fun q => q.1 ≠ (5 : BitVec 16).toNat) = (7, [1]) :: [] := by decide +kernel
theorem witness_sensor_refresh : gafferDown (tMctp id) = false ∧ ({ vals := [(6 + 15, 1)] : Readings }).vals = [(6 + (15 : ZoneId).val, 1)] ∧
    sensorState (tMctp id) 1 48000 = sensorState (tMctp id) 1 50000 ∧ sensorState (tMctp id) 1 81000 ≠ sensorState (tMctp id) 1 (reading (tMctp id) 1) ∧
    sensorOn (tMctp id) 1 = true ∧ (tMctp id).sbd.rcvMode = 0 ∧ (tMctp id).sbd.events.length < 32 ∧ gafferDown { tMctp id with recPhase := 2 } = true := by decide +kernel
theorem witness_hot_zone : let s := tMctp fun s => wr (wr (wr s (rCLK_XING 15) fCLK_XING_STEP_OK 31) (rCLK_ZONE_CTL 15) fCLK_ZONE_CTL_STEP 3) (rCLK_ZONE_CTL 15) fCLK_ZONE_CTL_FLOOR 4
    (getZone s 15).hotSince = none ∧ zoneStep s 15 < floorStep s 15 ∧ (getZone s 15).change = none ∧ zoneDeep s 15 = false ∧ gafferDown s = false ∧
    ({ Zone.zero with hotSince := some 0 }).hotSince ≠ none := by decide +kernel
theorem witness_unchanged_state : sensorState (tMctp id) 1 (reading (tMctp id) 1) = sensorState (tMctp id) 1 (reading (tMctp id) 1) := rfl

theorem witness_private : lcOpen (wr State.reset rSEC_LC fSEC_LC_STATE 2) = false ∧ lcOpen (wr State.reset rSEC_LC fSEC_LC_STATE 1) = true := by decide +kernel
/-- A FIFO that holds n items since tick 0. -/
def tCane (k n now : Nat) (f : Cane → Cane) : State :=
  { setCane State.reset k (f { caneReset k with items := List.replicate n { data := 5, last := true, par := false, poison := false, at_ := 0 } }) with now := now }
theorem witness_cane_write : 1 ≤ caneFree 0 0 (getCane State.reset 0) ∧ 1 ≤ caneFree 20 9 (getCane (tCane 20 31 9 id) 20) ∧
    caneFree 0 9 (getCane (tCane 0 16 9 id) 0) = 0 ∧ (getCane (tCane 0 16 9 fun x => { x with flagMd := true }) 0).flagMd = true ∧
    caneFree 0 9 (getCane (tCane 0 16 9 fun x => { x with flagMd := true }) 0) = 0 ∧ (getCane (tCane 0 16 9 fun x => { x with flagMd := false }) 0).flagMd = false ∧
    caneFree 0 9 (getCane (tCane 0 16 9 fun x => { x with flagMd := false }) 0) = 0 ∧ (getCane (tCane 0 16 9 id) 0).held = none := by decide +kernel
theorem witness_cane_read : (getCane (tCane 0 1 6 id) 0).items = { data := 5, last := true, par := false, poison := false, at_ := 0 } :: [] ∧
    edgesSince (caneRdPeriod 0) 3 0 (tCane 0 1 6 id).now = true ∧ edgesSince (caneRdPeriod 0) 3 0 (tCane 0 1 5 id).now = false ∧
    (getCane (tCane 0 1 6 id) 0).held = none ∧ (tCane 0 1 6 id).faultHeld = [] ∧ (getCane (tCane 0 0 6 id) 0).items = [] ∧ (getCane (tCane 0 1 6 id) 0).freed = [] := by
  decide +kernel
theorem witness_cane_timeout : let t (now : Nat) := wr (tCane 0 1 now id) (rSBD_CANE_CTL 0) fSBD_CANE_CTL_TIMEOUT 5
    rd (t 10) (rSBD_CANE_CTL 0) fSBD_CANE_CTL_TIMEOUT ≠ 0 ∧ (getCane (t 10) 0).items ≠ [] ∧ (getCane (t 10) 0).fired = false ∧
    edgesSince (caneRdPeriod 0) (rd (t 10) (rSBD_CANE_CTL 0) fSBD_CANE_CTL_TIMEOUT) (getCane (t 10) 0).timer (t 10).now = true ∧
    edgesSince (caneRdPeriod 0) (rd (t 9) (rSBD_CANE_CTL 0) fSBD_CANE_CTL_TIMEOUT) (getCane (t 9) 0).timer (t 9).now = false ∧
    (getCane State.reset 0).items = [] ∧ rd (wr (t 9) (rSBD_CANE_CTL 0) fSBD_CANE_CTL_TIMEOUT 0) (rSBD_CANE_CTL 0) fSBD_CANE_CTL_TIMEOUT = 0 := by decide +kernel

/-! ### Power and supply -/

/-- A module that serves, with a supply state, every domain on and the rails the causes and faults name good. -/
def tPwr (now : Nat) (f : PwrSt → PwrSt) : State :=
  let s := wr (wr (tServe (tRun id)) rPWR_DOMAIN fPWR_DOMAIN_ON (2 ^ 32 - 1)) (rCLK_ZONE_CTL 0) fCLK_ZONE_CTL_STOPPED 0
  { [0, 16, 19, 26].foldl (fun s r => wr s (rPWR_RAIL r) fPWR_RAIL_PG 1) s with now := now, pwr := f PwrSt.zero }
theorem noEarlier_of (s : State) (k : Nat) (h : ∀ j ∈ List.range k, j = 0 ∨ quenchDue s j = false) : NoEarlier s k := by
  intro j h1 h2
  rcases h j (List.mem_range.2 h2) with h | h
  · omega
  · exact h
theorem witness_sag : let s := tPwr 100 id
    let v := tPwr 12000005 fun p => { p with sag := some (5, 63) }
    let w := tPwr 1200005 fun p => { p with intr := some (1205, 63) }
    let u := tPwr 1200006 fun p => { p with intr := some (1205, 63) }
    40000 ≤ (40000 : BitVec 32).toNat ∧ (39999 : BitVec 32).toNat < 40000 ∧ s.pwr.sag = none ∧ rd s rPWR_SEVT_PTR fPWR_SEVT_PTR_WR % 64 = 0 ∧ s.pwr.quenched = false ∧
    v.pwr.sag = some (5, 63) ∧ v.pwr.intr = none ∧ 5 + 12000000 ≤ v.now ∧ ({ v with now := 12000004 }).now < 5 + 12000000 ∧ (42000 : BitVec 32).toNat = 42000 ∧
    (35999 : BitVec 32).toNat < 36000 ∧ s.pwr.intr = none ∧ w.pwr.intr = some (1205, 63) ∧ w.now + 1200 - 1205 ≤ 1200000 ∧ 1200000 < u.now + 1200 - 1205 ∧
    w.pwr.bankFull ≤ 1205 ∧ 1205 < ({ w.pwr with bankFull := 1206 }).bankFull ∧ s.now < ({ s.pwr with bankFull := 101 }).bankFull ∧ s.pwr.bankFull ≤ s.now := by decide +kernel
theorem witness_surge_and_ripple : let s := tPwr 100 id
    let v := tPwr 1200006 fun p => { p with surge := some (1205, 3) }
    let r := tPwr 12000005 fun p => { p with ripple := some (5, 3) }
    s.pwr.surge = none ∧ s.pwr.ripple = none ∧ 64000 < (64001 : BitVec 32).toNat ∧ (80000 : BitVec 32).toNat ≤ 80000 ∧ 80000 < (80001 : BitVec 32).toNat ∧
    v.pwr.surge = some (1205, 3) ∧ 1200000 < v.now + 1200 - 1205 ∧ v.pwr.quenched = false ∧ 62000 < (62001 : BitVec 32).toNat ∧ (62000 : BitVec 32).toNat ≤ 62000 ∧
    2000 < (2001 : BitVec 32).toNat ∧ 60000 < (60001 : BitVec 32).toNat ∧ r.pwr.ripple = some (5, 3) ∧ 5 + 12000000 ≤ r.now ∧
    ({ r with now := 12000004 }).now < 5 + 12000000 ∧ (1499 : BitVec 32).toNat < 1500 ∧ 70000 < (70001 : BitVec 32).toNat := by decide +kernel
/-- Each cause of a Quench stands alone in some state. -/
def tDue (k : Nat) : State :=
  let s := tPwr 1200006 id
  if k = 1 then tPwr 1200006 fun p => { p with intr := some (1205, 3) }
  else if k = 2 then wr s rPWR_STATUS fPWR_STATUS_PWR_FAIL 1
  else if k = 3 then wr s rPWR_INPUT fPWR_INPUT_VIN 80001
  else if k = 4 then wr s rPWR_INPUT fPWR_INPUT_IIN 70001
  else if k = 5 then { s with sbd := { s.sbd with readings := [(24, 1680)] } }
  else wr s (rPWR_RAIL 26) fPWR_RAIL_PG 0
theorem witness_quench_due : ∀ k ∈ [1, 2, 3, 4, 5, 6], quenchDue (tDue k) k = true ∧ NoEarlier (tDue k) k ∧ (tDue k).pwr.quenched = false ∧ quenchDue (tPwr 100 id) k = false := by
  have h : ∀ k ∈ [1, 2, 3, 4, 5, 6], quenchDue (tDue k) k = true ∧ (∀ j ∈ List.range k, j = 0 ∨ quenchDue (tDue k) j = false) ∧ (tDue k).pwr.quenched = false ∧
      quenchDue (tPwr 100 id) k = false := by decide +kernel
  exact fun k hk => ⟨(h k hk).1, noEarlier_of _ _ (h k hk).2.1, (h k hk).2.2.1, (h k hk).2.2.2⟩
theorem witness_no_cause : NoEarlier (tPwr 100 id) 7 ∧ rd (tPwr 100 id) rPWR_STATUS fPWR_STATUS_PWR_FAIL = 0 ∧ quenchOver (tPwr 100 id) = false ∧
    quenchOver (tPwr 100 fun p => { p with quenched := true }) = true ∧ (44000 : BitVec 32).toNat = 44000 := by
  refine ⟨noEarlier_of _ _ ?_, ?_⟩ <;> decide +kernel
theorem witness_rails : let s := tPwr 100 id
    let v := tPwr 120000006 fun p => { p with railOff := [(0, 7)], railAt := [(0, 5)] }
    gafferDown s = false ∧ gafferDown { s with recPhase := 2 } = true ∧ railUp s 19 = true ∧ railUp s 26 = true ∧ railUp s 16 = true ∧ railUp s 0 = true ∧
    railUp v 0 = false ∧ (0 : RailId) ∉ [19, 26, 16] ∧ (∀ c : CtxId, (getCtx s c).st ≠ .replay) ∧ holdsPlan (getCtx s 0) = true ∧ feeds 0 (getCtx s 0) = true ∧
    purging (getCtx s 0) = false ∧ tget (fun _ => 0) (tPwr 100 fun p => { p with railAt := [(0, 5)] }).pwr.railAt 0 ≠ 0 ∧ 100 + 1 < 5 + 4320000000000 ∧
    tget (fun _ => 0) s.pwr.railAt 0 = 0 ∧ tget (fun _ => 0) s.pwr.railOff 0 = 0 ∧ tget (fun _ => 0) v.pwr.railOff 0 ≠ 0 ∧ rd v (rPWR_RAIL 0) fPWR_RAIL_OOS = 0 ∧
    tget (fun _ => 0) v.pwr.railOff 0 + 120000000 ≤ v.now + 1 ∧ gafferDown v = false ∧
    ({ v with now := 120000005 }).now + 1 < tget (fun _ => 0) v.pwr.railOff 0 + 120000000 := by decide +kernel
theorem witness_heat : let s := setZone (tPwr 1200005 id) 0 { Zone.zero with hotSince := some 5 }
    let v := tPwr 120000005 fun p => { p with overAt := some 5 }
    (115 : BitVec 16).toNat = 115 ∧ (104 : BitVec 16).toNat < 105 ∧ (getZone s 0).hotSince = some 5 ∧ 5 + 1200000 ≤ s.now ∧ atFloor s 0 = true ∧
    ({ s with now := 1200004 }).now < 5 + 1200000 ∧ (getZone (tPwr 5 id) 0).hotSince = none ∧ v.pwr.overAt = some 5 ∧ 5 + 120000000 ≤ v.now ∧
    (∀ z : ZoneId, zoneHeld v z = true → atFloor v z = true) ∧ (tPwr 5 id).pwr.overAt = none ∧ ({ v with now := 120000004 }).now < 5 + 120000000 ∧
    atFloor (wr (wr v (rCLK_ZONE_CTL 0) fCLK_ZONE_CTL_FLOOR 3) (rCLK_ZONE_CTL 0) fCLK_ZONE_CTL_STEP 1) 0 = false ∧
    zoneHeld (wr (wr v (rCLK_ZONE_CTL 0) fCLK_ZONE_CTL_FLOOR 3) (rCLK_ZONE_CTL 0) fCLK_ZONE_CTL_STEP 1) 0 = true := by decide +kernel
theorem witness_hot_at_floor : let s := setZone (tPwr 1200005 id) 0 { Zone.zero with hotSince := some 5 }
    let w := wr (wr (wr s (rCLK_XING 0) fCLK_XING_STEP_OK 31) (rCLK_ZONE_CTL 0) fCLK_ZONE_CTL_STEP 3) (rCLK_ZONE_CTL 0) fCLK_ZONE_CTL_FLOOR 3
    (getZone w 0).hotSince = some 5 ∧ 5 + 1200000 ≤ w.now ∧ atFloor w 0 = true ∧ zoneStep w 0 < slowestOk w 0 ∧ zoneDeep w 0 = false ∧ (getZone w 0).change = none ∧
    zoneStep w 1 < 5 ∧ (let v := wr w (rCLK_ZONE_CTL 0) fCLK_ZONE_CTL_STEP 2; zoneStep v 0 < floorStep v 0 ∧ (getZone v 0).change = none ∧ v.pwr.sag = none) := by decide +kernel
/-- Zone 1 has nothing to do. -/
def tIdle : State := wr (tPwr 100 id) (rCLK_ZONE_CTL 1) fCLK_ZONE_CTL_STOPPED 0
theorem witness_idle_entry : getIdle tIdle 1 = none ∧ tIdle.pwr.quenched = false ∧ unitAwake tIdle 1 = false ∧ unitAwake tIdle 0 = true ∧
    (idleRows 1).find? (fun r => !eventIn tIdle 1 tIdle.now (tIdle.now + r.gap)) = some ⟨3, 480000, 6000, 60000⟩ := by decide +kernel
theorem witness_idle_link : let s := modLink (wr tIdle (rLNK_STATUS 0) fLNK_STATUS_STATE 6) 0 fun x => { x with helloAt := 100, syncAt := 100 }
    getIdle s 16 = none ∧ unitAwake s 16 = false ∧ (idleRows 16).find? (fun r => !eventIn s 16 s.now (s.now + r.gap)) = some ⟨4, 2400, 0, 240⟩ := by decide +kernel
theorem witness_no_event : ∀ b, eventIn tIdle 1 tIdle.now b = false := by
  intro b
  have h1 : ((List.range 16).all fun i => (getTile tIdle (16 * 1 + i)).own.isNone) = true := by decide +kernel
  have h2 : zoneCtxs tIdle 1 holdsPlan = [] := by decide +kernel
  simp only [eventIn, zoneEventIn, show (1 : Nat) < 16 by decide, if_true, h2, List.any_nil, Bool.or_false]
  rw [List.any_eq_false]
  intro i hi
  have := List.all_eq_true.1 h1 i hi
  simp only [Option.isNone_iff_eq_none] at this
  simp [this]
/-- Zone 1 is in state 1 since tick 50; f adds to that. -/
def tNap (f : State → State) : State := f (wr { tIdle with idle := [(1, some { since := 50, ready := none })] } (rPWR_IDLE 1) fPWR_IDLE_STATE 1)
/-- Context 0 is armed on a tile of zone 1 for a tick. -/
def tNapArm (t : Nat) : State := tNap fun s => setCtx s 0 { tCtx with plan := .armed, launchAt := t, tiles := 2 ^ 16, image := some { tPlan with tiles := 2 ^ 16 } }
theorem witness_wake : getIdle (tNap id) 1 = some { since := 50, ready := none } ∧ eventIn (tNap id) 1 51 ((tNap id).now + (idleRow (tNap id) 1).exit + 1) = false ∧
    getIdle (tNap fun s => { s with idle := [(1, some { since := 50, ready := some 104 })] }) 1 = some { since := 50, ready := some 104 } ∧
    eventIn (tNapArm 104) 1 51 ((tNapArm 104).now + (idleRow (tNapArm 104) 1).exit + 1) = true ∧ getIdle (tNapArm 104) 1 = some { since := 50, ready := none } ∧
    eventIn (tNapArm 104) 1 51 (max (tNapArm 104).now (50 + (idleRow (tNapArm 104) 1).entry) + (idleRow (tNapArm 104) 1).exit) = false ∧
    eventIn (tNapArm 103) 1 51 (max (tNapArm 103).now (50 + (idleRow (tNapArm 103) 1).entry) + (idleRow (tNapArm 103) 1).exit) = true ∧
    (0 : CtxId) ∈ unitCtxs (tNapArm 103) 1 ∧ purging (getCtx (tNapArm 103) 0) = false := by decide +kernel
theorem witness_crypto_idle : (tPwr 1199999999 id).now < (tPwr 1199999999 id).boot.crypto + 1200000000 ∧ (tPwr 1200000000 id).boot.crypto + 1200000000 ≤ (tPwr 1200000000 id).now := by
  decide +kernel

/-! ### Boot, and the whole block -/

/-- A module that boots, in phase n. -/
def tBoot (n : Nat) : State := wr State.reset rSEC_BOOT fSEC_BOOT_PHASE n
theorem witness_boot : (∀ n ∈ [1, 2, 3, 4, 5, 6, 7], bootMode (tBoot n) = 1 ∧ dead (tBoot n) = false ∧ (tBoot n).pwr.quenched = false ∧ bootPhase (tBoot n) = n) ∧
    hasAll (tRes 14 0) 14 = true ∧ hasAll (tRes 6 0) 14 = false ∧ fwReject (tBoot 3) (flashImg (tBoot 3)) true = some 1 ∧ bootMode (tServe State.reset) ≠ 1 ∧
    dead (wr (tBoot 3) rGAF_RECOVERY fGAF_RECOVERY_DEAD 1) = true := by decide +kernel
theorem witness_restart : let s : State := { wr State.reset rSEC_BOOT fSEC_BOOT_MODE 3 with now := 40, boot := { State.reset.boot with restart := some 40 } }
    s.boot.restart = some 40 ∧ 40 ≤ s.now ∧ bootMode s = 3 ∧ s.pwr.quenched = false ∧ ({ s with now := 39 }).now < 40 ∧ State.reset.boot.restart = none := by decide +kernel
/-- Tile 0 stands in physical tile 0, tile 255 in none. -/
theorem witness_self_test : (∀ i, i < 16 → physOf (tRun id) (16 * ((271 : PTileId).val / 17) + i) = (271 : PTileId).val → ∀ c : CtxId, holdsPlan (getCtx (tRun id) c) = true →
      (planTiles (getCtx (tRun id) c)).getLsbD (16 * ((271 : PTileId).val / 17) + i) = false) ∧
    physOf { tRun id with tileMap := [(0, some 0)] } (16 * ((0 : PTileId).val / 17) + 0) = (0 : PTileId).val ∧
    holdsPlan (getCtx { tRun id with tileMap := [(0, some 0)] } 0) = true ∧
    (planTiles (getCtx { tRun id with tileMap := [(0, some 0)] } 0)).getLsbD (16 * ((0 : PTileId).val / 17) + 0) = true := by decide +kernel
/-- A state that lists a byte is canonical, and its steps answer a next state. -/
theorem witness_memory : ({ State.reset with mem := [(3, 1)], pending := [.idcode] }).memOk ∧ State.reset.memOk ∧
    step { State.reset with mem := [(3, 1)] } = .next { State.reset with mem := [(3, 1)] } := by
  refine ⟨?_, ?_, rfl⟩ <;> · unfold State.memOk; decide +kernel

end Tests
end Sys2Proof
end

section
/-! PROOF. Counters (R52): operations that reach one counter together, on a local counter in a cc and on a chip-wide one in a tick. -/
namespace Sys2Proof
namespace Machine

/-! ### Operations applied together -/

/-- What an operation adds: a PSET adds nothing. -/
def PunOp.amount : PunOp → Nat
  | .inc n => n
  | .set _ => 0

/-- The value a PSET gives, as an unsigned number. -/
def PunOp.setNat : PunOp → Option Nat
  | .inc _ => none
  | .set w => some w.toNat

/-- What the increments start from: the largest PSET, or without one the counter itself. -/
def punBase (v : W32) (ops : List PunOp) : Nat := ((ops.filterMap PunOp.setNat).max?).getD v.toNat

theorem foldl_amount (f : Nat → PunOp → Nat) (hf : ∀ a o, f a o = a + o.amount) (ops : List PunOp) (a : Nat) :
    ops.foldl f a = a + (ops.map PunOp.amount).sum := by
  induction ops generalizing a with
  | nil => rfl
  | cons o ops ih => rw [List.foldl_cons, ih, hf, List.map_cons, List.sum_cons, Nat.add_assoc]

theorem filterMap_setNat (f : PunOp → Option Nat) (hf : ∀ o, f o = o.setNat) (ops : List PunOp) :
    ops.filterMap f = ops.filterMap PunOp.setNat := congrArg (fun g => ops.filterMap g) (funext hf)

/-- R52 as one equation: the base, then all the increments. -/
theorem punApply_eq (v : W32) (ops : List PunOp) :
    punApply v ops = BitVec.ofNat 32 (punBase v ops + (ops.map PunOp.amount).sum) := by
  rw [punApply, filterMap_setNat, foldl_amount, Nat.zero_add, punBase]
  · cases ops.filterMap PunOp.setNat <;> rfl
  · intro a o; cases o <;> rfl
  · intro o; cases o <;> rfl

theorem ofNat_toNat_add (v : W32) (n : Nat) : BitVec.ofNat 32 (v.toNat + n) = v + BitVec.ofNat 32 n := by
  rw [BitVec.ofNat_add, BitVec.ofNat_toNat, BitVec.setWidth_eq]

theorem punApply_nil (v : W32) : punApply v [] = v :=
  (punApply_eq v []).trans ((ofNat_toNat_add v 0).trans (BitVec.add_zero v))

theorem max?_perm {a b : List Nat} (h : a.Perm b) : a.max? = b.max? := by
  ext m
  simp only [List.max?_eq_some_iff, h.mem_iff]

/-- The order of operations that reach a counter together does not count. -/
theorem punApply_perm (v : W32) {a b : List PunOp} (h : a.Perm b) : punApply v a = punApply v b := by
  rw [punApply_eq, punApply_eq, punBase, punBase, max?_perm (h.filterMap _), (h.map _).sum_nat]

/-- No increment is lost. -/
theorem punApply_incs (v : W32) (ns : List Nat) : punApply v (ns.map .inc) = v + BitVec.ofNat 32 ns.sum := by
  have hset : (ns.map PunOp.inc).filterMap PunOp.setNat = [] := List.filterMap_eq_nil_iff.mpr fun o ho => by
    obtain ⟨n, -, rfl⟩ := List.mem_map.mp ho
    rfl
  have hsum : (ns.map PunOp.inc).map PunOp.amount = ns := List.map_map.trans (List.map_id ns)
  rw [punApply_eq, punBase, hset, hsum]
  exact ofNat_toNat_add v ns.sum

theorem mem_setNat {w : Nat} {ops : List PunOp} :
    w ∈ ops.filterMap PunOp.setNat ↔ ∃ x : W32, PunOp.set x ∈ ops ∧ x.toNat = w := by
  rw [List.mem_filterMap]
  constructor
  · rintro ⟨_ | x, hx, ho⟩
    · cases ho
    · exact ⟨x, hx, Option.some.inj ho⟩
  · rintro ⟨x, hx, rfl⟩
    exact ⟨.set x, hx, rfl⟩

/-- A PSET no smaller than any other counts, and counts before the increments. -/
theorem punApply_largest_set (v : W32) {w : W32} {ops : List PunOp} (hw : .set w ∈ ops)
    (hmax : ∀ x, .set x ∈ ops → x.toNat ≤ w.toNat) :
    punApply v ops = w + BitVec.ofNat 32 (ops.map PunOp.amount).sum := by
  have hbase : (ops.filterMap PunOp.setNat).max? = some w.toNat := by
    refine List.max?_eq_some_iff.mpr ⟨mem_setNat.mpr ⟨w, hw, rfl⟩, fun b hb => ?_⟩
    obtain ⟨x, hx, rfl⟩ := mem_setNat.mp hb
    exact hmax x hx
  rw [punApply_eq, punBase, hbase]
  exact ofNat_toNat_add w _

/-! ### Local counters at the start of a cc -/

/-- The operations of a list that name counter c. -/
def opsOn (c : Nat) (ops : List (Nat × PunOp)) : List PunOp := ops.filterMap fun o => if o.1 = c then some o.2 else none

/-- The counter operations among acts. -/
def punsOf (as : List Act) : List (Nat × PunOp) := as.filterMap fun a => match a with | .pun c o => some (c, o) | _ => none

/-- One counter's turn in `landPuns`. -/
def landPun (ops : List (Nat × PunOp)) (x : Tile) (c : Nat) : Tile :=
  match opsOn c ops with
  | [] => x
  | os => { x with punty := tset (fun _ => 0) x.punty c (punApply (localCtr x c) os) }

theorem landPuns_eq (x : Tile) (ops : List (Nat × PunOp)) : landPuns x ops = (List.range 64).foldl (landPun ops) x := rfl

theorem localCtr_landPun (ops : List (Nat × PunOp)) (x : Tile) (c d : Nat) :
    localCtr (landPun ops x c) d = if d = c then punApply (localCtr x c) (opsOn c ops) else localCtr x d := by
  unfold landPun
  split
  next h =>
    by_cases hd : d = c
    · rw [if_pos hd, h, punApply_nil, hd]
    · rw [if_neg hd]
  next => exact tget_tset _ _ _ _ _

theorem localCtr_foldl_landPun (ops : List (Nat × PunOp)) (d : Nat) {cs : List Nat} (hcs : cs.Nodup) (x : Tile) :
    localCtr (cs.foldl (landPun ops) x) d = if d ∈ cs then punApply (localCtr x d) (opsOn d ops) else localCtr x d := by
  induction cs generalizing x with
  | nil => exact (if_neg List.not_mem_nil).symm
  | cons c cs ih =>
    obtain ⟨hc, hcs⟩ := List.nodup_cons.mp hcs
    rw [List.foldl_cons, ih hcs, localCtr_landPun]
    by_cases hd : d = c
    · subst hd; rw [if_neg hc, if_pos rfl, if_pos List.mem_cons_self]
    · rw [if_neg hd]; simp only [List.mem_cons, hd, false_or]

/-- The operations that land in a cc reach each local counter all together. -/
theorem localCtr_landPuns (x : Tile) (ops : List (Nat × PunOp)) (d : Nat) :
    localCtr (landPuns x ops) d = if d < 64 then punApply (localCtr x d) (opsOn d ops) else localCtr x d := by
  rw [landPuns_eq, localCtr_foldl_landPun ops d List.nodup_range]
  simp only [List.mem_range]

@[simp] theorem landAct_punty (as : List Act) (x : Tile) (a : Act) : (landAct as x a).punty = x.punty := by
  cases a with
  | setV p r vals => simp only [landAct]; split <;> rfl
  | setQ q bits msk => simp only [landAct, setQreg]; split <;> rfl
  | setAd r v => simp only [landAct, setAdreg]; split <;> rfl
  | _ => rfl

@[simp] theorem foldl_landAct_punty (as l : List Act) (x : Tile) : (l.foldl (landAct as) x).punty = x.punty := by
  induction l generalizing x with
  | nil => rfl
  | cons a l ih => rw [List.foldl_cons, ih, landAct_punty]

@[simp] theorem takeXin_punty (x : Tile) (now : Nat) : (takeXin x now).1.punty = x.punty := by
  unfold takeXin
  split
  · rfl
  · split <;> rfl

@[simp] theorem nextCc_punty (s : State) (t : Nat) : (nextCc s t).punty = (getTile s t).punty := by
  simp only [nextCc]; split <;> rfl

@[simp] theorem nextCc_cc (s : State) (t : Nat) : (nextCc s t).cc = (getTile s t).cc + 1 := by
  simp only [nextCc]; split <;> rfl

@[simp] theorem nextCc_acts (s : State) (t : Nat) : (nextCc s t).acts = (getTile s t).acts := by
  simp only [nextCc]; split <;> rfl

theorem getTile_setTile_punty (s : State) (t : Nat) (x : Tile) : (getTile (setTile s t x) t).punty = x.punty :=
  congrArg Tile.punty (getTile_setTile_same s t x)

/-- A fault of a tile leaves its counters. -/
@[simp] theorem tileFault_punty (s : State) (t slot : Nat) (code : BitVec 16) (d0 d1 : Nat) :
    (getTile (tileFault s t slot code d0 d1) t).punty = (getTile s t).punty := by
  have hstop : (getTile (if (getTile s t).isOpen then
      setTile (unsend s (getTile s t).sent) t { unissue (getTile s t) with st := .faulted, stall := none }
      else setTile s t { getTile s t with st := .faulted, stall := none }) t).punty = (getTile s t).punty := by
    split <;> exact getTile_setTile_punty _ _ _
  simp only [tileFault]
  split
  · rfl
  · split
    · rw [getTile_raiseAt, hstop]
    · exact hstop

@[simp] theorem bankCheck_punty (s : State) (t : Nat) : (getTile (bankCheck s t) t).punty = (getTile s t).punty := by
  simp only [bankCheck]
  split
  · rfl
  · rw [tileFault_punty, getTile_modTile_same]

/-- What the start of a cc does to the local counters: the operations due in it, applied together. -/
theorem localCtr_openCc (s : State) (t d : Nat) :
    localCtr (getTile (openCc s t) t) d =
      localCtr (landPuns (getTile s t) (punsOf ((dueIn ((getTile s t).cc + 1) (getTile s t).acts).filter Act.isLand))) d := by
  have hfault (u : State) (clash : Bool) :
      (getTile (bankCheck (if clash then tileFault u t 3 0x2009 0 0 else u) t) t).punty = (getTile u t).punty := by
    rw [bankCheck_punty]; split <;> simp only [tileFault_punty]
  simp only [openCc]
  rw [localCtr, hfault, getTile_setTile_same, ← localCtr, localCtr_landPuns, localCtr_landPuns]
  simp only [localCtr, takeXin_punty, foldl_landAct_punty, nextCc_punty, nextCc_cc, nextCc_acts]
  rfl

/-! ### The cc of a tile with nothing but counter operations under way -/

@[simp] theorem dueIn_nil (c : Nat) : dueIn c [] = [] := rfl

@[simp] theorem runActs_nil (s : State) (t : Nat) (inv : List Nat) : runActs s t inv [] = s := rfl

/-- A bundle that scheduled nothing is only closed. -/
theorem closeMade_of_made_nil {s : State} {t : Nat} (h : (getTile s t).made = []) :
    closeMade s t = modTile s t fun x => { x with made := [], isOpen := false, sent := none } := by
  simp only [closeMade, h, dueIn_nil, runActs_nil, modTile, List.filter_nil, List.append_nil]

/-- The end of a cc in which nothing is due. -/
theorem closeCc_of_nothing_due {s : State} {t : Nat} (hm : (getTile s t).made = [])
    (hd : dueIn (getTile s t).cc (getTile s t).acts = []) :
    closeCc s t = setTile s t { getTile s t with
      acts := (getTile s t).acts.filter fun e => decide (e.1 ≠ (getTile s t).cc), made := [], isOpen := false, sent := none } := by
  simp only [closeCc, hd, runActs_nil, List.foldl_nil]
  rw [closeMade_of_made_nil (by rw [getTile_setTile_same]; exact hm)]
  simp only [modTile, getTile_setTile_same, setTile_setTile_same, Bool.or_false, Bool.false_eq_true, if_false]

theorem filterMap_of_some {α β : Type} {f : α → Option β} {g : α → β} (h : ∀ a, f a = some (g a)) (l : List α) :
    l.filterMap f = l.map g := by
  rw [funext h]; exact congrFun List.filterMap_eq_map l

/-- Counter operations scheduled for one cc. -/
def punsAt (c : Nat) (ps : List (Nat × PunOp)) : List (Nat × Act) := ps.map fun p => (c, .pun p.1 p.2)

theorem dueIn_punsAt_ne {c k : Nat} (ps : List (Nat × PunOp)) (h : c ≠ k) : dueIn k (punsAt c ps) = [] := by
  refine List.filterMap_eq_nil_iff.mpr fun e he => ?_
  obtain ⟨p, -, rfl⟩ := List.mem_map.mp he
  exact if_neg h

theorem filter_punsAt_ne {c k : Nat} (ps : List (Nat × PunOp)) (h : c ≠ k) :
    (punsAt c ps).filter (fun e => decide (e.1 ≠ k)) = punsAt c ps := by
  refine List.filter_eq_self.mpr fun e he => ?_
  obtain ⟨p, -, rfl⟩ := List.mem_map.mp he
  exact decide_eq_true h

theorem dueIn_punsAt_same (c : Nat) (ps : List (Nat × PunOp)) : dueIn c (punsAt c ps) = ps.map fun p => .pun p.1 p.2 := by
  rw [dueIn, punsAt, List.filterMap_map]
  exact filterMap_of_some (fun _ => if_pos rfl) ps

theorem punsOf_dueIn_punsAt (c : Nat) (ps : List (Nat × PunOp)) :
    punsOf ((dueIn c (punsAt c ps)).filter Act.isLand) = ps := by
  rw [dueIn_punsAt_same]
  induction ps with
  | nil => rfl
  | cons p ps ih => exact congrArg (p :: ·) ih

/-- In a cc the local counters get the operations scheduled for the next one, and none scheduled for a later one. -/
theorem localCtr_advanceCc {s : State} {t c : Nat} {ps : List (Nat × PunOp)} (h : (getTile s t).only (punsAt c ps))
    (hc : (getTile s t).cc < c) (d : Nat) :
    localCtr (getTile (advanceCc s t) t) d =
      localCtr (landPuns (getTile s t) (if c = (getTile s t).cc + 1 then ps else [])) d := by
  obtain ⟨hacts, hmade, -, -⟩ := h
  have hdue : punsOf ((dueIn ((getTile s t).cc + 1) (punsAt c ps)).filter Act.isLand) =
      if c = (getTile s t).cc + 1 then ps else [] := by
    split
    next hn => rw [← hn, punsOf_dueIn_punsAt]
    next hn => rw [dueIn_punsAt_ne ps hn]; rfl
  rw [advanceCc, closeCc_of_nothing_due hmade (hacts ▸ dueIn_punsAt_ne ps (Nat.ne_of_gt hc)), localCtr_openCc, getTile_setTile_same,
    hacts, filter_punsAt_ne ps (Nat.ne_of_gt hc), hdue, localCtr_landPuns, localCtr_landPuns]
  rfl

theorem opsOn_same (c : Nat) (ops : List PunOp) : opsOn c (ops.map fun o => (c, o)) = ops := by
  rw [opsOn, List.filterMap_map]
  exact (filterMap_of_some (fun _ => if_pos rfl) ops).trans (List.map_id ops)

theorem punsAt_one (k c : Nat) (ops : List PunOp) :
    punsAt k (ops.map fun o => (c, o)) = ops.map fun o => (k, .pun c o) := List.map_map

/-! ### Chip-wide counters at the hub -/

theorem insertNat_same (n : Nat) : insertNat n [n] = [n] := by
  rw [insertNat, if_neg (Nat.lt_irrefl n), if_pos rfl]

theorem foldl_of_fixed {α β : Type} {f : β → α → β} {b : β} (h : ∀ a, f b a = b) (l : List α) : l.foldl f b = b := by
  induction l with
  | nil => rfl
  | cons a l ih => rw [List.foldl_cons, h, ih]

/-- Inserting one number any number of times lists it once. -/
theorem foldl_insertNat_same {α : Type} (n : Nat) {l : List α} (h : l ≠ []) :
    l.foldl (fun acc _ => insertNat n acc) [] = [n] := by
  obtain ⟨a, l, rfl⟩ := List.exists_cons_of_ne_nil h
  rw [List.foldl_cons]
  exact foldl_of_fixed (fun _ => insertNat_same n) l

theorem chipAt_of_history {s : State} {n t : Nat} {e : Nat × W32} {keep : List (Nat × W32)}
    (h : tget (fun _ => []) s.chip n = e :: keep) (he : e.1 ≤ t) : chipAt s n t = e.2 := by
  rw [chipAt, h, List.find?_cons_of_pos (p := fun e : Nat × W32 => decide (e.1 ≤ t)) (decide_eq_true he)]

/-- The history of a counter that was just given a value: it starts with that value, or is empty for a 0. -/
theorem chipSet_history (s : State) (n : Nat) (v : W32) :
    (v = 0 ∧ tget (fun _ => []) (chipSet s n v).chip n = []) ∨
      ∃ keep, tget (fun _ => []) (chipSet s n v).chip n = (s.now, v) :: keep := by
  simp only [chipSet, tget_tset_same]
  split
  next h => exact .inl ⟨of_decide_eq_true (Bool.and_eq_true_iff.mp h).2, rfl⟩
  next => exact .inr ⟨_, rfl⟩

/-- A chip-wide counter reads as what it was given at the present tick. -/
theorem chipNow_chipSet (s : State) (n : Nat) (v : W32) : chipNow (chipSet s n v) n = v := by
  obtain ⟨hv, hempty⟩ | ⟨keep, hcons⟩ := chipSet_history s n v
  · rw [chipNow, chipAt, hempty, hv]; rfl
  · exact chipAt_of_history hcons (Nat.le_refl s.now)

/-- Operations due at one tick on one counter are applied together. -/
theorem applyChip_one_tick (s : State) (n t : Nat) {ops : List PunOp} (h : ops ≠ []) :
    applyChip s n (ops.map fun o => (t, o)) = chipSet s n (punApply (chipNow s n) ops) := by
  simp only [applyChip, List.foldl_map, foldl_insertNat_same t h, List.foldl_cons, List.foldl_nil, List.filterMap_map,
    Function.comp_def, if_true, List.filterMap_some]

/-- What the hub does with the operations of one tick on one chip-wide counter, the only ones in the network. -/
theorem syncApply_one_chip {s : State} {n t : Nat} {ops : List PunOp}
    (hnet : s.syncNet = ops.map fun o => { due := t, ctr := .chip n, op := o }) (ht : t ≤ s.now) (h : ops ≠ []) :
    syncApply s = chipSet { s with syncNet := [] } n (punApply (chipNow s n) ops) := by
  have hall : ∀ i ∈ s.syncNet, decide (i.due ≤ s.now) = true := by
    intro i hi
    rw [hnet] at hi
    obtain ⟨o, -, rfl⟩ := List.mem_map.mp hi
    exact decide_eq_true ht
  have hdue : s.syncNet.filter (fun i => decide (i.due ≤ s.now)) = s.syncNet := List.filter_eq_self.mpr hall
  have hrest : s.syncNet.filter (fun i => !decide (i.due ≤ s.now)) = [] :=
    List.filter_eq_nil_iff.mpr fun i hi => by rw [hall i hi]; exact Bool.false_ne_true
  simp only [syncApply, hdue, hrest]
  rw [hnet]
  simp only [List.foldl_map, foldl_insertNat_same n h, List.foldl_cons, List.foldl_nil, List.filterMap_map,
    Function.comp_def, if_true]
  rw [foldl_of_fixed fun _ => rfl, filterMap_of_some fun _ => rfl]
  exact applyChip_one_tick { s with syncNet := [] } n t h

theorem syncApply_of_empty {s : State} (h : s.syncNet = []) : syncApply s = s := by
  simp only [syncApply, h, List.filter_nil, List.foldl_nil]
  rw [← h]

/-- Settles O14: R52's rule is `punApply_eq`; a cc and the hub apply it to what they are due. -/
theorem counterOperationsCombine : Obligations.CounterOperationsCombine := by
  refine ⟨fun v a b h => punApply_perm v h, punApply_incs, fun v w ops hw hmax => ?_, fun s t c ops hc h => ?_,
    fun s n t ops hnet ht => ?_, fun s t c ops h => ?_, fun v t => decide_eq_true_iff⟩
  · rw [punApply_largest_set v hw hmax]
    exact congrArg (fun f => w + BitVec.ofNat 32 (ops.map f).sum) (funext fun o => by cases o <;> rfl)
  · rw [← punsAt_one] at h
    rw [localCtr_advanceCc h (by omega), if_pos rfl, localCtr_landPuns, if_pos hc, opsOn_same]
  · refine ⟨syncApply s, rfl, ?_⟩
    by_cases h : ops = []
    · subst h
      rw [syncApply_of_empty hnet, punApply_nil]
      exact ⟨rfl, hnet⟩
    · rw [syncApply_one_chip hnet ht h, chipNow_chipSet]
      exact ⟨rfl, rfl⟩
  · rw [← punsAt_one] at h
    rw [localCtr_advanceCc h (by omega), if_neg (by omega), localCtr_landPuns, show opsOn c [] = [] from rfl, punApply_nil,
      ite_self]

end Machine
end Sys2Proof
end

section
/-! PROOF. Loops (R34): what the loop stack does to the sequence of bundles. -/
namespace Sys2Proof
namespace Machine

/-! ### The bundle after a bundle -/

/-- A bundle that is not the last of the innermost body is followed by the next one. -/
theorem seqNext_inside {b : Nat} {l : LoopLv} (ls : List LoopLv) (h : l.last ≠ b) :
    seqNext b (l :: ls) = ((b + 1) % 2048, l :: ls) := by
  rw [seqNext, if_neg h]

/-- The last bundle of a body with runs left is followed by its first. -/
theorem seqNext_last_again {l : LoopLv} (ls : List LoopLv) (h : 1 < l.left) :
    seqNext l.last (l :: ls) = (l.first, { l with left := l.left - 1 } :: ls) := by
  rw [seqNext, if_pos rfl, if_pos h]

/-- The last bundle of a body's final run leaves the level. -/
theorem seqNext_last_leave {l : LoopLv} {ls : List LoopLv} (h : l.left ≤ 1) (hls : ∀ o ∈ ls, o.last ≠ l.last) :
    seqNext l.last (l :: ls) = ((l.last + 1) % 2048, ls) := by
  rw [seqNext, if_pos rfl, if_neg (by omega)]
  cases ls with
  | nil => rfl
  | cons o os => exact seqNext_inside os (hls o List.mem_cons_self)

theorem seqRun_add (m n : Nat) (p : Nat × List LoopLv) : seqRun (m + n) p = seqRun n (seqRun m p) := by
  induction m generalizing p with
  | zero => rw [Nat.zero_add, seqRun]
  | succ m ih => rw [Nat.succ_add]; exact ih _

theorem seqRun_succ (n : Nat) (p : Nat × List LoopLv) : seqRun (n + 1) p = seqNext (seqRun n p).1 (seqRun n p).2 :=
  seqRun_add n 1 p

/-! ### One run of a body, and all of them -/

/-- The body of a level is `len` bundles, in stream order within the bundle store. -/
def LoopLv.HasBody (lv : LoopLv) (len : Nat) : Prop := 0 < len ∧ lv.last + 1 = lv.first + len ∧ lv.last < 2048

section
variable {lv : LoopLv} {len : Nat} (hb : lv.HasBody len) (outer : List LoopLv)
include hb

/-- Within one run the bundles of the body issue in stream order. -/
theorem seqRun_inside_body {k : Nat} (hk : k < len) : seqRun k (lv.first, lv :: outer) = (lv.first + k, lv :: outer) := by
  obtain ⟨-, hlen, hlast⟩ := hb
  induction k with
  | zero => rfl
  | succ k ih =>
    rw [seqRun_succ, ih (by omega), seqNext_inside outer (by omega), Nat.mod_eq_of_lt (by omega), Nat.add_assoc]

/-- A whole run comes to what follows the body's last bundle. -/
theorem seqRun_body : seqRun len (lv.first, lv :: outer) = seqNext lv.last (lv :: outer) := by
  obtain ⟨hpos, hlen, -⟩ := id hb
  obtain ⟨k, rfl⟩ := Nat.exists_eq_succ_of_ne_zero (Nat.ne_of_gt hpos)
  rw [Nat.succ_eq_add_one, seqRun_succ, seqRun_inside_body hb outer k.lt_succ_self, show lv.first + k = lv.last by omega]

/-- After j runs, with runs left, issue stands at the first bundle of the body again. -/
theorem seqRun_runs {j : Nat} (hj : j < lv.left) :
    seqRun (j * len) (lv.first, lv :: outer) = (lv.first, { lv with left := lv.left - j } :: outer) := by
  induction j with
  | zero => rw [Nat.zero_mul, seqRun, Nat.sub_zero]
  | succ j ih =>
    have hb' : ({ lv with left := lv.left - j } : LoopLv).HasBody len := hb
    rw [Nat.succ_mul, seqRun_add, ih (by omega)]
    exact (seqRun_body hb' outer).trans (seqNext_last_again outer (show 1 < lv.left - j by omega))

/-- The k-th bundle of a loop is bundle `k % len` of its body. -/
theorem seqRun_in_loop {k : Nat} (hk : k < lv.left * len) : (seqRun k (lv.first, lv :: outer)).1 = lv.first + k % len := by
  have hb' : ({ lv with left := lv.left - k / len } : LoopLv).HasBody len := hb
  have hrun : k / len < lv.left := Nat.div_lt_of_lt_mul (Nat.mul_comm _ _ ▸ hk)
  calc (seqRun k (lv.first, lv :: outer)).1
      = (seqRun (k / len * len + k % len) (lv.first, lv :: outer)).1 := by rw [Nat.div_add_mod']
    _ = (seqRun (k % len) (lv.first, { lv with left := lv.left - k / len } :: outer)).1 := by
        rw [seqRun_add, seqRun_runs hb outer hrun]
    _ = lv.first + k % len := congrArg Prod.fst (seqRun_inside_body hb' outer (Nat.mod_lt k hb.1))

/-- After its last run the loop is left for the bundle after its body. -/
theorem seqRun_loop (hl : 1 ≤ lv.left) (ho : ∀ o ∈ outer, o.last ≠ lv.last) :
    seqRun (lv.left * len) (lv.first, lv :: outer) = ((lv.last + 1) % 2048, outer) := by
  have hb' : ({ lv with left := lv.left - (lv.left - 1) } : LoopLv).HasBody len := hb
  rw [show lv.left * len = (lv.left - 1) * len + len by rw [← Nat.succ_mul, Nat.succ_eq_add_one, Nat.sub_add_cancel hl],
    seqRun_add, seqRun_runs hb outer (by omega)]
  exact (seqRun_body hb' outer).trans (seqNext_last_leave (show lv.left - (lv.left - 1) ≤ 1 by omega) ho)

end

/-! ### The commands LOOP and JMP, and a bundle that issues -/

theorem exec_loop {s s1 : State} {t : TileId} (h : CtlOpens s t s1) (n : BitVec 14) (len : BitVec 11) :
    exec (.loop t n 0 len) s = .next (
      if 4 ≤ (getTile s1 t).loops.length then tileFault s1 t 1 0x200A 0 0
      else setTile s1 t { getTile s1 t with
        bidx := ((getTile s1 t).cur + 1) % 2048
        loops := { left := n.toNat + 1, first := ((getTile s1 t).cur + 1) % 2048
                   last := ((getTile s1 t).cur + 1 + len.toNat) % 2048 } :: (getTile s1 t).loops }) :=
  congrArg Host.Outcome.next (ctlSlot_opens h _)

theorem exec_jmp {s s1 : State} {t : TileId} (h : CtlOpens s t s1) (k : BitVec 11) :
    exec (.jmp t 0 k) s = .next (
      if (getTile s1 t).loops ≠ [] then tileFault s1 t 1 0x200D 0 0
      else setTile s1 t { getTile s1 t with bidx := k.toNat }) := by
  refine congrArg Host.Outcome.next ((ctlSlot_opens h _).trans ?_)
  simp only [badEnc, Bool.or_eq_true, decide_eq_true_eq, ne_eq, not_true_eq_false, false_or]

/-- Noting a position of the twin window leaves where the tile stands. -/
theorem ite_notePos_place (b : Bool) (x : Tile) :
    (if b then notePos x else x).bidx = x.bidx ∧ (if b then notePos x else x).cc = x.cc := by
  cases b <;> exact ⟨rfl, rfl⟩

/-- A bundle that may issue does so in the present cc, and the sequence goes on as the loop stack says. -/
theorem takeBundle_sequence {s : State} {t : Nat} (h : MayIssue s t) :
    (getTile (takeBundle s t) t).cur = (getTile s t).bidx ∧ (getTile (takeBundle s t) t).cc = (getTile s t).cc ∧
    ((getTile (takeBundle s t) t).bidx, (getTile (takeBundle s t) t).loops) = seqNext (getTile s t).bidx (getTile s t).loops := by
  obtain ⟨hbrk, hblk⟩ := h
  simp only [takeBundle, hbrk, if_neg (Nat.not_lt.mpr hblk), getTile_setTile_same, and_true]
  exact ite_notePos_place _ _

/-- Settles O15: a loop's body repeats at no cost by counting whole runs; LOOP, JMP and the issue of a bundle by their equations. -/
theorem loopBodyRepeats : Obligations.LoopBodyRepeats := by
  refine ⟨fun t s s1 n len h => ⟨fun hd => ?_, fun hd => ?_⟩, fun t s s1 k h => ⟨fun hd => ?_, fun hd => ?_⟩,
    fun s t hbrk hblk => takeBundle_sequence ⟨hbrk, hblk⟩, fun lv len outer hpos hl hlen hlast ho => ?_⟩
  · rw [exec_loop h, if_neg (by omega)]
  · rw [exec_loop h, if_pos hd]
  · rw [exec_jmp h, if_neg fun hn => hn hd]
  · rw [exec_jmp h, if_pos hd]
  · have hb : lv.HasBody len := ⟨hpos, hlen, hlast⟩
    exact ⟨fun k hk => seqRun_in_loop hb outer hk, seqRun_loop hb outer hl ho⟩

end Machine
end Sys2Proof
end
